-- ==== Sys2Proof/Word.lean ====
section
/-! DEFINITION. Word.lean: the word and byte types of the hub and the association list
in which the state keeps its numbered parts (channels, sources, windows, ports). -/
namespace Sys2Proof

/-- A register or record word (R4). -/
abbrev Word := BitVec 32

/-- One byte. -/
abbrev Byte := BitVec 8

/-- Numbered parts of the hub: index and content, indices rising; an index that is not
listed holds the content the reader names. -/
abbrev Tab (α : Type) := List (Nat × α)

/-- The entry of an index, where one is listed. -/
def Tab.look {α : Type} : Tab α → Nat → Option α
  | [], _ => none
  | (k, v) :: t, i => if k = i then some v else Tab.look t i

/-- The entry of an index, `d` where none is listed. -/
def Tab.val {α : Type} (t : Tab α) (d : α) (i : Nat) : α := (t.look i).getD d

/-- The table with one entry replaced, indices kept rising. -/
def Tab.set {α : Type} : Tab α → Nat → α → Tab α
  | [], i, v => [(i, v)]
  | (k, w) :: t, i, v =>
    if i < k then (i, v) :: (k, w) :: t
    else if i = k then (i, v) :: t
    else (k, w) :: Tab.set t i v

/-- The table without an index. -/
def Tab.drop {α : Type} : Tab α → Nat → Tab α
  | [], _ => []
  | (k, w) :: t, i => if k = i then t else (k, w) :: Tab.drop t i

/-- The table with one entry changed, from `d` where none is listed. -/
def Tab.upd {α : Type} (t : Tab α) (d : α) (i : Nat) (f : α → α) : Tab α := t.set i (f (t.val d i))

end Sys2Proof
end

