-- ==== Sys2Proof/Config.lean ====
section
/-! DEFINITION. Config.lean: the fixed figures of the hub and the values the spec leaves open. A value the
spec leaves open is an opaque constant: nothing can evaluate it, so a statement that holds, holds whatever
the hub does there. -/
namespace Sys2Proof

/-- Ticks in a frame and in an epoch (R2, R5). -/
def Config.frame : Nat := 2000
/-- Ticks in an epoch (R5). -/
def Config.epoch : Nat := 250
/-- Ticks in a second (R5). -/
def Config.second : Nat := 2000000
/-- Bytes of a tick record (R9). -/
def Config.tickBytes : Nat := 500
/-- Ticks the safety net holds (R17). -/
def Config.netTicks : Nat := 16777
/-- Ticks of a full trim (R360). -/
def Config.trimTicks : Nat := 364000
/-- Event-recorder staging slots (R410). -/
def Config.stagingSlots : Nat := 2048

/-- Bytes the spec does not lay out (a STREAM or AUX region read as bytes, the content a failed job left
behind), by draw number (log 8). -/
opaque Config.freeByte : Nat → Byte

/-- Session identifiers, nonces and the like that the hub draws, by draw number (log 11). -/
opaque Config.freeWord : Nat → Word

/-- Processing cost per tick of an enabled channel, 1/256 cycle, from its configuration words: the spec gives
the budget and no cost formula (R191, log 7). -/
opaque Config.channelCost : List Word → Nat

/-- The 16-bit value that the sum of a hardware part and a field-zero part takes where it does not fit the
field: the spec states no result there (R359, log 36). -/
opaque Config.freeSum : Int → BitVec 16

/-- Values of a view or figure the spec names without a formula for the case in hand, by draw number (log 20, log 36, log 37). -/
opaque Config.freeNat : Nat → Nat

/-- Which way a quantity whose rounding the spec leaves open is rounded, by the quantity: the low bit counts (log 7, log 31). -/
opaque Config.freeRound : Nat → Nat

/-- The row of a memory that an address lies in: the spec gives the DRAM and the SRAM arrays no row size (R18, R219, log 14). -/
opaque Config.memRow : Nat → Nat

/-- Spare rows of an SRAM array: the spec gives 32 for both arrays together (R18, log 14). -/
opaque Config.sramSpares : Nat → Nat

/-- The 16 bits in which a log record holds a quantity that 16 bits do not hold: R408 gives the field 16 bits and states no
value (log 26). -/
opaque Config.freeHalf : Int → Nat

/-- Units of 256 MiB that the stack neighbour on a port lends toward this hub, which its own image fixes (R318, log 28). -/
opaque Config.neighbourLends : Nat → Nat

/-- Code that an event's data holds for a cause, operation or detector which the spec names without a number: by event code and by
what is told apart (log 29). -/
opaque Config.eventCode : Nat → Nat → Nat

/-- Class of a stack packet by its KIND, where its source has none of the classes of R38: the spec states none (R307, log 31). -/
opaque Config.packetClass : Nat → Nat

/-- Divider ratio k_ref of a fast range, held in OTP (R361, log 55). -/
opaque Config.kRef : Nat → Rat

/-- Divider ratio k_ref_slow of a slow range, held in OTP (R361, log 55). -/
opaque Config.kRefSlow : Nat → Rat

/-- Factory skew constant t_otp of a slice, in ticks, held in OTP (R361, log 55). -/
opaque Config.skewOtp : Nat → Rat

/-- HUB_ID of the troupe member at a position beyond the neighbour, which that hub's own image fixes (R323, log 30). -/
opaque Config.memberHubId : Nat → Nat

/-- Whether the CRC of an epoch's body stands right in the buffer of a core (0 A, 1 B), by draw number: what the copy suffers on its way
is outside the rules (R337, log 62). -/
opaque Config.bodyCrc : Nat → Nat → Bool

/-- What a replay that began at a tick finds of the tick record of another: no uncorrectable error, or the slots that one affects and
whether RAW has it too (R345, log 62). -/
opaque Config.netError : Nat → Nat → Option (List Nat × Bool)

end Sys2Proof
end

