-- ==== Sys2Proof/Syntax.lean ====
section
/-! DEFINITION. Syntax.lean: the commands of the hub, one constructor per row of the opcode table,
and the types of their operands. -/
namespace Sys2Proof

/-- Core A or Core B (R7). -/
inductive CoreId where
  | a | b
  deriving DecidableEq, Repr

/-- The causes for which the weathervane counts a core failed (R333), with their codes. -/
inductive CoreCause where
  | lockstep | eccUncorrectable | deadline | heartbeat | supply | catchupDeadline | bist
  deriving DecidableEq, Repr

/-- A shared unit (R8): uplink `x`, the compression engine in job `j`, the steward, or another one. -/
inductive SharedUnit where
  | uplink (x : Nat)
  | compression (j : Nat)
  | steward
  | other
  deriving DecidableEq, Repr

/-- What missed its deadline (R37). -/
inductive Deadline where
  | tmrLane (block : Nat)
  | tmrMajority (block : Nat)
  | activeCore
  | standbyCore
  | sharedUnit (unit : SharedUnit)
  deriving DecidableEq, Repr

/-- What a ROM check found on an identity bus (R156, R166). -/
inductive RomResult where
  | absent
  | rom (ident : BitVec 64) (familyOk : Bool)
  | crcBad
  deriving DecidableEq, Repr

/-- An instruction of the test port (R454). -/
inductive TestInstr where
  | bypass | extest | intest | sample | reset
  deriving DecidableEq, Repr

/-- An Announce message (R62): where it was heard, its domain number, transport and form, and the data set that the best-master selection
reads. -/
structure Announce where
  port : Nat
  domain : Nat
  transport : Nat
  unicast : Bool
  prio1 : Nat
  cls : Nat
  acc : Nat
  var : Nat
  prio2 : Nat
  ident : Nat
  steps : Nat
  deriving DecidableEq, Repr

/-- What a slow converter delivers in a full trim (R360, R361): for each of its eight ranges the two codes at zero and the two at
0.9 of full scale. -/
structure ConvCodes where
  conv : Nat
  zero : List (BitVec 24 × BitVec 24)
  ref : List (BitVec 24 × BitVec 24)
  deriving DecidableEq, Repr

/-- How work on a flash ends (R382): the first operation of the queue has been done or has failed, a read has failed 3 times, or LOAD
found no valid SFDP, or none with the features the hub needs. -/
inductive NvmEnd where
  | done
  | failed
  | readLost (flash off : Nat)
  | noSfdp (flash : Nat)
  deriving DecidableEq, Repr

/-- What became of a packet on a stack link (R308): it arrives whole or with a failing CRC, or the other end acknowledges one of
this hub's negatively, by its link sequence. -/
inductive PacketCheck where
  | good
  | bad
  | nack (seq : BitVec 16)
  deriving DecidableEq, Repr

/-- What makes an uplink discard what it received (R270, R275, R302): an NSP header, length or CRC that is wrong or names another hub;
a frame received with errors; or a frame that is no business of the hub: a wrong UDP checksum, a fragment, PAUSE, PFC, or a
tag that the port does not accept. -/
inductive RxFault where
  | header
  | frame
  | other
  deriving DecidableEq, Repr

/-- A member's datagram as a DATAGRAM packet brings it to the ringmaster (R323): its destination, header and payload. -/
structure Fwd where
  v6 : Bool
  dst : Nat
  dstPort : Nat
  hubId : Nat
  stream : Nat
  seq : Nat
  first : Nat
  boot : Nat
  words : List Word
  deriving DecidableEq, Repr

/-- A management request as it reached the hub (R291, R300): where it came from (on an uplink, its address × 65,536 + its UDP port),
the header fields that its handling reads and the payload words. -/
structure Req where
  src : Nat
  svc : Bool
  port : Nat
  v6 : Bool
  hubId : Nat
  stream : Nat
  seq : Nat
  firstTick : Nat
  words : List Word
  deriving DecidableEq, Repr


/-- One command per row of spec/opcode_table.json, in its order. The operands are what comes from
outside the hub: codes, instants, requests, and the outcomes of physical tests. -/
inductive Instr where
  /-- PORST_ASSERT (R42): PORST_N is asserted and the hub makes a cold reset into LOAD, driving outputs as R445 states. -/
  | porstAssert
  /-- PORST_RELEASE (R444): PORST_N is released, the straps are latched, the FRC starts and the LOAD steps begin. -/
  | porstRelease (pos : BitVec 4) (svcAddr : BitVec 2)
  /-- LOAD_END (R44): LOAD finishes its work: AT is set under R72 and the hub goes toward TRIM, or to DORMANT with no valid image. -/
  | loadEnd
  /-- LOCK_WAIT_END (R44): The lock wait ends when a domain qualifies or W seconds pass, and LOAD ends. -/
  | lockWaitEnd
  /-- BROWNOUT_RESET (R55): A non-core supply falls below its reset level, ILK pins drop within one tick and the hub resets without DRAM. -/
  | brownoutReset (rows : BitVec 8)
  /-- CORE_SUPPLY_RESET (R55): VDD_CA or VDD_CB falls below reset level and that core is treated as failed. -/
  | coreSupplyReset (core : CoreId)
  /-- SUPPLY_WARNING (R51): A supply is first seen below its warning level and bracing begins. -/
  | supplyWarning (row : Nat) (mV : Nat)
  /-- BRACING_END (R51): After 64 consecutive ticks above resume level, bracing ends and deferred flash work resumes. -/
  | bracingEnd
  /-- SYS_WARM_RESET (R42): A privileged write of SYS_CTRL.WARM_RESET is accepted and a warm reset is scheduled 100 ms later. -/
  | sysWarmReset (svc : Bool) (keySlot : Nat)
  /-- WARM_RESET_EXECUTE (R48): The warm reset takes place, DRAM enters self-refresh and LOAD starts. -/
  | warmResetExecute
  /-- UPDATE_RESET (R42): 100 ms after UPDATE_END accepted in DORMANT, the hub performs an automatic warm reset. -/
  | updateReset
  /-- SYS_TRIM_REQ (R42): A write of SYS_CTRL.TRIM_REQ requests a full trim, deferred past any bump or refused with BUSY or ERR_MODE. -/
  | sysTrimReq
  /-- TRIM_START (R360): At a frame boundary the full trim starts, inputs are disconnected and ILK pins held low. -/
  | trimStart (badSlices : List Nat) (badConvs : List Nat)
  /-- TRIM_END (R360): 364,000 ticks after it starts, the trim ends, the new set comes into force and the hub enters RUN or LIMP. -/
  | trimEnd (codes : List ConvCodes)
  /-- LIMP_RETURN_TO_RUN (R42): At the first frame boundary after the last LIMP cause ends, the hub returns to RUN. -/
  | limpReturnToRun
  /-- DEADLINE_MISS (R37): A deadline monitor finds an unfinished per-tick step and treats it as a hardware fault. -/
  | deadlineMiss (miss : Deadline)
  /-- STEWARD_WATCHDOG_EXPIRY (R14): The steward misses its 20 ms watchdog kick and is restarted; sessions end and the servos hold over. -/
  | stewardWatchdogExpiry
  /-- STEWARD_RESUME (R14): The restarted steward resumes service within 50 ms and interrupted updates resume at chunk level. -/
  | stewardResume
  /-- ECC_CORRECTABLE_ERROR (R7): A correctable ECC error is corrected and written back, and the error counter advances. -/
  | eccCorrectableError (mem : Nat) (addr : Word)
  /-- AVS_ADJUST (R21): From the critical-path monitors, AVS steps a core rail by 5 mV: upward at once, downward at most once per frame. -/
  | avsAdjust (core : CoreId) (up : Bool)
  /-- AVS_MARGIN_LOW (R22): A core lacks margin at 0.90 V; the hub logs it and, if the core is active, plans a swap. -/
  | avsMarginLow (core : CoreId)
  /-- AVS_PMBUS_FAIL (R443): A core regulator fails to acknowledge or fails PEC three times, and its core goes out of service. -/
  | avsPmbusFail (core : CoreId) (status : BitVec 16)
  /-- DRAM_REFRESH_CHANGE (R219): The DRAM stack temperature crosses a threshold and the refresh interval changes. -/
  | dramRefreshChange (temp : Int)
  /-- DRAM_ROW_REPAIR (R219): A DRAM row reaches 16 correctable errors in 6 h and is replaced by post-package repair. -/
  | dramRowRepair (groupFull : Bool)
  /-- SLICE_CONVERSION (R91): At the start of each tick a multiple of 2^k, each slice converts its input. -/
  | sliceConversion (codes : List (BitVec 18))
  /-- SAMPLE_COLLECT (R9): The sample collector writes the 500-byte tick record to the safety net and RAW, normalises and delivers samples. -/
  | sampleCollect
  /-- BTU_EVALUATE (R112): Each enabled backup trip unit compares the samples of the previous tick against its limits. -/
  | btuEvaluate
  /-- BTU_AUTO_PERMIT (R113): A non-latching unit returns to permit after 64 consecutive counted ticks. -/
  | btuAutoPermit (p : Nat)
  /-- CORE_TICK_PROCESS (R35): The active core runs the filter chains, trigger conditions, ILK vote and record builder for an input tick. -/
  | coreTickProcess
  /-- FRAME_STATUS (R207): At each frame boundary REC_STATUS is placed on every live stream. -/
  | frameStatus (tj : BitVec 16) (power : BitVec 16)
  /-- COEF_SET_ACTIVATION (R376): At a frame boundary a new coefficient set comes into force and REC_COEF announces it. -/
  | coefSetActivation
  /-- COEF_REPEAT (R208): Every 120,000,000 ticks the set in force is repeated in FULL form. -/
  | coefRepeat
  /-- REC_TIME_SECOND_MARK (R76): At each tick that is a multiple of 2,000,000, REC_TIME with reason 7 is emitted. -/
  | recTimeSecondMark
  /-- PTP_MEASUREMENT (R64): A PTP exchange completes, and the offset and mean path delay are computed and fed to the step detector and servo. -/
  | ptpMeasurement (d : Nat) (t1 : Int) (t2 : Int) (t3 : Int) (t4 : Int) (own : Option Int × Bool)
  /-- ASYM_EST_COMPLETE (R78): After 64 measurements ASYM_EST is valid and may be applied automatically. -/
  | asymEstComplete (d : Nat)
  /-- SOLO_HOLD_EXPIRY (R78): After SOLO_HOLD seconds with SOLO ACCEPT the step is accepted as a time change. -/
  | soloHoldExpiry (d : Nat)
  /-- DOMAIN_LOSS_TIMEOUT (R67): No Sync or delay response for LOSS_TMO puts the domain in HOLDOVER. -/
  | domainLossTimeout (d : Nat)
  /-- ASYM_APPLY (R79): A write of TIM_TDd_CTRL.ASYM_APPLY adds the estimate to the asymmetry and returns the domain to the servo. -/
  | asymApply (d : Nat)
  /-- STEP_ACCEPT (R79): A write of STEP_ACCEPT clears ASYM_STEP and returns the domain to the servo without changing the asymmetry. -/
  | stepAccept (d : Nat)
  /-- AT_SOURCE_CHANGE (R73): At the frame boundary after the decision, AT follows a new domain, starts a slew and emits REC_TIME. -/
  | atSourceChange
  /-- AT_REVERT (R75): The preferred domain has been qualified for TIM_REVERT.HOLD seconds and AT returns to it. -/
  | atRevert
  /-- SLEW_END (R70): The residual reaches zero, the slew ends and REC_TIME is emitted. -/
  | slewEnd
  /-- FRC_SOURCE_CHANGE (R66): The FRC frequency source changes phase-continuously as ESMC quality levels change. -/
  | frcSourceChange (qlA : Option (BitVec 4)) (qlB : Option (BitVec 4))
  /-- SYNCE_LOSS (R66): The recovered clock is lost and the FRC falls back to the next source within one frame. -/
  | synceLoss (port : Nat) (lastQl : BitVec 4)
  /-- MCLK_MARKER (R80): A DIV-th MCLK_IN edge is timestamped and the TD2 tracking loop updated. -/
  | mclkMarker (ts : Nat)
  /-- MCLK_LOSS (R80): No good marker for 4 marker periods sets LOSS and holds TD2's rate. -/
  | mclkLoss
  /-- PPS_IN_EDGE (R85): A PPS_IN rising edge is timestamped into TIM_PPS_IN0-2. -/
  | ppsInEdge (back : Nat)
  /-- TD_OFFSET_WRITE (R58): A write of TIM_TDd_OFS2 sets the view's value, refused for TD0 and TD1 unless OFF. -/
  | tdOffsetWrite (d : Nat) (ts : BitVec 96)
  /-- TD3_RATE_WRITE (R81): A write of TIM_TD3_RATE_HI changes TD3's rate. -/
  | td3RateWrite (rate : BitVec 40)
  /-- SNAP_LATCH (R88): TIM_SNAP_CTRL.LATCH latches FRC, AT and TD0-TD3 from one FRC value. -/
  | snapLatch
  /-- TCMP_ARM (R82): A TCMP unit is armed with its target and period, or refused with ERR_LATE. -/
  | tcmpArm (u : Nat)
  /-- TCMP_DISARM (R82): A TCMP unit is disarmed. -/
  | tcmpDisarm (u : Nat)
  /-- TCMP_FIRE (R82): A TCMP unit reaches its target tick and performs its action. -/
  | tcmpFire (u : Nat)
  /-- TOUT_START (R84): TIM_TOUTt_CTRL.START starts a timing output at the next tick. -/
  | toutStart (t : Nat)
  /-- TOUT_STOP (R84): TIM_TOUTt_CTRL.STOP stops a timing output at the next tick. -/
  | toutStop (t : Nat)
  /-- SLICE_ABRUPT_FAILURE (R108): A conversion misses its deadline; the spare is taken and SLICE_LOST covers 3 ticks. -/
  | sliceAbruptFailure (slice : Nat)
  /-- SLICE_SUBSTITUTION (R108): From tick n+3 the spare feeds the channel with SUB set. -/
  | sliceSubstitution (bank : Nat)
  /-- SLICE_GRADUAL_FAILURE (R109): A gradual slice failure is detected and substitution is planned for the next frame boundary. -/
  | sliceGradualFailure (bank : Nat) (input : Nat)
  /-- GRADUAL_SUBSTITUTION (R109): At the frame boundary the channel switches to the spare, or loses its converter. -/
  | gradualSubstitution (bank : Nat)
  /-- SPARE_FAIL (R110): A spare slice fails; the bank has no spare and the hub enters LIMP. -/
  | spareFail (bank : Nat)
  /-- SPARE_MAN_PARK (R111): A write of AFF_BANKb_CTRL.SPARE_MAN parks the spare on MAN_INPUT and pauses rolling trim. -/
  | spareManPark (bank : Nat) (value : Word)
  /-- ILK_REARM (R118): A re-arm of an ILK pin succeeds or is refused at its tick. -/
  | ilkRearm (pins : BitVec 16)
  /-- ILK_READBACK_FAIL (R119): An ILK pin reads back wrong in 2 consecutive ticks and is taken out. -/
  | ilkReadbackFail (pin : Nat)
  /-- CHANNEL_ENABLE (R186): A write of CH_AFE_CTRL.EN = 1 is budget-checked and becomes pending. -/
  | channelEnable (ch : Nat)
  /-- CHANNEL_DISABLE (R186): A write of CH_AFE_CTRL.EN = 0 cancels a pending enable or schedules the disable. -/
  | channelDisable (ch : Nat)
  /-- CHANNEL_ENABLE_EFFECT (R186): At the frame boundary an enable takes effect and the chain restarts. -/
  | channelEnableEffect (ch : Nat)
  /-- CHANNEL_DISABLE_EFFECT (R213): At the frame boundary a disable takes effect and an open CHANNEL_OFF gap is emitted. -/
  | channelDisableEffect (ch : Nat)
  /-- GROUP_ENABLE (R146): A slow group is enabled and its first scan start is fixed under START_SRC. -/
  | groupEnable (g : Nat)
  /-- SCAN_START (R145): At a multiple of S a slow group's scan begins, or the start is skipped as an overrun. -/
  | scanStart (g : Nat)
  /-- SLOW_SLOT (R128): A slot runs break, discharge, check-before, settle, convert and check-after for one input. -/
  | slowSlot (g : Nat) (code : BitVec 24) (before : Int × Int) (after : Int × Int)
  /-- SLOW_SAMPLE_RELEASE (R130): A slow sample is released with its slot record and then normalised, linearised and passed through the scan median. -/
  | slowSampleRelease (g : Nat)
  /-- SLOW_CHANNEL_ENABLE (R148): A write of CH_SIN_CFG.EN = 1 takes effect from the next scan of the group. -/
  | slowChannelEnable (ch : Nat)
  /-- SLOW_CHANNEL_DISABLE (R148): A write of CH_SIN_CFG.EN = 0 takes effect from the next scan start. -/
  | slowChannelDisable (ch : Nat)
  /-- EXC_FAULT (R136): An excitation source goes into fault and samples that use it carry OPEN. -/
  | excFault (g : Nat) (source : Nat)
  /-- EXC_FAULT_END (R136): An excitation fault clears by itself and EV_EXC_FAULT end is logged. -/
  | excFaultEnd (g : Nat) (source : Nat)
  /-- CONVERTER_FAIL (R151): A slow converter fails; the slot gives SLICE_LOST and a spare is assigned or the group is lost. -/
  | converterFail (conv : Nat)
  /-- CONVERTER_TAKEOVER (R151): The spare converter takes over the group from the break of the next slot. -/
  | converterTakeover (g : Nat)
  /-- ROM_CHECK (R156): An identity slot runs a ROM check, detecting a new, absent or unknown sensor. -/
  | romCheck (ch : Nat) (found : RomResult)
  /-- TEMPLATE_READ (R164): Identity slots read a sensor's template pages after a new identity is found. -/
  | templateRead (ch : Nat) (page : List Byte) (crcOk : Bool)
  /-- SID_NO_IDLE (R156): A due ROM check has waited 30 s for idle time and NO_IDLE is set. -/
  | sidNoIdle (ch : Nat)
  /-- LIFE_WRITEBACK (R163): Every 6 h the counters are written back to the lower-sequence copy in sensor memory. -/
  | lifeWriteback (ch : Nat) (ok : Bool)
  /-- SID_WB_NOW (R169): SID_CTRL.WB_NOW writes back every input at the next idle windows. -/
  | sidWbNow
  /-- FLT_SYNC_ARM (R182): FLT_SYNC_CTRL.ARM arms the command SYNC at FLT_SYNC_TICK, or refuses it as late. -/
  | fltSyncArm
  /-- FLT_SYNC_DISARM (R182): FLT_SYNC_CTRL.DISARM disarms the command SYNC. -/
  | fltSyncDisarm
  /-- FILTER_SYNC (R182): A SYNC reaches its tick and restarts the chains of the channels that accept it. -/
  | filterSync (source : Nat)
  /-- TRG_IN_EDGE (R226): An edge run on TRG_IN is timestamped and raises EXT conditions. -/
  | trgInEdge (input : Nat) (rising : Bool) (back : Nat)
  /-- TRG_SOURCE_ARM (R229): A trigger source is armed at the next tick or at a named AT tick. -/
  | trgSourceArm (q : Nat) (tick : Nat)
  /-- TRG_SOURCE_DISARM (R229): A trigger source is disarmed at the next tick or at a named AT tick. -/
  | trgSourceDisarm (q : Nat) (tick : Nat)
  /-- TRG_CONDITION_WRITE (R244): A write to a condition's configuration is refused or clears its history from the next tick. -/
  | trgConditionWrite (c : Nat) (reg : Nat) (value : Word)
  /-- TRIGGER_AUTO_FIRE (R231): A source armed for TRG_AUTO without firing forces a firing with AUTO. -/
  | triggerAutoFire (q : Nat)
  /-- HELD_TRIGGER_EFFECT (R226): An NSP trigger held with a future stamp takes effect at s + 2. -/
  | heldTriggerEffect
  /-- ARM_ANY_REARM (R241): TRG_REARM ticks after the first firing, the ringmaster re-arms the BUS_OUT sources. -/
  | armAnyRearm
  /-- WINDOW_CLOSE (R237): A window's last tick cut has been written, the window closes and becomes ready if START is AUTO. -/
  | windowClose (d : Nat)
  /-- WINDOW_READ (R237): HST_WINd_CTRL.READ makes a START REQUEST window ready. -/
  | windowRead (d : Nat)
  /-- WINDOW_READOUT (R238): A ready window is read out to its stream in the order of R215, or queues its FORM 2 job. -/
  | windowReadout (d : Nat)
  /-- WINDOW_CANCEL (R239): HST_WINd_CTRL.CANCEL releases a window in any state without records. -/
  | windowCancel (d : Nat)
  /-- WINDOW_RELEASE (R239): After its last record reaches STREAM, the window, its pins and its descriptor are released. -/
  | windowRelease (d : Nat)
  /-- CMP_JOB_START (R263): CMP_JOBj_CTRL.START queues a job, or refuses it, or fails it with ERR_RANGE. -/
  | cmpJobStart (j : Nat)
  /-- CMP_JOB_ABORT (R267): CMP_JOBj_CTRL.ABORT ends a queued or running job as FAILED with ERR_ABORTED. -/
  | cmpJobAbort (j : Nat)
  /-- CMP_JOB_RUN (R266): A queued job starts on a free encoder or the decoder once it can start. -/
  | cmpJobRun (j : Nat)
  /-- CMP_JOB_END (R267): A job completes DONE and commits its output, or fails at its first error. -/
  | cmpJobEnd (j : Nat)
  /-- CMP_PARITY_ERROR (R267): A datapath parity error fails the running job with ERR_PARITY. -/
  | cmpParityError (j : Nat)
  /-- DATAGRAM_CLOSE (R279): A live datagram closes when full or at the end of tick 250e+1. -/
  | datagramClose (m : Nat)
  /-- DATAGRAM_SEND (R288): A port sends the next eligible datagram by class once its bucket holds the tokens. -/
  | datagramSend (port : Nat)
  /-- OVERWRITE_REPORT (R283): At the first datagram boundary after the epoch, the release point moves and REC_GAP OVERWRITE is placed. -/
  | overwriteReport (m : Nat)
  /-- LINK_UP (R301): A port achieves block lock and its link comes up. -/
  | linkUp (port : Nat) (rate10 : Bool) (gearTx : Nat) (gearRx : Nat)
  /-- PORT_LOSS (R290): A port is lost and its streams move to the other port with recent datagrams re-sent. -/
  | portLoss (port : Nat) (cause : Nat)
  /-- LINK_LOOPBACK_TEST (R273): After 10 s of link down, a 1 ms PCS loopback decides far-end fault or hub-side failure. -/
  | linkLoopbackTest (port : Nat) (pass : Bool)
  /-- LINK_RETRY (R273): Every 2 s the hub retries link-up on a port with an absent far end. -/
  | linkRetry (port : Nat)
  /-- ICMP_ECHO_REQUEST (R270): An ICMP or ICMPv6 echo request is answered within the 100-per-second limit. -/
  | icmpEchoRequest (port : Nat) (v6 : Bool) (src : Nat) (echo : List Word)
  /-- READ (R292): A management READ returns up to 256 register words. -/
  | read (r : Req)
  /-- WRITE (R293): A management WRITE stores values until the first refusal, or schedules a timed write. -/
  | write (r : Req)
  /-- TIMED_WRITE_EFFECT (R293): A held timed write takes effect at its AT tick. -/
  | timedWriteEffect
  /-- BLOCK_READ (R294): A BLOCK_READ returns bytes from RAW, STREAM, AUX, JOB or TEDS within the length limit. -/
  | blockRead (r : Req)
  /-- AUTH_CHALLENGE (R296): An AUTH_CHALLENGE opens a session and returns the hub's nonce. -/
  | authChallenge (r : Req)
  /-- AUTH_RESPONSE (R296): An AUTH_RESPONSE is verified and the session key formed, or ERR_AUTH returned. -/
  | authResponse (r : Req)
  /-- SESSION_TIMEOUT (R298): A session ends after 60 s without a privileged request. -/
  | sessionTimeout (id : Word)
  /-- AUTH_LOCKOUT_END (R298): A source's 60 s BUSY lockout after 5 ERR_AUTH ends. -/
  | authLockoutEnd (svc : Bool) (src : Nat)
  /-- TRIGGER (R295): An NSP TRIGGER raises the NSP condition for its identifier, deduplicated within 1 s. -/
  | trigger (r : Req)
  /-- SYNC (R295): An NSP SYNC schedules a filter SYNC at FIRST_TICK, or is refused as late. -/
  | sync (r : Req)
  /-- NACK (R285): A NACK queues up to 64 retransmission ranges and lists ranges already gone. -/
  | nack (r : Req)
  /-- ACK (R282): An ACK moves a stream's release point cumulatively. -/
  | ack (r : Req)
  /-- UNKNOWN_REQUEST (R291): A management request of unknown TYPE receives ERR_UNKNOWN. -/
  | unknownRequest (type : BitVec 8) (r : Req)
  /-- HMAC_KEY_REVOKE (R299): A privileged write of NSP_KEY.REVOKE burns revoke bits of HMAC key slots. -/
  | hmacKeyRevoke (mask : BitVec 4)
  /-- SVC_STATUS (R300): The service-port STATUS command returns the state and response length. -/
  | svcStatus
  /-- SVC_REQUEST (R300): The service-port REQUEST command carries one request, executed at STOP. -/
  | svcRequest (bytes : List Byte)
  /-- SVC_RESPONSE (R300): The service-port RESPONSE command reads back the response bytes. -/
  | svcResponse (read : Bool × Nat)
  /-- SVC_CLEAR (R300): The service-port CLEAR command discards the response and returns to IDLE. -/
  | svcClear
  /-- STACK_LINK_TRAINING (R305): A stack link completes training, and the neighbours' positions and TROUPE_IDs are compared. -/
  | stackLinkTraining (port : Nat) (lanes : BitVec 5) (neigh : BitVec 4 × BitVec 12) (neighId : BitVec 16)
  /-- STACK_LANE_SPARE (R306): A lane fails training or its eye stays low for 1 s and its traffic moves to the spare lane. -/
  | stackLaneSpare (port : Nat) (lane : Nat)
  /-- STACK_PACKET_RX (R308): A stack packet arrives, is forwarded or replayed on CRC failure. -/
  | stackPacketRx (port : Nat) (words : List Word) (check : PacketCheck)
  /-- FRAME_PACKET (R312): A FRAME CTRL packet gives the next frame's tick and AT_SRC and is forwarded. -/
  | framePacket (words : List Word)
  /-- RTT_PACKET (R310): An RTT CTRL packet gives the round trip from which the hop delay is computed. -/
  | rttPacket (rt : Bool × Nat)
  /-- HOP_TAP_STEP (R310): Once per frame the clock-bus tap moves one 10 ps step toward D_p. -/
  | hopTapStep
  /-- BUS_INWARD_FRAME (R315): An inward trigger-bus frame merges the earliest queued stamp across the troupe. -/
  | busInwardFrame (stamp : Option Nat) (lines : BitVec 8)
  /-- BUS_OUTWARD_FRAME (R316): Every hub acts on the outward frame from the next tick: BUS events, ARM and SYNC. -/
  | busOutwardFrame (stamp : Option Nat) (lines : BitVec 8) (ctrl : Nat) (when : Nat)
  /-- CLOCK_BUS_LOSS (R326): No cycle-0 marker for 4 ticks; the member runs alone or the deputy takes over. -/
  | clockBusLoss
  /-- STK_RESUME (R326): STK_CMD.RESUME asks the deputy to hand back. -/
  | stkResume
  /-- DEPUTY_HANDBACK (R326): At a frame boundary with the ringmaster's AT within TIM_JOIN_MAX, the deputy hands back and rejoins. -/
  | deputyHandback
  /-- POOL_LOST (R320): A pooled write stays 64 ticks in the pool buffer; the pool is lost and the ring continues in own slots. -/
  | poolLost
  /-- MERGE_RECORDS_RX (R323): The ringmaster receives a member's RECORDS packets for an epoch and merges them. -/
  | mergeRecordsRx (pos : Nat) (epoch : Nat) (recs : List (Nat × Nat × List Word) × Bool)
  /-- MERGE_ACK_RX (R323): A member receives MERGE_ACK and releases that epoch's records. -/
  | mergeAckRx (epoch : Nat)
  /-- MERGE_DROP (R324): A position has not delivered 4,000 ticks after the epoch and is dropped to FORWARD. -/
  | mergeDrop (pos : Nat)
  /-- FORWARD_DATAGRAM (R323): The ringmaster sends a member's DATAGRAM packet out unchanged. -/
  | forwardDatagram (pos : Nat) (live : Bool) (again : Bool) (d : Fwd)
  /-- STACK_MGMT_PACKET (R323): A member receives an ACK, NACK or management datagram passed as an MGMT packet. -/
  | stackMgmtPacket (type : BitVec 8) (r : Req)
  /-- CREDIT_GRANT (R325): The ringmaster grants 64 KiB readout credits to one position at a time. -/
  | creditGrant
  /-- EPOCH_COPY (R335): At each epoch boundary the active core snapshots its state into both epoch buffers. -/
  | epochCopy
  /-- EPOCH_COMMIT (R337): The copy ends with its commit marker and becomes the newest committed epoch. -/
  | epochCommit
  /-- CORE_FAILURE_DETECT (R339): The weathervane detects failure of the active core, fences it and the standby starts catch-up. -/
  | coreFailureDetect (cause : CoreCause)
  /-- CATCHUP_COMPLETE (R339): The replaying core catches up in tick E and becomes ACTIVE; the bump ends. -/
  | catchupComplete
  /-- STANDBY_FAULT (R334): A cause of R333 in a non-active core sends it to BIST without a switch-over. -/
  | standbyFault (core : CoreId) (cause : CoreCause)
  /-- BIST_COMPLETE (R352): A core finishes BIST and becomes PROVING, takes the active role, or is RETIRED. -/
  | bistComplete (core : CoreId) (coverage : Option Nat)
  /-- PROVING_COMPLETE (R352): A PROVING core stays healthy for RED_REVERT_HOLDOFF and becomes STANDBY. -/
  | provingComplete (core : CoreId)
  /-- CORE_REVERT (R352): The primary core with REVERT_EN takes back the active role by a planned swap. -/
  | coreRevert
  /-- PLANNED_SWAP (R350): At an epoch boundary the active core becomes SHADOW and the standby replays and takes over. -/
  | plannedSwap
  /-- DRILL_DUE (R351): A scheduled drill becomes due after PERIOD hours. -/
  | drillDue
  /-- DRILL_END (R350): The new core has been ACTIVE 250 ticks and committed an epoch; the SHADOW core becomes STANDBY. -/
  | drillEnd
  /-- RED_SWAP (R350): A privileged RED_CMD.SWAP requests a planned swap at the next epoch boundary. -/
  | redSwap
  /-- RED_RESTART (R355): A privileged RED_CMD.RESTART sends the STANDBY or PROVING core to BIST. -/
  | redRestart
  /-- WV_LANE_OUT (R348): A weathervane lane disagrees in 4 of 16 ticks or fails parity and is taken out. -/
  | wvLaneOut (lane : Nat) (cause : Nat)
  /-- WEATHERVANE_MAJORITY_LOSS (R349): The weathervane loses its majority; cores halt and the hub enters HOLD. -/
  | weathervaneMajorityLoss
  /-- HOLD_FREEZE (R349): RED_HOLD_POST after HOLD entry, RAW, safety net and AUX freeze and open windows close. -/
  | holdFreeze
  /-- RT_SLOT_START (R365): A rolling-trim slot starts and the spare moves onto the next input of every bank. -/
  | rtSlotStart
  /-- RT_SLOT_END (R369): The slot's estimates are solved and accepted or rejected; quality figures are updated. -/
  | rtSlotEnd
  /-- FIELD_ZERO_START (R373): CAL_FZ_CTRL.START arms a field zero at CAL_FZ_TICK, or refuses it as late. -/
  | fieldZeroStart
  /-- FIELD_ZERO_COMPLETE (R373): The 65,536-tick span ends; the field zero is applied or refused. -/
  | fieldZeroComplete
  /-- FIELD_ZERO_CLEAR (R374): CAL_FZ_CTRL.CLEAR sets a channel's field-zero part to 0 at the next frame boundary. -/
  | fieldZeroClear (ch : Nat)
  /-- LANE_EYE_SCAN (R378): Every second each SerDes lane's eye is measured without disturbing traffic. -/
  | laneEyeScan (lane : Nat) (width : Nat) (height : Nat) (ctle : Nat) (adapted : Bool)
  /-- UPDATE_BEGIN (R399): UPDATE_BEGIN checks the header, takes the update lock and resumes or restarts the download. -/
  | updateBegin (r : Req)
  /-- UPDATE_CHUNK (R401): UPDATE_CHUNK delivers data at NEXT, and completed chunks are checked and programmed. -/
  | updateChunk (r : Req)
  /-- UPDATE_END (R402): UPDATE_END aborts, reports incomplete, or starts verification of the inactive slot. -/
  | updateEnd (r : Req)
  /-- UPDATE_VERIFY_COMPLETE (R402): Verification ends; the activating boot record is written and the response sent. -/
  | updateVerifyComplete
  /-- UPDATE_LOCK_TIMEOUT (R399): 60 s without CHUNK or END from the holder releases the update lock. -/
  | updateLockTimeout
  /-- UPD_CONFIRM (R403): A privileged UPD_CMD.CONFIRM confirms the running TRIAL image and burns anti-rollback bits. -/
  | updConfirm
  /-- AUTO_CONFIRM (R403): After CONFIRM_S seconds in RUN the TRIAL image is confirmed automatically. -/
  | autoConfirm
  /-- UPD_CANCEL (R400): A privileged UPD_CMD.CANCEL cancels a pending activation. -/
  | updCancel
  /-- IMAGE_KEY_REVOKE (R391): A privileged write of UPD_KEY.REVOKE burns revoke bits of image key slots. -/
  | imageKeyRevoke (mask : BitVec 4)
  /-- NVM_SECTOR_REPAIR (R389): After RUN begins, a bad flash sector is rewritten from the good copy in class P5. -/
  | nvmSectorRepair (flash : Nat)
  /-- LOG_RECORD_TIMEOUT (R410): An open staged record closes 600 s after it opened. -/
  | logRecordTimeout
  /-- LOG_PAGE_WRITE (R414): A page of closed records is programmed to both flashes when 8 wait, after 10 s, or at the end of bracing. -/
  | logPageWrite
  /-- LOST_REPORT (R412): When staging slots come free, one EV_LOST per class with losses is staged. -/
  | lostReport
  /-- LOG_SECTOR_SPARE (R418): A log sector fails 3 times and is mapped to a spare sector. -/
  | logSectorSpare (flash : Nat) (sector : Nat)
  /-- LOG_MEDIUM_FAIL (R419): Neither flash takes log records; a tombstone is burned and the hub enters LIMP. -/
  | logMediumFail
  /-- LOG_READ (R420): LOG_READ returns records or tombstones from an area in ascending SEQ. -/
  | logRead (r : Req)
  /-- LOG_CLEAR (R421): A privileged LOG_CLEAR logs EV_LOG_CLEARED and rebuilds the fixed area. -/
  | logClear (r : Req)
  /-- SYS_SHUTDOWN (R432): A privileged SYS_CTRL.SHUTDOWN starts write-back of life counters and programming of staged records. -/
  | sysShutdown
  /-- SHUTDOWN_COMPLETE (R432): Write-backs and programming finish, or 120 s pass, and SAFE_OFF is set. -/
  | shutdownComplete
  /-- THERMAL_EVENT (R456): Tj above 105 °C for 1 s logs EV_THERMAL; above 110 °C ALERT_N is asserted. -/
  | thermalEvent (tj : Int) (sensor : Nat)
  /-- REGISTER_WRITE (R429): A write to a register with no row of its own stores its RW fields or is refused. -/
  | registerWrite (addr : Nat) (value : Word)
  /-- STACK_LINK_LOSS (R305): A stack port's link stops carrying troupe traffic, so the hub is no longer joined and funnelling above it stops. -/
  | stackLinkLoss (port : Nat)
  /-- MAC_QUEUE_PARITY_ERROR (R273): A parity error in a port's MAC queues takes that uplink out of service for life and enters LIMP. -/
  | macQueueParityError (port : Nat)
  /-- NVM_OPERATION_COMPLETE (R382): A flash erase or program finishes or fails, and the update, log, boot-record or repair work that waits on it continues, retries or declares the flash lost. -/
  | nvmOperationComplete (res : NvmEnd)
  /-- PTP_ANNOUNCE_RX (R62): An Announce message arrives on a domain's bound port and feeds the slave-only BMCA. -/
  | ptpAnnounceRx (d : Nat) (m : Announce)
  /-- PDELAY_REQ_RX (R62): A Pdelay_Req arrives in peer-to-peer mode, and the hub answers with Pdelay_Resp one-step or two-step as TIM_TDd_CTRL selects. -/
  | pdelayReqRx (d : Nat) (t2 : Nat) (t3 : Nat)
  /-- GROUP_DISABLE (R146): A write clearing AFS_GRPg_CFG.EN lets a running scan complete and starts no further scan. -/
  | groupDisable (g : Nat)
  /-- INVALID_DATAGRAM_RX (R275): A datagram on port 47318 or 47319 with a wrong MAGIC, VERSION, LENGTH or CRC, or for another hub, is discarded and counted in NSP_MGMT_CNT.DROPPED. -/
  | invalidDatagramRx (rx : Nat × RxFault)
  /-- ARP_NDP_REQUEST (R270): An ARP or NDP request for a port's address is received and answered. -/
  | arpNdpRequest (port : Nat) (v6 : Bool) (addr : BitVec 128)
  /-- TEST_PORT_INSTRUCTION (R454): An IEEE 1149.1 instruction or test-logic reset on the test port selects BYPASS, or EXTEST, INTEST or SAMPLE, which act only while PORST_N is asserted. -/
  | testPortInstruction (instr : TestInstr)
  deriving DecidableEq, Repr

end Sys2Proof
end

