-- ==== Sys2Proof/Machine/State.lean ====
section
/-! DEFINITION. State.lean: the state of the hub as plain data, its faults and refusals, and the state
after reset. Every field's comment says what it holds, its width and the rule of the spec that names it. -/
namespace Sys2Proof.Machine

/-- The six modes, by their SYS_MODE values 0 to 5 (R3). -/
inductive Mode where
  | load | dormant | trim | run | limp | hold
  deriving DecidableEq, Repr

/-- How far LOAD has come (R44, R396). -/
inductive LoadPhase where
  | idle | running | waitingLock | done | noImage
  deriving DecidableEq, Repr

/-- The role of a core (R329), by its RED_COREx_STAT values. -/
inductive Role where
  | halted | active | standby | catchup | shadow | bist | proving | retired
  deriving DecidableEq, Repr

/-- The state of TD0 or TD1 (R67), by its TIM_TDd_STAT values. -/
inductive DomState where
  | off | acquiring | locked | holdover
  deriving DecidableEq, Repr

/-- The order of records within a stream (R214): placement tick, rank, channel, first tag. -/
structure RecKey where
  place : Nat := 0
  rank : Nat := 0
  ch : Nat := 0
  first : Nat := 0
  deriving DecidableEq, Repr

/-- A command that the active core acts on, as the command journal keeps it (R342). -/
inductive CoreCmd where
  | enableFast (ch : Nat)
  | disableFast (ch : Nat)
  | srcArm (q : Nat)
  | srcDisarm (q : Nat)
  | rearm (pins : BitVec 16)
  | rearmTest (pins : BitVec 16)
  | sync (source : Nat)
  | trigger (ident : Nat) (stamp : Nat)
  | bus (lines : BitVec 8) (stamp : Nat)
  | tcmp (u : Nat) (stamp : Nat)
  | edge (input : Nat) (rising : Bool) (stamp : Nat)
  | slowRestart (ch : Nat) (enable : Bool)
  | takeover (ch : Nat)
  | regWrite (addr : Nat) (value : Word)
  deriving DecidableEq, Repr

/-- What a datagram on the wire is. -/
inductive TxKind where
  | data | readout | retransmit | response | packet | echo | ptp | nack
  deriving DecidableEq, Repr

/-- The work that waits on a flash operation (R382). -/
inductive NvmUse where
  | log | logClear | bootRecord | chunk | header | repair | life
  deriving DecidableEq, Repr


/-- A normalised fast sample: value, range code and flags (R95, R96). -/
structure FSample where
  /-- normalised value, 24 bits, signed (R95) -/
  x : Int := 0
  /-- range code, 2 bits (R96) -/
  r : Nat := 0
  /-- over-range, 1 (R95) -/
  ovr : Bool := false
  /-- supply dip, 1 (R52) -/
  dip : Bool := false
  /-- from a spare slice, 1 (R96) -/
  sub : Bool := false
  deriving DecidableEq, Repr

/-- A sample word in its parts (R196). -/
structure OSample where
  /-- VALUE, 24 bits, signed (R196) -/
  x : Int := 0
  /-- RANGE, 3 bits (R196) -/
  r : Nat := 0
  /-- UNSET, 1 (R196) -/
  unset : Bool := false
  /-- OVR, 1 (R196) -/
  ovr : Bool := false
  /-- OPEN, 1 (R196) -/
  opn : Bool := false
  /-- DIP, 1 (R196) -/
  dip : Bool := false
  /-- SUB, 1 (R196) -/
  sub : Bool := false
  deriving DecidableEq, Repr

/-- Range logic of one slice (R97). -/
structure SliceSt where
  /-- range the next sample converts in, 2 bits (R97) -/
  range : Nat := 0
  /-- down-range count, 7 bits (R97) -/
  quiet : Nat := 0
  /-- previous converted u; none makes the difference 0, 25 bits, signed (R97) -/
  uPrev : Option Int := none
  /-- the next converted sample starts from RNG_INIT, 1 (R101) -/
  reinit : Bool := true
  deriving DecidableEq, Repr

/-- Spare slice and crossbar of one bank (R90, R108, R109). -/
structure BankSt where
  /-- input the crossbar joins the spare to, 5 bits (R90) -/
  input : Option Nat := none
  /-- the spare stands in for its input, 1 (R108) -/
  standing : Bool := false
  /-- first tick the spare serves the input, 64 bits (R108) -/
  liveFrom : Nat := 0
  /-- inputs whose slice failed gradually and the boundary the change takes effect at, 5 bits + tick each (R109) -/
  gradual : List (Nat × Nat) := []
  /-- tick of the abrupt failure whose substitution is under way, 64 bits (R108) -/
  was : Nat := 0
  /-- that substitution has not begun to serve the channel, 1 (R108) -/
  pend : Bool := false
  deriving DecidableEq, Repr

/-- The raw20 words of the tick just converted (R94, R105). -/
structure ConvTick where
  /-- tick of the conversion, 64 bits (R91) -/
  tick : Nat := 0
  /-- slot content, slice 0 first, 200 x 20 bits (R105) -/
  words : List (BitVec 20) := []
  deriving DecidableEq, Repr

/-- What the sample collector delivered for one tick (R9, R35). -/
structure Delivered where
  /-- tick of the samples, 64 bits (R35) -/
  tick : Nat := 0
  /-- channels that hold a live sample, per channel (R95) -/
  samples : List (Nat × FSample) := []
  /-- channels whose slot is FAILED or that have no converter, per channel (R112) -/
  failed : List Nat := []
  deriving DecidableEq, Repr

/-- One backup trip unit (R112, R113). -/
structure BtuSt where
  /-- the backup vote is trip, 1 (R112) -/
  tripped : Bool := false
  /-- consecutive violating evaluated ticks per source, 4 x 3 bits (R112) -/
  viol : List Nat := [0, 0, 0, 0]
  /-- counted ticks toward permit, 7 bits (R113) -/
  count : Nat := 0
  /-- tick of the samples last evaluated, 64 bits (R112) -/
  evalTick : Option Nat := none
  /-- a source violated in that evaluation, 1 (R118) -/
  violNow : Bool := false
  /-- tick in which the backup vote last dropped, 64 bits (R120) -/
  tripAt : Option Nat := none
  deriving DecidableEq, Repr

/-- One substitution-journal entry (R106). -/
structure JEnt where
  /-- tick of the change, 64 bits (R106) -/
  tick : Nat := 0
  /-- channel, 9 bits (R106) -/
  ch : Nat := 0
  /-- slice that feeds it from then on; none for no converter, 8 bits (R106) -/
  slice : Option Nat := none
  deriving DecidableEq, Repr

/-- Fast front end, collector, backup trip units and interlock output stage. -/
structure FrontEnd where
  /-- range logic per slice, 200 entries (R97) -/
  slices : Tab SliceSt := []
  /-- spare and crossbar per bank, 8 entries (R90) -/
  banks : Tab BankSt := []
  /-- converted, not yet collected, oldest first, 4,000 bits a tick (R105) -/
  conv : List ConvTick := []
  /-- delivered to the core and the backup trip units, 192 samples (R10) -/
  dlv : Option Delivered := none
  /-- last normalised sample per channel, 192 samples (R122) -/
  last : Tab FSample := []
  /-- OVR samples since LOAD per channel, 192 x 16 bits (R122) -/
  ovrCnt : Tab Nat := []
  /-- substitution journal, newest first, all since LOAD; the copy below the boundary is the newest 64 (R106) -/
  journal : List JEnt := []
  /-- backup trip units, 16 entries (R112) -/
  btu : Tab BtuSt := []
  deriving DecidableEq, Repr

/-- Corrections of one fast slice (R356, R357, R208 kind 1). -/
structure SliceCoef where
  /-- O_r, 4 x 16 bits (R356) -/
  o : List Int := [0, 0, 0, 0]
  /-- G_r, 4 x 24 bits (R356) -/
  g : List Int := [0, 0, 0, 0]
  /-- skew, SUBTICK units, 16 bits (R357) -/
  mu : Int := 0
  /-- trim part of the tap, 9 bits (R357) -/
  tap : Int := 0
  /-- offset taps, 4 x 14 bits (R357) -/
  ofsTap : List Int := [0, 0, 0, 0]
  /-- gain taps, 4 x 13 bits (R357) -/
  gainTap : List Int := [0, 0, 0, 0]
  deriving DecidableEq, Repr

/-- Corrections of one slow converter (R139, R208 kind 2). -/
structure ConvCoef where
  /-- O_r, 8 x 16 bits (R139) -/
  o : List Int := [0, 0, 0, 0, 0, 0, 0, 0]
  /-- G_r, 8 x 24 bits (R139) -/
  g : List Int := [0, 0, 0, 0, 0, 0, 0, 0]
  deriving DecidableEq, Repr

/-- One change of the coefficient set that waits for its frame boundary (R376). -/
structure CoefChg where
  /-- new hardware part of a slice, one slice (R372) -/
  slice : Option (Nat × SliceCoef) := none
  /-- new corrections of a converter, one converter (R361) -/
  conv : Option (Nat × ConvCoef) := none
  /-- new polynomial slots of a channel, one channel (R144) -/
  poly : Option (Nat × List (Word × Word)) := none
  /-- new field-zero part of a channel, one channel (R374) -/
  fz : Option (Nat × Int) := none
  /-- new method, true for DIGITAL, 1 (R358) -/
  method : Option Bool := none
  deriving DecidableEq, Repr

/-- A coefficient set (R208). -/
structure CoefSet where
  /-- set serial, 32 (R208) -/
  serial : Nat := 0
  /-- 0 image, 1 full trim, 2 rolling trim, 3 sensor or polynomial, 2 (R208) -/
  origin : Nat := 0
  /-- method in force: DIGITAL, 1 (R358) -/
  digital : Bool := true
  /-- kind 1, 200 entries (R208) -/
  slices : Tab SliceCoef := []
  /-- kind 2, 18 entries (R208) -/
  convs : Tab ConvCoef := []
  /-- kind 3: IDX and coefficient words, 256 channels x 16 slots (R208) -/
  polys : Tab (List (Word × Word)) := []
  /-- field-zero parts, 192 x 24 bits (R359) -/
  fz : Tab Int := []
  deriving DecidableEq, Repr

/-- Exact sums of rolling trim over the evaluated pairs of one range (R368). -/
structure RtSum where
  /-- evaluated pairs, 21 bits (R368) -/
  n : Nat := 0
  /-- sum x, exact (R368) -/
  sx : Int := 0
  /-- sum d, exact (R368) -/
  sd : Int := 0
  /-- sum 2v, exact (R368) -/
  sv2 : Int := 0
  /-- sum x*x, exact (R368) -/
  sxx : Int := 0
  /-- sum 4v*v, exact (R368) -/
  svv4 : Int := 0
  /-- sum 2x*v, exact (R368) -/
  sxv2 : Int := 0
  /-- sum x*d, exact (R368) -/
  sxd : Int := 0
  /-- sum 2v*d, exact (R368) -/
  svd2 : Int := 0
  deriving DecidableEq, Repr

/-- A run of identical codes of the slice that rolling trim visits, and the sums of the codes of the spare in it (R107). -/
structure StuckRun where
  /-- raw20 word of the run, 20 bits (R107) -/
  word : BitVec 20 := 0
  /-- conversions in the run, 21 bits (R107) -/
  n : Nat := 0
  /-- sum of the codes of the spare, exact (R107) -/
  sum : Int := 0
  /-- sum of their squares, exact (R107) -/
  sq : Nat := 0
  deriving DecidableEq, Repr

/-- Rolling trim of one bank (R365 to R371). -/
structure RtBank where
  /-- input visited by the slot, 5 bits (R365) -/
  input : Option Nat := none
  /-- first tick of the slot, 64 bits (R365) -/
  start : Nat := 0
  /-- pairs of the slot, 21 bits (R369) -/
  pairs : Nat := 0
  /-- outliers of the slot, 21 bits (R369) -/
  outliers : Nat := 0
  /-- pair of the previous tick, 2 samples (R367) -/
  p1 : Option (FSample × FSample) := none
  /-- pair of the tick before it, 2 samples (R367) -/
  p2 : Option (FSample × FSample) := none
  /-- exact sums per range, 4 ranges (R368) -/
  sums : Tab RtSum := []
  /-- last result of each input reached a limit, 24 inputs (R371) -/
  plaus : Tab Bool := []
  /-- inputs of consecutive slots at a limit, newest first, 4 inputs (R371) -/
  limitRun : List Nat := []
  /-- run of identical codes of the visited slice, one run (R107) -/
  stuck : StuckRun := {}
  deriving DecidableEq, Repr

/-- A field zero that is armed or measuring (R373). -/
structure FzRun where
  /-- channel, 8 bits (R373) -/
  ch : Nat := 0
  /-- first tick of the span, 64 bits (R373) -/
  start : Nat := 0
  /-- asserted input value, 24 bits (R373) -/
  z : Int := 0
  /-- sum of the samples, exact (R373) -/
  sum : Int := 0
  /-- samples summed, 17 bits (R373) -/
  n : Nat := 0
  /-- range of the first sample, 2 (R373) -/
  range : Option Nat := none
  /-- first refusal cause met, 4 (R373) -/
  cause : Nat := 0
  deriving DecidableEq, Repr

/-- Sums of the full trim in progress (R361), exact. -/
structure TrimSums where
  /-- codes of the offset step by slice × 4 + range: how often each came, code + 131,072 the index, 800 histograms (R361) -/
  hist : Tab (Tab Nat) := []
  /-- values at the reference by slice × 8 + range × 2 + polarity: sum and number, 1,600 sums (R361) -/
  refs : Tab (Int × Nat) := []
  /-- skew step by slice: numerator of tau, 200 sums (R361) -/
  skew : Tab Int := []
  /-- skew step: denominator of tau, exact (R361) -/
  den : Int := 0
  /-- values of the tick before, 200 values (R361) -/
  last : List (Nat × Int) := []
  /-- values of the tick before that, 200 values (R361) -/
  before : List (Nat × Int) := []
  deriving DecidableEq, Repr

/-- Coefficient sets, trim and field zero. -/
structure Calib where
  /-- coefficient set in force, one set (R208) -/
  cur : CoefSet := {}
  /-- changes that wait: frame boundary, origin and change, changes (R376) -/
  due : List (Nat × Nat × CoefChg) := []
  /-- boundary and set, newest first, sets in force at any tick still in RAW (R218) -/
  hist : List (Nat × CoefSet) := []
  /-- the set formed at LOAD has been announced, 1 (R208) -/
  announced : Bool := false
  /-- first frame boundary S of the full trim in progress, 64 bits (R360) -/
  trimStart : Option Nat := none
  /-- rolling trim per bank, 8 banks (R365) -/
  rt : Tab RtBank := []
  /-- field zero in progress, one (R373) -/
  fzRun : Option FzRun := none
  /-- what the full trim in progress has summed, sums (R361) -/
  trim : TrimSums := {}
  /-- rolling trim has met the range of the taps since the last full trim, 1 (R369) -/
  tapOver : Bool := false
  deriving DecidableEq, Repr

/-- Filter chain of one fast channel: everything a core carries from tick to tick (R335). -/
structure FastCh where
  /-- the enable is in effect, 1 (R186) -/
  on : Bool := false
  /-- tick of the last restart, 64 bits (R182) -/
  ts : Nat := 0
  /-- no output since the restart, 1 (R188) -/
  fresh : Bool := true
  /-- rank window, newest first, 11 x 24 bits (R172) -/
  win : List Int := []
  /-- skew history, newest first, 8 x 24 bits (R173) -/
  sk : List Int := []
  /-- CIC integrators, 5 x 72 bits (R174) -/
  integ : List Int := []
  /-- CIC combs, 5 x 72 bits (R174) -/
  comb : List Int := []
  /-- FIR delay line, newest first, 64 x 28 bits (R175) -/
  fir : List Int := []
  /-- notch states s1, s2, 4 x 2 x 56 bits (R176) -/
  notch : List (Int × Int) := []
  /-- input ticks with their flags, newest first, the support of an output (R181) -/
  sup : List (Nat × FSample) := []
  /-- UNSET outputs still due, 16 bits (R184) -/
  left : Nat := 0
  /-- reducer reference, 32 bits (R188) -/
  ref : Option OSample := none
  /-- outputs suppressed since the last record, 32 bits (R188) -/
  silent : Nat := 0
  /-- input ticks at which the skew corrector clipped, newest first, ticks of the support (R181) -/
  clips : List Nat := []
  /-- first tick without an input sample while one is missing, 64 bits (R183) -/
  gapFrom : Option Nat := none
  deriving DecidableEq, Repr

/-- A released slow sample (R130, R140). -/
structure SlowS where
  /-- release tick, 64 bits (R130) -/
  tick : Nat := 0
  /-- middle of the convert step, 64 bits (R130) -/
  tag : Nat := 0
  /-- sample word, 32 bits (R140) -/
  w : OSample := {}
  /-- no conversion took place, 1 (R134) -/
  noConv : Bool := false
  /-- engineering value, binary32, 32 bits (R141) -/
  eng : Word := 0
  deriving DecidableEq, Repr

/-- Slow chain of one channel (R189, R190). -/
structure SlowCh where
  /-- samples since the restart, newest first, 5 samples (R189) -/
  hist : List SlowS := []
  /-- samples since the restart, 32 bits (R189) -/
  count : Nat := 0
  /-- no output since the restart, 1 (R188) -/
  fresh : Bool := true
  /-- reducer reference, 32 bits (R190) -/
  ref : Option OSample := none
  /-- outputs suppressed since the last record, 32 bits (R190) -/
  silent : Nat := 0
  /-- latest released samples as a temperature input, newest first, 2 samples (R143) -/
  tHist : List SlowS := []
  deriving DecidableEq, Repr

/-- An output of a fast or slow chain that waits for the take-effect tick of its evaluations (R226). -/
structure Eval where
  /-- channel, 9 bits (R225) -/
  ch : Nat := 0
  /-- stamp, 64 bits (R226) -/
  stamp : Nat := 0
  /-- take-effect tick, 64 bits (R226) -/
  take : Nat := 0
  /-- sample word, 32 bits (R225) -/
  w : OSample := {}
  deriving DecidableEq, Repr

/-- One trigger condition (R227, R461). -/
structure CondSt where
  /-- state of a state condition, 1 (R227) -/
  state : Bool := false
  /-- stamp of the event true now, 64 bits (R227) -/
  evStamp : Option Nat := none
  /-- stamp at which the condition last became true, 64 bits (R228) -/
  stamp : Nat := 0
  /-- changed in the tick being evaluated, 1 (R228) -/
  changed : Bool := false
  /-- previous evaluated sample, 32 bits (R461) -/
  prev : Option OSample := none
  /-- values, and whether usable, newest first, 255 evaluations (R461) -/
  hist : List (Int × Bool) := []
  /-- stamps of the changes of state, newest first, with the state they brought, changes since the clear (R227) -/
  chg : List (Nat × Bool) := []
  /-- stamps of its events, newest first, events since the clear (R227) -/
  evs : List Nat := []
  deriving DecidableEq, Repr

/-- One trigger source (R228 to R231). -/
structure SrcSt where
  /-- combination in the previous tick, 1 (R228) -/
  comb : Bool := false
  /-- armed, 1 (R229) -/
  armed : Bool := false
  /-- tick of the previous firing, 64 bits (R229) -/
  lastFire : Option Nat := none
  /-- start of the AUTO count, 64 bits (R231) -/
  autoFrom : Nat := 0
  deriving DecidableEq, Repr

/-- A processed REC_FAST being filled (R200). -/
structure OpenFast where
  /-- channel, 9 bits (R200) -/
  ch : Nat := 0
  /-- epoch of the releases, 64 bits (R200) -/
  epoch : Nat := 0
  /-- TICK64 of the first sample, 64 bits (R199) -/
  first : Nat := 0
  /-- SUBTICK, 16 bits (R199) -/
  subtick : Nat := 0
  /-- grid tick expected next, 64 bits (R200) -/
  nextK : Nat := 0
  /-- sample words, newest first, 250 words (R200) -/
  words : List Word := []
  deriving DecidableEq, Repr

/-- What a core carries from tick to tick, copied at each epoch (R335). -/
structure CoreState where
  /-- next input tick, 64 bits (R335) -/
  pos : Nat := 0
  /-- fast chains, 192 channels (R335) -/
  fast : Tab FastCh := []
  /-- slow chains, 256 channels (R335) -/
  slow : Tab SlowCh := []
  /-- conditions, 64 conditions (R335) -/
  conds : Tab CondSt := []
  /-- evaluations that wait, queue (R226) -/
  evals : List Eval := []
  /-- sources, 16 sources (R335) -/
  srcs : Tab SrcSt := []
  /-- core ILK votes, 1 permit, 16 (R335) -/
  votes : BitVec 16 := 0
  /-- open records of the record builder, 192 records (R335) -/
  openRecs : List OpenFast := []
  /-- tick and raw-normalised samples whose evaluations take effect next, 192 samples (R226) -/
  rawPrev : Option (Nat × List (Nat × FSample)) := none
  deriving DecidableEq, Repr

/-- One epoch buffer (R336). -/
structure EpochBuf where
  /-- sequence number, 32 bits (R336) -/
  seq : Nat := 0
  /-- boundary b, 64 bits (R336) -/
  bound : Nat := 0
  /-- coefficient set serial at b, 32 bits (R336) -/
  serial : Nat := 0
  /-- snapshot, 1,536 KiB (R336) -/
  body : CoreState := {}
  /-- body length in words, 32 (R336) -/
  len : Nat := 0
  /-- commit marker, 32 (R336) -/
  marker : Nat := 0
  /-- CRC-32C of the body is correct, 1 (R337) -/
  crcOk : Bool := true
  /-- word 5, the CRC-32C of the body, 32 (R336) -/
  crc : Nat := 0
  deriving DecidableEq, Repr

/-- A switch-over or planned swap in progress (R339, R350). -/
structure Bump where
  /-- first tick whose work is not accepted, 64 bits (R333) -/
  f : Nat := 0
  /-- tick of detection, 64 bits (R333) -/
  d : Nat := 0
  /-- epoch replayed from, 64 bits (R339) -/
  bstar : Nat := 0
  /-- a planned swap, 1 (R350) -/
  planned : Bool := false
  /-- recovery with no core in service, 1 (R347) -/
  nocore : Bool := false
  /-- input ticks below it have been accepted from the failed core, 64 bits (R341) -/
  done : Nat := 0
  deriving DecidableEq, Repr

/-- A planned swap (R350). -/
structure Drill where
  /-- epoch boundary, 64 bits (R350) -/
  bound : Nat := 0
  /-- tick the new core became ACTIVE, 64 bits (R350) -/
  since : Option Nat := none
  /-- epoch sequence at that tick, 32 bits (R350) -/
  seqAt : Nat := 0
  /-- return to the primary core, 1 (R352) -/
  revert : Bool := false
  /-- tick in which the failure of the core that was to take over was detected, 64 bits (R345) -/
  lostAt : Option Nat := none
  deriving DecidableEq, Repr

/-- Twin cores and weathervane. -/
structure Redund where
  /-- role of Core A, 3 bits (R329) -/
  roleA : Role := .bist
  /-- role of Core B, 3 bits (R329) -/
  roleB : Role := .bist
  /-- core that holds the active role, 1 bit (R330) -/
  active : Option CoreId := none
  /-- epoch RAM of Core A, 2 buffers (R335) -/
  bufA : Tab EpochBuf := []
  /-- epoch RAM of Core B, 2 buffers (R335) -/
  bufB : Tab EpochBuf := []
  /-- sequence of the copy in progress, 32 bits (R335) -/
  copy : Option Nat := none
  /-- sequence of the newest copy, 32 bits (R336) -/
  seq : Nat := 0
  /-- bump in progress, one (R339) -/
  bump : Option Bump := none
  /-- planned swap in progress, one (R350) -/
  drill : Option Drill := none
  /-- high-water mark per live stream, 16 streams (R341) -/
  marks : Tab RecKey := []
  /-- records at or below the mark are being discarded, 1 (R341) -/
  marking : Bool := false
  /-- command journal: tick and command, 1,024 entries (R342) -/
  journal : List (Nat × CoreCmd) := []
  /-- frozen core votes, 16 (R339) -/
  heldVotes : Option (BitVec 16) := none
  /-- tick in which a planned swap was requested, 64 bits (R350) -/
  swapReq : Option Nat := none
  /-- a drill is due, 1 (R351) -/
  drillReq : Bool := false
  /-- tick in which the return to the primary was requested, 64 bits (R352) -/
  revertReq : Option Nat := none
  /-- tick from which the primary may take the active role back, 64 bits (R352) -/
  revertAt : Option Nat := none
  /-- tick the drill period counts from, 64 bits (R351) -/
  drillFrom : Option Nat := none
  /-- failures of Core A, newest first, 3 ticks (R353) -/
  failsA : List Nat := []
  /-- failures of Core B, 3 ticks (R353) -/
  failsB : List Nat := []
  /-- tick Core A took its role, 64 bits (R352) -/
  sinceA : Nat := 0
  /-- tick Core B took its role, 64 bits (R352) -/
  sinceB : Nat := 0
  /-- f0, 64 bits (R346) -/
  noCoreAt : Option Nat := none
  /-- tick h, 64 bits (R349) -/
  holdAt : Option Nat := none
  /-- RAW, safety net and AUX are frozen, 1 (R349) -/
  frozen : Bool := false
  /-- cores that lacked margin and await BIST, 2 bits (R22) -/
  avsOut : List CoreId := []
  /-- the majority was lost in LOAD: HOLD begins with TRIM, 1 (R349) -/
  majLost : Bool := false
  /-- input ticks below it whose outward work is not repeated by a replay, 64 bits (R341) -/
  shown : Nat := 0
  /-- tick in which the last bump or planned swap ended, 64 bits (R49) -/
  bumpEnd : Option Nat := none
  /-- lane and tick of the disagreements of the last 16 ticks, 3 lanes x 16 ticks (R348) -/
  wvDiff : List (Nat × Nat) := []
  /-- tick records that a replay found uncorrectable in RAW too: tick and slots, ticks and slots (R345) -/
  eccTicks : List (Nat × List Nat) := []
  /-- words of REC_TRIG as the sources fired, the last 1,024 ticks: tick, source, word, ticks and sources (R341) -/
  fired : List (Nat × Nat × Word) := []
  deriving DecidableEq, Repr

/-- A time-domain view (R58). -/
structure View where
  /-- value of the view, value in 2^-64 ns (R58) -/
  val : Int := 0
  /-- r_d, 40 bits, signed (R58) -/
  rate : Int := 0
  deriving DecidableEq, Repr

/-- One measurement in the delay line (R64, R68). -/
structure Meas where
  /-- offset, 2^-17 ns (R64) -/
  e : Int := 0
  /-- mean path delay, 2^-17 ns (R64) -/
  mpd : Int := 0
  /-- instant, FRC 2^-16 ns (R68) -/
  instant : Nat := 0
  deriving DecidableEq, Repr

/-- Servo and qualification of TD0 or TD1 (R67, R68, R77, R78). -/
structure Dom where
  /-- state, 3 bits (R67) -/
  state : DomState := .off
  /-- delay line, newest first, 4 deep (R68) -/
  line : List Meas := []
  /-- mpd and e, newest first, 20 measurements, 2^-17 ns (R77) -/
  hist : List (Int × Int) := []
  /-- consecutive |e| <= LOCK_THR, 5 bits (R67) -/
  inLock : Nat := 0
  /-- consecutive |e| > LOCK_THR, 3 bits (R67) -/
  outLock : Nat := 0
  /-- measurements since they resumed in HOLDOVER, 5 bits (R67) -/
  sinceHold : Nat := 0
  /-- integral term, ns/s (R68) -/
  integ : Rat := 0
  /-- previous applied measurement, FRC (R68) -/
  lastAt : Option Nat := none
  /-- has stepped to its master, 1 (R72) -/
  stepped : Bool := false
  /-- measurements in the estimate, 7 bits (R78) -/
  estN : Nat := 0
  /-- sum of e - d, 2^-64 ns (R78) -/
  estSum : Int := 0
  /-- an estimate is being formed, 1 (R78) -/
  estOn : Bool := false
  /-- tick the SOLO wait began, 64 bits (R78) -/
  solo : Option Nat := none
  /-- tick of the last measurement, 64 bits (R67) -/
  lastMsg : Nat := 0
  /-- last offsets, newest first, 64 offsets, 2^-17 ns (R86) -/
  rms : List Int := []
  /-- tick since when qualified, 64 bits (R75) -/
  qualSince : Option Nat := none
  /-- measurements since its own path-delay step, 5 bits (R79) -/
  stepCnt : Nat := 0
  /-- consecutive cross-check misses, 5 bits (R312) -/
  xcheck : Nat := 0
  /-- tick in which the qualification last changed, 64 bits (R71) -/
  qualAt : Option Nat := none
  /-- qualified before that tick, 1 (R71) -/
  qualWas : Bool := false
  /-- held over with the other domain in disagreement: AT stays where it is, 1 (R78) -/
  apart : Bool := false
  deriving DecidableEq, Repr

/-- Announce data of a bound port (R62). -/
structure Master where
  /-- grandmasterPriority1, 8 (R62) -/
  prio1 : Nat := 0
  /-- clockClass, 8 (R62) -/
  cls : Nat := 0
  /-- clockAccuracy, 8 (R62) -/
  acc : Nat := 0
  /-- offsetScaledLogVariance, 16 (R62) -/
  var : Nat := 0
  /-- grandmasterPriority2, 8 (R62) -/
  prio2 : Nat := 0
  /-- grandmasterIdentity, 64 (R62) -/
  ident : Nat := 0
  /-- stepsRemoved, 16 (R62) -/
  steps : Nat := 0
  /-- uplink it was heard on, 1 (R62) -/
  port : Nat := 0
  deriving DecidableEq, Repr

/-- One time compare unit (R82). -/
structure Tcmp where
  /-- armed, 1 (R82) -/
  armed : Bool := false
  /-- target tick, 64 bits (R82) -/
  target : Nat := 0
  /-- repeat period in force, 32 bits (R82) -/
  period : Nat := 0
  deriving DecidableEq, Repr

/-- One timing output (R84). -/
structure Tout where
  /-- running, 1 (R84) -/
  running : Bool := false
  /-- start or stop that takes effect at a tick, 64 bits (R84) -/
  startAt : Option Nat := none
  /-- stop tick, 64 bits (R84) -/
  stopAt : Option Nat := none
  /-- active level driven, 1 (R84) -/
  level : Bool := false
  /-- tick the output began to run, 64 bits (R84) -/
  since : Option Nat := none
  deriving DecidableEq, Repr

/-- The FRC, its views, the acquisition timescale and the compare units. -/
structure Timing where
  /-- free-running counter, 80 bits (64.16), 2^-16 ns (R56) -/
  frc : Nat := 0
  /-- TD0 to TD3, 4 views (R58) -/
  views : Tab View := []
  /-- AT, 2^-64 ns (R70) -/
  atVal : Int := 0
  /-- rate of AT without the slew term, 40 bits (R70) -/
  atRate : Int := 0
  /-- AT has been set since the cold reset, 1 (R33) -/
  atSet : Bool := false
  /-- domain AT follows, 1 bit (R71) -/
  follow : Option Nat := none
  /-- slew term non-zero, 1 (R70) -/
  slewing : Bool := false
  /-- AT_SRC of the frame, 2 bits (R71) -/
  atSrc : Nat := 0
  /-- AT_SRC of earlier frames: boundary from which a value held, newest first, frames (R71) -/
  srcHist : List (Nat × Nat) := []
  /-- change of the followed domain due at the next frame boundary, decision (R73) -/
  decide : Option (Option Nat) := none
  /-- boundary of that change, 64 bits (R73) -/
  decideAt : Nat := 0
  /-- servos, TD0, TD1 (R67) -/
  doms : Tab Dom := []
  /-- selected master, TD0, TD1 (R62) -/
  masters : Tab Master := []
  /-- previous marker, FRC (R80) -/
  mLast : Option Nat := none
  /-- good markers since LOSS, 11 bits (R80) -/
  mGood : Nat := 0
  /-- last good marker, FRC (R80) -/
  mGoodAt : Nat := 0
  /-- place of the last marker in its tick, SUBTICK units, 16 bits (R80) -/
  mPhase : Nat := 0
  /-- uplinks whose recovered clock is present, with their ESMC quality level where a valid ESMC arrives, 2 ports, 4 bits (R66) -/
  rxClk : Tab (Option Nat) := []
  /-- markers, 32 bits (R87) -/
  mCount : Nat := 0
  /-- compare units, 16 units (R82) -/
  tcmp : Tab Tcmp := []
  /-- timing outputs, 4 outputs (R84) -/
  tout : Tab Tout := []
  /-- level of PPS_OUT, 1 (R85) -/
  pps : Bool := false
  /-- FRC as this LOAD began, 2^-16 ns (R409) -/
  sinceRelease : Nat := 0
  deriving DecidableEq, Repr

/-- A slot in progress (R128). -/
structure SlotRun where
  /-- input, 4 bits (R128) -/
  input : Nat := 0
  /-- first tick, 64 bits (R128) -/
  start : Nat := 0
  /-- slot length, 19 bits (R129) -/
  len : Nat := 0
  /-- first tick of the convert step, 64 bits (R130) -/
  convAt : Nat := 0
  /-- window length, 18 bits (R137) -/
  win : Nat := 0
  /-- code, 24 bits (R138) -/
  code : Int := 0
  /-- check-before failed, 1 (R132) -/
  beforeBad : Bool := false
  /-- check-after failed, 1 (R132) -/
  afterBad : Bool := false
  /-- an excitation fault overlapped, 1 (R136) -/
  exc : Bool := false
  /-- converter, 5 bits (R124) -/
  conv : Nat := 0
  /-- its converter failed in it, 1 (R151) -/
  failed : Bool := false
  /-- CH_SIN_CFG as the slot began, 32 bits (R153) -/
  cfg : Word := 0
  /-- sources that the input used as the slot began, 3 bits (R136) -/
  uses : Nat := 0
  /-- first tick of check-before, 64 bits (R135) -/
  drive : Nat := 0
  deriving DecidableEq, Repr

/-- A scan in progress (R145). -/
structure Scan where
  /-- scan start, 64 bits (R145) -/
  start : Nat := 0
  /-- inputs still to visit, 16 inputs (R145) -/
  todo : List Nat := []
  /-- first tick of the next slot, 64 bits (R145) -/
  next : Nat := 0
  /-- slot in progress, one (R128) -/
  slot : Option SlotRun := none
  deriving DecidableEq, Repr

/-- An identity slot in progress (R155). -/
structure IdRun where
  /-- channel, 9 bits (R155) -/
  ch : Nat := 0
  /-- first tick, 64 bits (R155) -/
  start : Nat := 0
  /-- transaction, 0 ROM check, 1 page read, 2 page write (R155) -/
  kind : Nat := 0
  deriving DecidableEq, Repr

/-- One slow group (R145, R146). -/
structure Grp where
  /-- scan in progress, one (R145) -/
  scan : Option Scan := none
  /-- no scan before this tick; none while none is due, 64 bits (R146) -/
  first : Option Nat := none
  /-- the first scan has begun, 1 (R146) -/
  started : Bool := false
  /-- sources in fault (0 IEXCgA, 1 IEXCgB, 2 VEXCg) and the first tick of the fault, 3 sources, 64 bits (R136) -/
  exc : Tab Nat := []
  /-- spare that takes over at the next slot, 5 bits (R151) -/
  takeover : Option Nat := none
  /-- tick in which its converter last failed, 64 bits (R151) -/
  failAt : Option Nat := none
  /-- first tick after the last scan, 64 bits (R156) -/
  idleFrom : Nat := 0
  /-- identity slot in progress, one slot (R155) -/
  idRun : Option IdRun := none
  deriving DecidableEq, Repr

/-- Enable of one slow channel (R148). -/
structure SlowEn where
  /-- in effect, 1 (R148) -/
  eff : Bool := false
  /-- write that takes effect at the next scan, 1 (R148) -/
  pend : Option Bool := none
  /-- boundary the first scan waits for, 64 bits (R144) -/
  notBefore : Nat := 0
  /-- last sample carried OPEN, 1 (R134) -/
  lastOpen : Bool := false
  /-- enabled since LOAD, 1 (R213) -/
  ever : Bool := false
  /-- its coefficients or their source have been written since EN was last set, 1 (R144) -/
  polyNew : Bool := false
  /-- a disable written before an enable that still waits: no scan that begins before this tick is affected by it, 64 bits (R148) -/
  off : Option Nat := none
  deriving DecidableEq, Repr

/-- What AUX keeps beside a slot record for the core (R130, R149, R164). -/
structure AuxSlot where
  /-- what the identity results say of its sensor: 0 nothing, 1 a new sensor whose set is not in force, 2 no valid sensor; 3 where the slot released no sample (R151), 2 bits (R164) -/
  sensor : Nat := 0
  /-- CH_SIN_CFG as the slot began, 32 bits (R153) -/
  cfg : Word := 0
  /-- middle of the convert step, 64 bits (R130) -/
  tag : Nat := 0
  deriving DecidableEq, Repr

/-- Slow front end below the boundary. -/
structure SlowFe where
  /-- groups, 16 groups (R145) -/
  grp : Tab Grp := []
  /-- enables, 256 channels (R148) -/
  en : Tab SlowEn := []
  /-- 16-byte slot records, newest first, each with what else the core needs of its slot, AUX slot records (R149) -/
  aux : List (List Word × AuxSlot) := []
  /-- tick, channel and result of every identity transaction, newest first, AUX identity results (R158) -/
  ident : List (Nat × Nat × List Byte) := []
  deriving DecidableEq, Repr

/-- Identity and life of one slow input (R161 to R166). -/
structure Sid where
  /-- ROM identity held, 64 bits (R154) -/
  rom : Option Nat := none
  /-- next template page to read, 4 bits (R164) -/
  page : Nat := 0
  /-- a template read is in progress, 1 (R164) -/
  reading : Bool := false
  /-- retries of the page, 2 bits (R166) -/
  retries : Nat := 0
  /-- template bytes read, 256 bytes (R159) -/
  tmpl : List Byte := []
  /-- valid Larwimor template, 1 (R160) -/
  valid : Bool := false
  /-- sequence of the copy in force, 32 bits (R160) -/
  copySeq : Nat := 0
  /-- checked in this LOAD, 1 (R157) -/
  checked : Bool := false
  /-- operating time, s, 32 bits (R161) -/
  time : Nat := 0
  /-- thermal cycles, 32 bits (R161) -/
  cycles : Nat := 0
  /-- charge, uA h, 32 bits (R161) -/
  charge : Nat := 0
  /-- over-range events, 32 bits (R161) -/
  ovr : Nat := 0
  /-- ticks below 1 s, 21 bits (R161) -/
  runTicks : Nat := 0
  /-- carried charge, fraction below 1 uA h, 10 uA ticks (R161) -/
  chFrac : Nat := 0
  /-- below T_LO since the last count, 1 (R161) -/
  below : Bool := false
  /-- last sample carried OVR, 1 (R161) -/
  lastOvr : Bool := false
  /-- 0 untracked, 1 in life, 2 WARN, 3 END, 2 bits (R162) -/
  life : Nat := 0
  /-- tick the next ROM check is due, 64 bits (R156) -/
  due : Nat := 0
  /-- a write-back is due, 1 (R163) -/
  wbDue : Bool := false
  /-- new identity, set not yet in force, 1 (R164) -/
  stale : Bool := false
  /-- tick from which a page whose CRC was wrong is read again, 64 bits (R166) -/
  retryFrom : Nat := 0
  deriving DecidableEq, Repr

/-- One capture window (R233 to R239). -/
structure Window where
  /-- source, 4 (R233) -/
  src : Nat := 0
  /-- stamp, 64 bits (R233) -/
  stamp : Nat := 0
  /-- cut tick T, 64 bits (R233) -/
  cut : Nat := 0
  /-- first tick requested, 64 bits (R233) -/
  reqF : Nat := 0
  /-- last tick requested, 64 bits (R233) -/
  reqL : Nat := 0
  /-- first tick cut, 64 bits (R235) -/
  first : Nat := 0
  /-- tick after the last pinned tick, 64 bits (R236) -/
  lastP : Nat := 0
  /-- channel mask, 192 (R233) -/
  mask : BitVec 192 := 0
  /-- target stream, 4 (R233) -/
  stream : Nat := 0
  /-- FORM, 2 (R233) -/
  form : Nat := 0
  /-- RATIO, 3 (R233) -/
  ratio : Nat := 0
  /-- START REQUEST, 1 (R233) -/
  request : Bool := false
  /-- ready, 1 (R237) -/
  ready : Bool := false
  /-- READ was written, 1 (R237) -/
  readReq : Bool := false
  /-- LATE, 1 (R235) -/
  late : Bool := false
  /-- CLAMPED, 1 (R236) -/
  clamped : Bool := false
  /-- AUTO, 1 (R231) -/
  auto : Bool := false
  /-- STATE, 0 free, 1 open, 2 closed, 3 reading, 4 failed (R245) -/
  state : Nat := 0
  /-- tick in which its last record was written to STREAM, 64 bits (R239) -/
  written : Option Nat := none
  /-- tick in which it was released, 64 bits (R234) -/
  relAt : Option Nat := none
  /-- first tick in which a cancelled window holds no pins, 64 bits (R239) -/
  keepTo : Nat := 0
  /-- its borrowed slots have been asked for, 1 (R319) -/
  asked : Bool := false
  deriving DecidableEq, Repr

/-- History, triggers outside the core, windows. -/
structure Hist where
  /-- slot and the tick it holds, ring index (R220) -/
  ring : List (Nat × Nat) := []
  /-- slot the writer comes to next, slot number (R220) -/
  wr : Nat := 0
  /-- windows, 256 descriptors (R234) -/
  wins : Tab Window := []
  /-- descriptor allocated last, 8 bits (R234) -/
  lastDesc : Option Nat := none
  /-- NSP triggers held: identifier and stamp, 16 messages (R226) -/
  held : List (Nat × Nat) := []
  /-- SYNCs that wait: Ts and source (0 armed command, 1 bus, 2+u TCMP u, 18 management operation), queue (R182) -/
  syncs : List (Nat × Nat) := []
  /-- accepted triggers: identifier, stamp, tick, 1 s (R295) -/
  dedup : List (Nat × Nat × Nat) := []
  /-- instant of the last edge on each TRG_IN, 4 inputs, FRC ns (R226) -/
  trgEdge : Tab Nat := []
  /-- EV_PIN_LIMIT logged since the limit was reached, 1 (R236) -/
  pinLimitHit : Bool := false
  deriving DecidableEq, Repr

/-- One compression job (R263 to R267). -/
structure Job where
  /-- STATE, 0 FREE, 1 QUEUED, 2 RUNNING, 3 DONE, 4 FAILED (R263) -/
  state : Nat := 0
  /-- window it belongs to, 8 bits (R265) -/
  win : Option Nat := none
  /-- tick it became able to start, 64 bits (R266) -/
  able : Nat := 0
  /-- unit that runs it, 0,1 encoders, 2 decoder (R266) -/
  unit : Nat := 0
  /-- extent held, pool extent, bytes (R265) -/
  ext : Option (Nat × Nat) := none
  /-- ERR, 4 bits (R269) -/
  err : Nat := 0
  /-- RESULT, 2 bits (R269) -/
  result : Nat := 0
  /-- KSEEN, 5 bits (R269) -/
  kseen : Nat := 0
  /-- MERGED, 1 (R269) -/
  merged : Bool := false
  /-- FAIL_CH, 9 bits (R269) -/
  failCh : Nat := 0
  /-- BLOCKS.DONE, 32 bits (R269) -/
  blocks : Nat := 0
  /-- COMMIT, 32 bits (R269) -/
  commit : Nat := 0
  /-- the window job waits for the descriptor to come free, 1 (R265) -/
  waiting : Bool := false
  /-- REC_FRB records of a finished window job that wait for its turn on the stream, records (R265) -/
  recs : List (List Word) := []
  deriving DecidableEq, Repr

/-- A record placed on a live stream and not yet in a datagram (R214). -/
structure Placed where
  /-- placement tick, rank, channel, first tag, key (R214) -/
  key : RecKey := {}
  /-- the record, record (R193) -/
  words : List Word := []
  deriving DecidableEq, Repr

/-- A datagram as formed (R274, R279). -/
structure Dgram where
  /-- SEQ, 48 bits (R274) -/
  seq : Nat := 0
  /-- FIRST_TICK, 64 bits (R280) -/
  first : Nat := 0
  /-- payload words, payload (R274) -/
  words : List Word := []
  /-- HUB_ID in its header, HUB_ID (R323) -/
  pos : Nat := 0
  /-- sent at least once, 1 (R288) -/
  sent : Bool := false
  /-- tick it was last sent, 64 bits (R290) -/
  sentAt : Nat := 0
  /-- port it was last sent on, 1 bit (R290) -/
  sentOn : Nat := 0
  /-- place in the order in which the hub closed its datagrams, count (R288) -/
  no : Nat := 0
  /-- HUB_ID in its header, 12 (R285) -/
  hubId : Nat := 0
  /-- IPv6, 1 (R285) -/
  v6 : Bool := false
  /-- destination address, 128 (R285) -/
  dst : Nat := 0
  /-- destination port, 16 (R285) -/
  dstPort : Nat := 0
  /-- source address and VLAN tag with which it first left a port, per port (R285) -/
  orig : Tab (Nat × Option Nat) := []
  deriving DecidableEq, Repr

/-- One stream (R278 to R288). -/
structure Stream where
  /-- placed, not yet in a datagram, in order, records (R214) -/
  placed : List Placed := []
  /-- datagrams, oldest first, ring in STREAM (R281) -/
  ring : List Dgram := []
  /-- next SEQ, 48 bits (R280) -/
  seq : Nat := 0
  /-- release point, 48 bits (R282) -/
  rel : Nat := 0
  /-- overwritten unacknowledged and not yet reported, datagrams (R283) -/
  lostNow : List Dgram := []
  /-- tick of the first of those, 64 bits (R283) -/
  lostAt : Nat := 0
  /-- token bucket, sixteenths of a byte (R287) -/
  tokens : Nat := 1048576
  /-- tick the bucket was last filled, 64 bits (R287) -/
  lastFill : Nat := 0
  /-- port the stream uses now, 1 bit (R289) -/
  port : Nat := 0
  /-- REC_GAP OVERWRITE ahead of the next record, records (R283) -/
  gapPend : List (List Word) := []
  /-- key of the last record closed into a datagram, key (R341) -/
  lastKey : RecKey := {}
  deriving DecidableEq, Repr

/-- A retransmission range (R285). -/
structure Range where
  /-- stream, 4 (R285) -/
  stream : Nat := 0
  /-- next SEQ to send, 48 bits (R285) -/
  next : Nat := 0
  /-- last SEQ, 48 bits (R285) -/
  last : Nat := 0
  /-- next SEQ to send on UPB in MIRROR, 48 bits (R289) -/
  next1 : Nat := 0
  deriving DecidableEq, Repr

/-- One uplink (R270, R273). -/
structure Link where
  /-- link up, 1 (R301) -/
  up : Bool := false
  /-- tick it went down, 64 bits (R273) -/
  downAt : Nat := 0
  /-- loopback test passed; far end absent, 1 (R273) -/
  tested : Bool := false
  /-- second of the echo count, 64 bits (R270) -/
  echoAt : Nat := 0
  /-- echo replies in that second, 7 bits (R270) -/
  echoN : Nat := 0
  deriving DecidableEq, Repr

/-- A management response (R291). -/
structure Resp where
  /-- source of the request, source (R291) -/
  src : Nat := 0
  /-- TYPE of the request, 8 (R291) -/
  typ : Nat := 0
  /-- SEQ, 48 (R291) -/
  seq : Nat := 0
  /-- word 0 status and detail, then the rest, payload (R291) -/
  words : List Word := []
  /-- port it goes out on, port (R291) -/
  port : Nat := 0
  /-- the request came over IPv6, 1 (R291) -/
  v6 : Bool := false
  deriving DecidableEq, Repr

/-- An open session (R296, R297). -/
structure Session where
  /-- session ID, 32 (R296) -/
  id : Word := 0
  /-- key slot, 2 (R296) -/
  slot : Nat := 0
  /-- session key, 256 bits (R296) -/
  sk : List Byte := []
  /-- previous counter, 32 (R297) -/
  ctr : Nat := 0
  /-- tick of the last privileged request, 64 bits (R298) -/
  last : Nat := 0
  /-- opened over the service port, 1 (R298) -/
  svc : Bool := false
  deriving DecidableEq, Repr

/-- A challenge that awaits its response (R296). -/
structure Chal where
  /-- session ID, 32 (R296) -/
  id : Word := 0
  /-- key slot, 2 (R296) -/
  slot : Nat := 0
  /-- Nc, 128 (R296) -/
  nc : List Byte := []
  /-- Nh, 128 (R296) -/
  nh : List Byte := []
  /-- service port, 1 (R298) -/
  svc : Bool := false
  /-- tick of the challenge, 64 bits (R298) -/
  last : Nat := 0
  deriving DecidableEq, Repr

/-- The header of an NSP datagram (R274), but for LENGTH and CRC, which its payload fixes. -/
structure NspHead where
  /-- TYPE, 8 (R274) -/
  typ : Nat := 0
  /-- HUB_ID, 12 (R274) -/
  hubId : Nat := 0
  /-- STREAM, 4 (R274) -/
  stream : Nat := 0
  /-- SEQ, 48 (R274) -/
  seq : Nat := 0
  /-- FIRST_TICK, 64 (R274) -/
  first : Nat := 0
  /-- BOOT, 16 (R274) -/
  boot : Nat := 0
  deriving DecidableEq, Repr

/-- The UDP and IP addresses of a datagram (R270, R279, R291). -/
structure Udp where
  /-- IPv6, 1 (R270) -/
  v6 : Bool := false
  /-- source address, 32 or 128 (R271) -/
  src : Nat := 0
  /-- destination address, 32 or 128 (R279) -/
  dst : Nat := 0
  /-- source port, 16 (R279) -/
  srcPort : Nat := 0
  /-- destination port, 16 (R279) -/
  dstPort : Nat := 0
  /-- DF of an IPv4 datagram, 1 (R270) -/
  df : Bool := false
  deriving DecidableEq, Repr

/-- The header of a stack packet (R307), but for its length, which its payload fixes. -/
structure StkHead where
  /-- KIND, 4 (R307) -/
  kind : Nat := 0
  /-- class, P0 to P5, 3 (R307) -/
  cls : Nat := 0
  /-- LAST, 1 (R307) -/
  last : Bool := true
  /-- source position, 4 (R307) -/
  src : Nat := 0
  /-- destination position, 15 every hub, 4 (R307) -/
  dest : Nat := 0
  /-- link sequence, 16 (R307) -/
  seq : Nat := 0
  /-- acknowledged link sequence, 16 (R307) -/
  ack : Nat := 0
  deriving DecidableEq, Repr

/-- Something the hub has put on the wire, newest first in Net.out (the observable output). -/
structure Tx where
  /-- port, 0 UPA, 1 UPB, 2 service, 3 STKN, 4 STKS (R288) -/
  port : Nat := 0
  /-- what it is, kind (R288) -/
  kind : TxKind := .data
  /-- stream, 4 (R274) -/
  stream : Nat := 0
  /-- SEQ, 48 (R274) -/
  seq : Nat := 0
  /-- payload words, payload (R274) -/
  words : List Word := []
  /-- NSP header, header (R274) -/
  nsp : Option NspHead := none
  /-- UDP and IP addresses, addresses (R270) -/
  udp : Option Udp := none
  /-- 802.1Q tag: PCP × 8,192 + VLAN ID, 16 (R270) -/
  tag : Option Nat := none
  /-- stack packet header, header (R307) -/
  stk : Option StkHead := none
  /-- destination MAC address and EtherType of a frame without IP, addresses (R62) -/
  l2 : Option (Nat × Nat) := none
  deriving DecidableEq, Repr

/-- Uplinks, streams, management and sessions. -/
structure Net where
  /-- streams, 16 streams (R278) -/
  streams : Tab Stream := []
  /-- retransmission ranges, oldest first, 1,024 ranges (R285) -/
  retx : List Range := []
  /-- uplinks, 2 ports (R270) -/
  links : Tab Link := []
  /-- kept responses, newest first, 64 responses (R291) -/
  resps : List Resp := []
  /-- open sessions, 4 sessions (R298) -/
  sessions : List Session := []
  /-- challenges, challenges (R296) -/
  chals : List Chal := []
  /-- ERR_AUTH: source and tick, per source (R298) -/
  fails : List (Bool × Nat) := []
  /-- BUSY until tick, per source (R298) -/
  lockout : List (Bool × Nat) := []
  /-- tick, address, value, 64 writes (R293) -/
  timed : List (Nat × Nat × Word) := []
  /-- stream and SEQ of the datagrams closed and not yet sent, in closing order, per port (R288) -/
  sendq : Tab (List (Nat × Nat)) := []
  /-- what left the hub, newest first, output (R288) -/
  out : List Tx := []
  /-- service-port state, 0 IDLE, 1 BUSY, 2 READY, 3 ERROR (R300) -/
  svcState : Nat := 0
  /-- service-port response, response bytes (R300) -/
  svcResp : List Byte := []
  /-- bytes already read, bytes (R300) -/
  svcPos : Nat := 0
  /-- datagrams closed or taken for forwarding, count (R288) -/
  formed : Nat := 0
  /-- members' datagrams that wait to be sent, by their place in the order, datagrams (R323) -/
  fwd : Tab Tx := []
  deriving DecidableEq, Repr

/-- An event queued for the trigger bus (R315). -/
structure BusEv where
  /-- stamp, 64 bits (R315) -/
  stamp : Nat := 0
  /-- lines, 8 (R315) -/
  lines : BitVec 8 := 0
  deriving DecidableEq, Repr

/-- A window whose readout the troupe merges (R325). -/
structure Drain where
  /-- cut tick, 64 bits (R325) -/
  cut : Nat := 0
  /-- descriptor, 8 (R325) -/
  desc : Nat := 0
  /-- its stream, 16 where only its REC_TRIG is known, 4 (R323) -/
  stream : Nat := 16
  /-- position whose window it is, 4 (R325) -/
  pos : Nat := 0
  deriving DecidableEq, Repr

/-- One stack port (R305 to R308). -/
structure StkPort where
  /-- carries troupe traffic, 1 (R305) -/
  up : Bool := false
  /-- link sequence, 16 bits (R307) -/
  linkSeq : Nat := 0
  /-- link sequence of the last packet that came right; the one before the first at the start, 16 bits (R307) -/
  ackSeq : Nat := 65535
  /-- replay buffer, 64 KiB (R308) -/
  replay : List Tx := []
  /-- packets that wait for room in the replay buffer, packets (R308) -/
  waiting : List Tx := []
  /-- lane whose traffic the spare carries, lane (R306) -/
  spare : Option Nat := none
  /-- tick since when the eye is low, 5 lanes (R306) -/
  lowFrom : Tab Nat := []
  deriving DecidableEq, Repr

/-- Stack ports, clock bus, trigger bus, pool, funnel. -/
structure Troupe where
  /-- STKN and STKS, 2 ports (R305) -/
  ports : Tab StkPort := []
  /-- frame of the last tap step, 64 bits (R310) -/
  tapFrame : Option Nat := none
  /-- whether the hop delay was in range at the last round trip, 1 (R311) -/
  hop : Option Bool := none
  /-- AT was too far from the bus AT: alone until a warm reset, 1 (R312) -/
  far : Bool := false
  /-- AT minus the bus AT, slewed away, 2^-64 ns (R312) -/
  busResid : Int := 0
  /-- bytes of credit left to this member, 64 KiB units (R325) -/
  creditBytes : Nat := 0
  /-- tick locked to the clock bus, 1 (R305) -/
  lock : Bool := false
  /-- clock bus lost, 1 (R326) -/
  busLost : Bool := false
  /-- acting as deputy, 1 (R326) -/
  deputy : Bool := false
  /-- RESUME requested, 1 (R326) -/
  resume : Bool := false
  /-- tick of the next frame boundary from FRAME, 64 bits (R312) -/
  frameTick : Option Nat := none
  /-- AT_SRC from FRAME, 2 (R312) -/
  frameSrc : Nat := 0
  /-- trigger-bus queue, oldest first, 16 entries (R315) -/
  busQ : List BusEv := []
  /-- queued control items: CTRL code and tick, items (R317) -/
  ctrlQ : List (Nat × Nat) := []
  /-- merged inward frame of this tick, frame (R315) -/
  merged : Option BusEv := none
  /-- this hub contributed to it, 1 (R315) -/
  mergedSrc : Bool := false
  /-- pool running, 1 (R318) -/
  poolOn : Bool := false
  /-- pooled writes waiting: tick, entry tick and link sequence, 64 tick records (R319) -/
  poolBuf : List (Nat × Nat × Nat) := []
  /-- borrowed slots: what the lender keeps for this hub, canonical, bytes (R318) -/
  poolMem : List Host.Cell := []
  /-- RECORDS received: position and epoch, epochs (R324) -/
  delivered : List (Nat × Nat) := []
  /-- epochs merged, epochs (R323) -/
  acked : List Nat := []
  /-- this member epochs without MERGE_ACK: epoch, stream, records, records (R323) -/
  unacked : List (Nat × Nat × List Placed) := []
  /-- positions dropped, 16 (R324) -/
  dropped : BitVec 16 := 0
  /-- this member changed to FORWARD, 1 (R324) -/
  forward : Bool := false
  /-- position that holds the credit, 4 (R325) -/
  credit : Option Nat := none
  /-- tick from which the ARM_ANY sources are armed, none while they are not, 64 bits (R241) -/
  armedAny : Option Nat := none
  /-- tick of the next re-arm, 64 bits (R241) -/
  rearmAt : Option Nat := none
  /-- tick of the last outward frame, 64 bits (R316) -/
  outward : Nat := 0
  /-- RAW_RD_REQ sent and not yet answered, oldest first: descriptor and slot, requests (R319) -/
  rdq : List (Nat × Nat) := []
  /-- windows that are being merged, in order, windows (R325) -/
  drains : List Drain := []
  /-- per position: descriptor of the window it is delivering, 8 bits (R215) -/
  mergeDesc : Tab Nat := []
  /-- frame of the last RTT sent, 64 bits (R308) -/
  rttFrame : Option Nat := none
  /-- a FRAME has come for the next frame boundary, 1 (R312) -/
  frameNew : Bool := false
  deriving DecidableEq, Repr

/-- A log record in its parts (R407). -/
structure LogRec where
  /-- SEQ, 32 (R407) -/
  seq : Nat := 0
  /-- TIME, TS96, 96 (R407) -/
  time : BitVec 96 := 0
  /-- CODE, 16 (R407) -/
  code : Nat := 0
  /-- SOURCE, 16 (R407) -/
  source : Nat := 0
  /-- REPEAT, 16 (R407) -/
  rep : Nat := 0
  /-- DATA, 64 (R407) -/
  data : List Byte := []
  /-- tick in which it closed in staging, 64 bits (R414) -/
  closedAt : Option Nat := none
  deriving DecidableEq, Repr

/-- A log clear in progress (R421). -/
structure ClearSt where
  /-- C, 32 (R421) -/
  seq : Nat := 0
  /-- step reached, 3 (R421) -/
  step : Nat := 0
  /-- EV_LOG_CLEARED, record (R421) -/
  record : LogRec := {}
  deriving DecidableEq, Repr

/-- Event recorder staging. -/
structure LogSt where
  /-- staged records, newest first, 2,048 slots (R410) -/
  staged : List LogRec := []
  /-- tick the newest record opened; none when it is closed, 64 bits (R410) -/
  openAt : Option Nat := none
  /-- next SEQ, 32 (R409) -/
  next : Nat := 0
  /-- class, count, tick of the first loss, per class (R412) -/
  lost : List (Nat × Nat × Nat) := []
  /-- clear in progress, one (R422) -/
  clear : Option ClearSt := none
  /-- a tombstone was burned since power-up, 1 (R419) -/
  tombBurned : Bool := false
  /-- SEQs of the page that is being written, 32 bits each (R414) -/
  page : List Nat := []
  /-- the loss of the log medium has been noted since LOAD, 1 (R419) -/
  noted : Bool := false
  deriving DecidableEq, Repr

/-- A flash operation that waits or runs (R382, R383). -/
structure NvmOp where
  /-- flash, 1 (R383) -/
  flash : Nat := 0
  /-- erase a sector, else program, 1 (R382) -/
  erase : Bool := false
  /-- offset, 26 bits (R383) -/
  off : Nat := 0
  /-- bytes programmed, page or chunk (R383) -/
  data : List Byte := []
  /-- failed attempts, 2 (R382) -/
  tries : Nat := 0
  /-- work that waits on it, user (R383) -/
  why : NvmUse := .chunk
  /-- log records of the page, by logical slot, page (R413) -/
  recs : Tab LogRec := []
  deriving DecidableEq, Repr

/-- Field update (R398 to R403). -/
structure Upd where
  /-- session that holds the lock, session ID (R399) -/
  lock : Option Word := none
  /-- holder is the service port, 1 (R399) -/
  lockSvc : Bool := false
  /-- header being downloaded, 512 bytes (R400) -/
  hdr : List Byte := []
  /-- chunk table received, 8,160 bytes (R401) -/
  table : List Byte := []
  /-- bytes of the current chunk, 64 KiB (R401) -/
  buf : List Byte := []
  /-- NEXT, 25 bits (R401) -/
  next : Nat := 0
  /-- chunks programmed, 8 (R401) -/
  done : Nat := 0
  /-- stage, 0 idle to 4 awaiting reset (R406) -/
  stage : Nat := 0
  /-- UPDATE_END asked for a reset, 1 (R398) -/
  endReset : Bool := false
  /-- chunks in flight, 2 (R401) -/
  inflight : Nat := 0
  /-- header of the running image, 512 bytes (R394) -/
  runHdr : List Byte := []
  /-- running slot, 1 (R394) -/
  runSlot : Nat := 0
  /-- running image is TRIAL, 1 (R403) -/
  trial : Bool := false
  /-- start of the auto-confirm count, 64 bits (R403) -/
  runFrom : Option Nat := none
  /-- start of the inactivity count, 64 bits (R399) -/
  idleFrom : Nat := 0
  /-- the response that the UPDATE_END under verification waits for, response (R402) -/
  endReq : Option Resp := none
  /-- anti-rollback count to be burned when the boot record under way is complete, 7 bits (R403) -/
  burnTo : Nat := 0
  deriving DecidableEq, Repr

/-- Supplies, bracing, AVS and temperature. -/
structure Power where
  /-- first tick of the bracing interval, 64 bits (R51) -/
  bracing : Option Nat := none
  /-- supplies that crossed warning, 8 (R54) -/
  crossed : BitVec 8 := 0
  /-- lowest reading per supply, 9 rows, mV (R54) -/
  lows : Tab Nat := []
  /-- first tick of the DIP span, 64 bits (R52) -/
  dipFrom : Option Nat := none
  /-- DIP spans, newest first, 32 entries (R53) -/
  dips : List (Nat × Nat) := []
  /-- setpoint of VDD_CA, mV (R21) -/
  avsA : Nat := 750
  /-- setpoint of VDD_CB, mV (R21) -/
  avsB : Nat := 750
  /-- frame of the last downward step, frame (R21) -/
  downA : Option Nat := none
  /-- as downA, frame (R21) -/
  downB : Option Nat := none
  /-- ALERT_N asserted for temperature, 1 (R456) -/
  hot : Bool := false
  /-- a page program was under way as bracing began, 1 (R51) -/
  flying : Bool := false
  /-- anti-rollback count whose burns wait for the end of bracing, 7 (R51) -/
  arbTo : Nat := 0
  /-- image key slots whose revoke bits wait likewise, 4 (R51) -/
  ikBurn : BitVec 4 := 0
  /-- HMAC key slots whose revoke bits wait likewise, 4 (R51) -/
  hkBurn : BitVec 4 := 0
  /-- last tick in which a supply was seen not above its resume level, 64 bits (R51) -/
  lastLow : Nat := 0
  /-- tick since which Tj has exceeded 105 °C, 64 bits (R456) -/
  hotFrom : Option Nat := none
  /-- this excess has been logged, 1 (R456) -/
  hotNoted : Bool := false
  /-- an erase that was under way as bracing began is suspended, 1 (R51) -/
  suspended : Bool := false
  /-- supplies whose last reading is not above their resume level, 9 rows (R444) -/
  low : List Nat := []
  /-- ticks for which every supply has stood above its resume level, up to 20,000, 20,000 (R444) -/
  okTicks : Nat := 20000
  /-- VOUT_MODE of the VDD_CA regulator, as LOAD read it, 8 (R443) -/
  modeA : Nat := 0
  /-- as modeA, 8 (R443) -/
  modeB : Nat := 0
  deriving DecidableEq, Repr

/-- A change of mode (R42, R43). -/
structure ModeChg where
  /-- tick of the change, 64 bits (R42) -/
  tick : Nat := 0
  /-- mode before it, 3 bits (R42) -/
  mode : Mode := .load
  /-- mode before that, 3 bits (R45) -/
  prev : Mode := .load
  /-- cause, 16 bits (R43) -/
  cause : Nat := 0
  /-- SEQ of its record, 32 bits (R409) -/
  seq : Nat := 0
  deriving DecidableEq, Repr

/-- Modes, reset and steward. -/
structure SysSt where
  /-- mode in force, 3 bits (R3) -/
  mode : Mode := .load
  /-- mode before the last change, 3 bits (R431) -/
  prev : Mode := .load
  /-- PORST_N is low, 1 (R445) -/
  porst : Bool := true
  /-- POS strap as latched, 4 bits (R303) -/
  pos : Nat := 0
  /-- SVC_ADDR strap as latched, 2 bits (R445) -/
  svcAddr : Nat := 0
  /-- progress of LOAD, phase (R44) -/
  load : LoadPhase := .idle
  /-- start of the lock wait, 64 bits (R44) -/
  waitFrom : Nat := 0
  /-- the LOAD follows a cold reset, 1 (R48) -/
  cold : Bool := true
  /-- tick of the command of a trim that is pending or deferred, 1 (R49) -/
  trimPend : Option Nat := none
  /-- tick of a scheduled warm reset, 64 bits (R42) -/
  resetAt : Option Nat := none
  /-- that reset ends an update in DORMANT, 1 (R42) -/
  updReset : Bool := false
  /-- tick of SHUTDOWN in progress, 64 bits (R432) -/
  shut : Option Nat := none
  /-- SAFE_OFF, 1 (R432) -/
  safeOff : Bool := false
  /-- steward running, 1 (R14) -/
  steward : Bool := false
  /-- watchdog restarts, newest first, ticks within 60 s (R15) -/
  restarts : List Nat := []
  /-- tick of the first warm reset of this LOAD, 64 bits (R48) -/
  gapReset : Option Nat := none
  /-- span of a full trim cut short, and the channels it covered, ticks (R48) -/
  gapTrim : Option (Nat × Nat × List Nat) := none
  /-- tick of HOLD entry before the reset, 64 bits (R48) -/
  gapHold : Option Nat := none
  /-- tick in which the last LIMP cause ended, 64 bits (R42) -/
  limpEnd : Option Nat := none
  /-- instruction selected on the test port, instruction (R454) -/
  jtag : TestInstr := .bypass
  /-- level of ALERT_N at the last tick, asserted = true, 1 (R431) -/
  alert : Bool := false
  /-- case of the list of unchecked cases that the command in hand has made arise, case (R434) -/
  unchecked : Option Nat := none
  /-- tick in which LOAD ended, 64 bits (R163) -/
  loadEnd : Nat := 0
  /-- fast channels enabled since LOAD, 192 channels (R213) -/
  fastEver : List Nat := []
  /-- write of EN that waits for its boundary: value and boundary, 192 channels (R186) -/
  fastPend : Tab (Bool × Nat) := []
  /-- OPEN_END gap in force: reason, first tick, failed slice or converter, 448 channels (R213) -/
  openGap : Tab (Nat × Nat × Nat) := []
  /-- correctable errors corrected, per memory, counter per memory (R8) -/
  eccCnt : Tab Nat := []
  /-- memory, row and tick of the correctable errors of the SRAM arrays, newest first, errors of 6 h (R18) -/
  eccRows : List (Nat × Nat × Nat) := []
  /-- advances as free values are drawn (model own field), counter (the model's own field) -/
  freeCtr : Nat := 0
  /-- fast channels whose enable is in effect, 192 channels (R186) -/
  fastEff : List Nat := []
  /-- the last change of mode, one (R42) -/
  chg : Option ModeChg := none
  /-- registers written in the tick in hand, and the words in force in it, word each (R429) -/
  wrote : List (Nat × Word) := []
  /-- PORST_N is released and the supply comparators hold the hub in reset, 1 (R444) -/
  relHeld : Bool := false
  deriving DecidableEq, Repr

/-- What belongs to the part for life: OTP, flashes, failures (R110, R348, R353, R387). -/
structure Part where
  /-- unit serial, OTP, 64 (R387) -/
  serial : BitVec 64 := 0
  /-- HMAC key slots, OTP, 4 x 256 bits (R296) -/
  hk : List (List Byte) := []
  /-- HMAC revoke bits, 4 (R296) -/
  hkRev : BitVec 4 := 0
  /-- image key slots, OTP, 4 x 49 bytes (R387) -/
  ik : List (List Byte) := []
  /-- image key revoke bits, 4 (R387) -/
  ikRev : BitVec 4 := 0
  /-- anti-rollback field, OTP, 64 (R387) -/
  arb : BitVec 64 := 0
  /-- MAC addresses, OTP, 2 x 48 (R271) -/
  mac : List (BitVec 48) := []
  /-- reference trim word passes its CRC, 1 (R363) -/
  refOk : Bool := true
  /-- E_p, OTP, 2^-16 ns (R310) -/
  echo : Int := 0
  /-- tombstones, OTP, 32 x 128 (R419) -/
  tombs : List (BitVec 128) := []
  /-- NVM0, 64 MiB (R382) -/
  nvm0 : List Host.Cell := []
  /-- NVM1, 64 MiB (R382) -/
  nvm1 : List Host.Cell := []
  /-- flash in service, 2 (R382) -/
  nvmOk : List Bool := [true, true]
  /-- log area of NVM0: slot (fixed 0 to 16,383, carousel from 16,384) and its record; none for a slot whose CRC fails, slots (R413) -/
  log0 : Tab (Option LogRec) := []
  /-- log area of NVM1, slots (R413) -/
  log1 : Tab (Option LogRec) := []
  /-- carousel write point, slot (R415) -/
  carNext : Nat := 0
  /-- next fixed slot, slot (R415) -/
  fixNext : Nat := 0
  /-- spare sectors used per flash, 2 x 4 bits (R418) -/
  logSpare : List Nat := [0, 0]
  /-- log area takes records, 2 (R418) -/
  logOk : List Bool := [true, true]
  /-- flash, logical sector, physical sector, map (R413) -/
  sectorMap : List (Nat × Nat × Nat) := []
  /-- BOOT, 16 (R277) -/
  boot : Nat := 0
  /-- C of the last clear, 32 (R421) -/
  clearSeq : Nat := 0
  /-- slices out of service, 200 bits (R110) -/
  slices : List Nat := []
  /-- spares that stand in: bank and input, 8 entries (R110) -/
  spares : List (Nat × Nat) := []
  /-- fast channels with no converter, 192 bits (R109) -/
  lostCh : List Nat := []
  /-- converters out of service, 18 bits (R151) -/
  convs : List Nat := []
  /-- spare that serves a group, 16 groups (R151) -/
  convOf : Tab Nat := []
  /-- groups with no converter, 16 bits (R151) -/
  lostGrp : List Nat := []
  /-- retired cores, 2 bits (R353) -/
  retired : List CoreId := []
  /-- pins taken out, 16 (R119) -/
  ilkOut : BitVec 16 := 0
  /-- uplinks out of service, 2 bits (R273) -/
  linkOos : List Nat := []
  /-- LIMP causes that last until the part is replaced, 15 (R42) -/
  limp : BitVec 15 := 0
  /-- DRAM rows repaired, 6 bits (R219) -/
  rowsUsed : Nat := 0
  /-- SRAM spare rows used, per array, 5 bits per array (R18) -/
  sramUsed : Tab Nat := []
  /-- stack lanes out of service: port and lane, lanes (R306) -/
  lanes : List (Nat × Nat) := []
  /-- domains whose servo hardware has failed, 2 bits (R18) -/
  servoOut : List Nat := []
  /-- second domain brought in, 1 (R18) -/
  domSpare : Nat := 0
  /-- whether each flash gives a valid SFDP with every feature that LOAD needs, 2 (R382) -/
  sfdp : List Bool := [true, true]
  deriving DecidableEq, Repr

/-- Why a step stops with a fault. -/
inductive Fault where
  /-- A case of R434 has arisen: from then on any output may take any value. Raised by whatever command
  makes the case arise. SAFE: the hub goes on in a way the spec leaves wholly open, the model stops. -/
  | uncheckedCase (n : Nat)
  deriving DecidableEq, Repr

/-- Why a step is refused. -/
inductive Refusal where
  /-- The command has no meaning in the model yet. Raised by the arms of `exec` that say so.
  SAFE: nothing follows from a refusal. -/
  | notModelled (mnemonic : String)
  deriving DecidableEq, Repr


/-- The hub: everything the spec gives it, and the queue of commands that wait. -/
structure State where
  /-- commands that wait, first in first out (the model own field), queue (the model's own field) -/
  pending : List Instr := []
  /-- AT tick number; before AT is set, ticks since PORST_N release, 64 bits (R5) -/
  tick : Nat := 0
  /-- the register file: address and word, canonical, 33,729 registers of 32 bits (R425) -/
  regs : List (Nat × Word) := []
  /-- words of a _LO and _HI pair or TS96 triplet latched by the read of its lowest word: address and word, words of groups (R428) -/
  latch : Tab Word := []
  /-- words of such a group written, in effect when its highest word is written: address and word, words of groups (R428) -/
  held : Tab Word := []
  /-- group (R42) -/
  sys : SysSt := {}
  /-- group (R51) -/
  pwr : Power := {}
  /-- group (R56) -/
  tim : Timing := {}
  /-- group (R89) -/
  fe : FrontEnd := {}
  /-- group (R123) -/
  slow : SlowFe := {}
  /-- identity and life per channel, 256 inputs (R154) -/
  sid : Tab Sid := []
  /-- state of the core that holds the active role, group (R335) -/
  core : CoreState := {}
  /-- group (R329) -/
  red : Redund := {}
  /-- group (R356) -/
  cal : Calib := {}
  /-- group (R217) -/
  hist : Hist := {}
  /-- compression jobs, 256 jobs (R263) -/
  jobs : Tab Job := []
  /-- group (R270) -/
  net : Net := {}
  /-- group (R303) -/
  stk : Troupe := {}
  /-- group (R407) -/
  log : LogSt := {}
  /-- group (R398) -/
  upd : Upd := {}
  /-- flash operations in order, operations (R382) -/
  nvmq : List NvmOp := []
  /-- DRAM: address and byte, canonical, 16 GiB (R16) -/
  dram : List Host.Cell := []
  /-- safety net: address and byte, canonical; byte 500*(tick mod 16,777), 8 MiB (R17) -/
  net8 : List Host.Cell := []
  /-- newest tick the safety net holds, 64 bits (R17) -/
  netTick : Option Nat := none
  /-- group (R387) -/
  part : Part := {}
  deriving DecidableEq, Repr

/-- The hub at power-up with PORST_N asserted (R42, R445): LOAD, outputs safe, every register at its reset
word, no command waiting. Values the spec does not state are those the log names (log 1, log 3, log 5). -/
def State.reset : State := {}

end Sys2Proof.Machine
end

