-- ==== Sys2Proof/Machine/Events.lean ====
section
/-! DEFINITION. Events.lean: the codes of the event recorder (R408), with the data each event table gives. -/
namespace Sys2Proof.Machine

/-- EV_MODE_CHANGE: old mode, new mode, cause (R43). -/
def Ev.MODE_CHANGE : Nat := 0x0101
/-- EV_DEADLINE: Missed deadline (R37). -/
def Ev.DEADLINE : Nat := 0x0102
/-- EV_STEWARD_RESTART: Restarts within the last 60 s. -/
def Ev.STEWARD_RESTART : Nat := 0x0103
/-- EV_MEM_CORR: Memory, address low word. -/
def Ev.MEM_CORR : Nat := 0x0104
/-- EV_WARM_RESET: Source, key slot. -/
def Ev.WARM_RESET : Nat := 0x0105
/-- EV_SHUTDOWN: Write-backs abandoned. -/
def Ev.SHUTDOWN : Nat := 0x0106
/-- EV_AT_SOURCE: Old and new AT_SRC, residual. -/
def Ev.AT_SOURCE : Nat := 0x0201
/-- EV_ASYM_STEP: Domain, Δmpd, Δe. -/
def Ev.ASYM_STEP : Nat := 0x0202
/-- EV_ASYM_APPLIED: Domain, new TIM_TDd_ASYM. -/
def Ev.ASYM_APPLIED : Nat := 0x0203
/-- EV_PATH_STEP: Domain, Δmpd. -/
def Ev.PATH_STEP : Nat := 0x0204
/-- EV_HOLDOVER: Domain, cause. -/
def Ev.HOLDOVER : Nat := 0x0205
/-- EV_QUALIFIED: Domain. -/
def Ev.QUALIFIED : Nat := 0x0206
/-- EV_AT_FAR: Domain, difference. -/
def Ev.AT_FAR : Nat := 0x0207
/-- EV_MCLK_LOSS: Marker count. -/
def Ev.MCLK_LOSS : Nat := 0x0208
/-- EV_SYNCE_LOSS: Port, last QL. -/
def Ev.SYNCE_LOSS : Nat := 0x0209
/-- EV_DOMAIN_DISAGREE: d. -/
def Ev.DOMAIN_DISAGREE : Nat := 0x020A
/-- EV_TROUPE_XCHECK: Domain, difference. -/
def Ev.TROUPE_XCHECK : Nat := 0x020B
/-- EV_SLICE_FAIL: Slice index; detector, in the order of R107: 1 conversion deadline, 2 full-trim self-test, 3 identical codes, 4 rolling-trim plausibility. -/
def Ev.SLICE_FAIL : Nat := 0x0301
/-- EV_SLICE_SUBST: Bank, input, first tick served by the spare. -/
def Ev.SLICE_SUBST : Nat := 0x0302
/-- EV_SPARE_FAIL: Bank. -/
def Ev.SPARE_FAIL : Nat := 0x0303
/-- EV_BANK_EXHAUSTED: Bank, input left without converter. -/
def Ev.BANK_EXHAUSTED : Nat := 0x0304
/-- EV_ILK_TRIP: Pin; votes: bit 0 core, bit 1 backup; source: the violating source channel 0–255 when the backup vote dropped, otherwise 0x8000 + q for the lowest-numbered TSRCq that dropped the core vote, or 0xFFFF for the trip set on entry to RUN or LIMP (R117); tick of the violating sample. -/
def Ev.ILK_TRIP : Nat := 0x0305
/-- EV_ILK_READBACK: Pin, level read back. -/
def Ev.ILK_READBACK : Nat := 0x0306
/-- EV_ILK_REARM: Pin bitmask; outcome: 0 succeeded, 1 refused. -/
def Ev.ILK_REARM : Nat := 0x0307
/-- EV_SLOW_OPEN: CH; check that failed: 0 check-before, 1 check-after, 2 excitation fault (R136); release tick. -/
def Ev.SLOW_OPEN : Nat := 0x0308
/-- EV_SLOW_CLOSED: CH, release tick. -/
def Ev.SLOW_CLOSED : Nat := 0x0309
/-- EV_CONV_FAIL: Converter; detector: 1 code not delivered within 8 ticks, 2 full-trim self-test (R150). -/
def Ev.CONV_FAIL : Nat := 0x030A
/-- EV_CONV_SUBST: Group, spare, first slot tick. -/
def Ev.CONV_SUBST : Nat := 0x030B
/-- EV_EXC_FAULT: Group; source: 0 IEXCgA, 1 IEXCgB, 2 VEXCg; 0 start, 1 end. -/
def Ev.EXC_FAULT : Nat := 0x030C
/-- EV_SCAN_OVERRUN: Group, skipped start tick. -/
def Ev.SCAN_OVERRUN : Nat := 0x030D
/-- EV_GROUP_LOST: Group. -/
def Ev.GROUP_LOST : Nat := 0x030E
/-- EV_WIN_DROPPED: Source, stamp. -/
def Ev.WIN_DROPPED : Nat := 0x0401
/-- EV_WIN_CLAMPED: Descriptor, last tick cut. -/
def Ev.WIN_CLAMPED : Nat := 0x0402
/-- EV_WIN_LATE: Descriptor, ticks missing. -/
def Ev.WIN_LATE : Nat := 0x0403
/-- EV_PIN_LIMIT: Pinned ticks. -/
def Ev.PIN_LIMIT : Nat := 0x0404
/-- EV_TRG_AUTO: Source. -/
def Ev.TRG_AUTO : Nat := 0x0405
/-- EV_TRG_REFUSED: NSP identifier, stamp. -/
def Ev.TRG_REFUSED : Nat := 0x0406
/-- EV_WIN_JOB_FAIL: Descriptor, job. -/
def Ev.WIN_JOB_FAIL : Nat := 0x0407
/-- EV_TRG_BUS_LATE: Line, stamp. -/
def Ev.TRG_BUS_LATE : Nat := 0x0408
/-- EV_HST_CFG: Refused HST_REGIONS value. -/
def Ev.HST_CFG : Nat := 0x0409
/-- EV_CMP_KMAX: Job, CH, highest K. -/
def Ev.CMP_KMAX : Nat := 0x040A
/-- EV_CMP_FAIL: Job, error code, blocks completed. -/
def Ev.CMP_FAIL : Nat := 0x040B
/-- EV_CORE_FAIL: Core, cause (as RED_COREx_STAT.CAUSE), tick f. -/
def Ev.CORE_FAIL : Nat := 0x0501
/-- EV_SWITCHOVER: f, D, b\* low word, β. -/
def Ev.SWITCHOVER : Nat := 0x0502
/-- EV_EPOCH_DISCARD: Sequence of the uncommitted buffer. -/
def Ev.EPOCH_DISCARD : Nat := 0x0503
/-- EV_DRILL: Boundary, β, outcome (0 done, 1 failed). -/
def Ev.DRILL : Nat := 0x0504
/-- EV_CORE_RETURN: Core. -/
def Ev.CORE_RETURN : Nat := 0x0505
/-- EV_BIST: Core; 0 pass, 1 fail; coverage code, the part of BIST that failed: 0 none, 1 memory arrays, 2 logic, 3 both memory arrays and logic. -/
def Ev.BIST : Nat := 0x0506
/-- EV_WV_LANE: Lane 0–2; cause: 1 disagreement in 4 of 16 ticks, 2 parity, 3 BIST failed at LOAD (R348, R349). -/
def Ev.WV_LANE : Nat := 0x0507
/-- EV_WV_MAJORITY: Tick h. -/
def Ev.WV_MAJORITY : Nat := 0x0508
/-- EV_HB_BOTH: Tick. -/
def Ev.HB_BOTH : Nat := 0x0509
/-- EV_CORE_RETIRED: Core, failures in 24 h. -/
def Ev.CORE_RETIRED : Nat := 0x050A
/-- EV_NO_CORE: Tick f₀. -/
def Ev.NO_CORE : Nat := 0x050B
/-- EV_NET_ECC: Tick record, source used. -/
def Ev.NET_ECC : Nat := 0x050C
/-- EV_TRIM_DONE: Set serial, method. -/
def Ev.TRIM_DONE : Nat := 0x0601
/-- EV_TRIM_SELFTEST: Slice index 0–199, or 0x100 + converter 0–17; cause: 1 conversion deadline (R107) or code not delivered (R150), 2 offset outside the DIGITAL range, 3 gain outside it, 4 skew outside it (R362). -/
def Ev.TRIM_SELFTEST : Nat := 0x0602
/-- EV_RT_REJECT: CH, cause, outlier ppm. -/
def Ev.RT_REJECT : Nat := 0x0603
/-- EV_RT_PLAUS: CH or bank, metric. -/
def Ev.RT_PLAUS : Nat := 0x0604
/-- EV_TAP_RANGE: CH, metric. -/
def Ev.TAP_RANGE : Nat := 0x0605
/-- EV_FZ: CH, result, cause. -/
def Ev.FZ : Nat := 0x0606
/-- EV_REF_OTP: —. -/
def Ev.REF_OTP : Nat := 0x0607
/-- EV_METHOD: Old, new. -/
def Ev.METHOD : Nat := 0x0608
/-- EV_UPD_BEGIN: Source, IMG_VER, NEXT. -/
def Ev.UPD_BEGIN : Nat := 0x0701
/-- EV_UPD_REFUSED: Source, status. -/
def Ev.UPD_REFUSED : Nat := 0x0702
/-- EV_UPD_VERIFIED: Slot, IMG_VER. -/
def Ev.UPD_VERIFIED : Nat := 0x0703
/-- EV_UPD_ACTIVATED: Slot, SEQ. -/
def Ev.UPD_ACTIVATED : Nat := 0x0704
/-- EV_UPD_CONFIRMED: Slot, 0 command or 1 auto. -/
def Ev.UPD_CONFIRMED : Nat := 0x0705
/-- EV_UPD_FALLBACK: From slot, to slot, TRIES. -/
def Ev.UPD_FALLBACK : Nat := 0x0706
/-- EV_UPD_ABORT: Cause: 0 ABORT, 1 inactivity, 2 session end. -/
def Ev.UPD_ABORT : Nat := 0x0707
/-- EV_BOOT: Slot, STATE, TRIES, cause. -/
def Ev.BOOT : Nat := 0x0708
/-- EV_NVM_FAIL: Flash, operation, offset. -/
def Ev.NVM_FAIL : Nat := 0x0709
/-- EV_IMG_ENTRY: Section, entry index. -/
def Ev.IMG_ENTRY : Nat := 0x070A
/-- EV_ARB_BURN: New count. -/
def Ev.ARB_BURN : Nat := 0x070B
/-- EV_IMG_KEY_REVOKED: Slot bitmask. -/
def Ev.IMG_KEY_REVOKED : Nat := 0x070C
/-- EV_UPD_CANCEL: Slot, SEQ. -/
def Ev.UPD_CANCEL : Nat := 0x070D
/-- EV_UPD_NO_FALLBACK: Slot. -/
def Ev.UPD_NO_FALLBACK : Nat := 0x070E
/-- EV_LOST: Count [31:0], first lost TICK64 low word. -/
def Ev.LOST : Nat := 0x0801
/-- EV_LOG_CLEARED: Clear nonce, 8 bytes. -/
def Ev.LOG_CLEARED : Nat := 0x0802
/-- EV_LOG_MEDIUM_FAIL: Flash bitmask, records staged. -/
def Ev.LOG_MEDIUM_FAIL : Nat := 0x0803
/-- EV_LOG_SPARE: Flash, logical sector, spares used. -/
def Ev.LOG_SPARE : Nat := 0x0804
/-- EV_LOG_TORN: Slots skipped, slots recovered. -/
def Ev.LOG_TORN : Nat := 0x0805
/-- EV_LINK_UP: Port, speed, FEC. -/
def Ev.LINK_UP : Nat := 0x0901
/-- EV_LINK_DOWN: Port, cause. -/
def Ev.LINK_DOWN : Nat := 0x0902
/-- EV_UPLINK_FAIL: Port, detector (R273). -/
def Ev.UPLINK_FAIL : Nat := 0x0903
/-- EV_NSP_FAILOVER: From port, to port, streams moved. -/
def Ev.NSP_FAILOVER : Nat := 0x0904
/-- EV_NSP_OVERWRITE: Stream, first lost SEQ [31:0], count. -/
def Ev.NSP_OVERWRITE : Nat := 0x0905
/-- EV_RETX_FULL: Ranges refused. -/
def Ev.RETX_FULL : Nat := 0x0906
/-- EV_AUTH_OK: Source, slot, session ID. -/
def Ev.AUTH_OK : Nat := 0x0907
/-- EV_AUTH_FAIL: Source, slot, step. -/
def Ev.AUTH_FAIL : Nat := 0x0908
/-- EV_KEY_REVOKED: Slot bitmask. -/
def Ev.KEY_REVOKED : Nat := 0x0909
/-- EV_STK_LINK: Port, up or down, lanes. -/
def Ev.STK_LINK : Nat := 0x090A
/-- EV_STK_LANE_SPARE: Port, lane replaced. -/
def Ev.STK_LANE_SPARE : Nat := 0x090B
/-- EV_STK_TOPOLOGY: Port, neighbour position, cause. -/
def Ev.STK_TOPOLOGY : Nat := 0x090C
/-- EV_TROUPE_JOIN: Position, tick. -/
def Ev.TROUPE_JOIN : Nat := 0x090D
/-- EV_DEPUTY_TAKEOVER: Tick. -/
def Ev.DEPUTY_TAKEOVER : Nat := 0x090E
/-- EV_POOL_LOST: Borrowed units, tick. -/
def Ev.POOL_LOST : Nat := 0x090F
/-- EV_MERGE_DROP: Position, epoch. -/
def Ev.MERGE_DROP : Nat := 0x0910
/-- EV_TRG_BUS_OVF: Line, stamp. -/
def Ev.TRG_BUS_OVF : Nat := 0x0911
/-- EV_SENSOR_NEW: CH, ROM identity low word. -/
def Ev.SENSOR_NEW : Nat := 0x0A01
/-- EV_SENSOR_ABSENT: CH. -/
def Ev.SENSOR_ABSENT : Nat := 0x0A02
/-- EV_TEDS_ERROR: CH, page. -/
def Ev.TEDS_ERROR : Nat := 0x0A03
/-- EV_LIFE_WARN: CH, life fraction. -/
def Ev.LIFE_WARN : Nat := 0x0A04
/-- EV_LIFE_END: CH, life fraction. -/
def Ev.LIFE_END : Nat := 0x0A05
/-- EV_SID_WB_FAIL: CH, copy. -/
def Ev.SID_WB_FAIL : Nat := 0x0A06
/-- EV_SID_NO_IDLE: Group. -/
def Ev.SID_NO_IDLE : Nat := 0x0A07
/-- EV_SUPPLY_DIP: supplies crossed, deepest row, mV, duration (R54). -/
def Ev.SUPPLY_DIP : Nat := 0x0B01
/-- EV_BROWNOUT: brown-out reset (R55). -/
def Ev.BROWNOUT : Nat := 0x0B02
/-- EV_THERMAL: Highest Tj, 0.1 °C; sensor index. -/
def Ev.THERMAL : Nat := 0x0B03
/-- EV_AVS_MARGIN: Core, setpoint in mV (R22). -/
def Ev.AVS_MARGIN : Nat := 0x0B04
/-- EV_AVS_PMBUS: Master, PMBus status byte (R443). -/
def Ev.AVS_PMBUS : Nat := 0x0B05

end Sys2Proof.Machine
end

