-- ==== Sys2Proof/Machine/RegMap.lean ====
section
/-! DEFINITION. RegMap.lean: the register space of the hub (R425): the address of every register, the place
of every field, and per register its reset word and which of its bits are RW, RW1C, SC or LO (R6), as the
register tables of the chapters give them. -/
namespace Sys2Proof.Machine

/-- A field of a register: address, lowest bit, number of bits (R4). -/
structure Fld where
  addr : Nat
  lo : Nat
  len : Nat
  deriving DecidableEq, Repr

/-- One line of the register tables: base address, the indices as (count, stride), reset word, and the masks
of its RW, RW1C, SC and LO bits. -/
structure RegRow where
  base : Nat
  dims : List (Nat × Nat)
  reset : Nat
  rw : Nat
  w1c : Nat
  sc : Nat
  lo : Nat
  deriving DecidableEq, Repr

/-! Addresses. -/

/-- TIM_CTRL (R88). -/
def R.TIM_CTRL : Nat := 0x10000
/-- TIM_STAT (R88). -/
def R.TIM_STAT : Nat := 0x10004
/-- TIM_ALERT (R88). -/
def R.TIM_ALERT : Nat := 0x10008
/-- TIM_FRC_SRC (R88). -/
def R.TIM_FRC_SRC : Nat := 0x1000c
/-- TIM_SLEW_MAX (R88). -/
def R.TIM_SLEW_MAX : Nat := 0x10010
/-- TIM_JOIN_MAX (R88). -/
def R.TIM_JOIN_MAX : Nat := 0x10014
/-- TIM_REVERT (R88). -/
def R.TIM_REVERT : Nat := 0x10018
/-- TIM_ASYM_AUTO (R88). -/
def R.TIM_ASYM_AUTO : Nat := 0x1001c
/-- TIM_ASYM_THR (R88). -/
def R.TIM_ASYM_THR : Nat := 0x10020
/-- TIM_AGREE_THR (R88). -/
def R.TIM_AGREE_THR : Nat := 0x10024
/-- TIM_AT_RESID (R88). -/
def R.TIM_AT_RESID : Nat := 0x10028
/-- TIM_SNAP_CTRL (R88). -/
def R.TIM_SNAP_CTRL : Nat := 0x1002c
/-- TIM_AT_INIT0 (R88). -/
def R.TIM_AT_INIT0 : Nat := 0x10030
/-- TIM_AT_INIT1 (R88). -/
def R.TIM_AT_INIT1 : Nat := 0x10034
/-- TIM_AT_INIT2 (R88). -/
def R.TIM_AT_INIT2 : Nat := 0x10038
/-- TIM_PORT_CAL0 (R88). -/
def R.TIM_PORT_CAL0 : Nat := 0x10040
/-- TIM_PORT_CAL1 (R88). -/
def R.TIM_PORT_CAL1 : Nat := 0x10044
/-- TIM_PORT_CAL2 (R88). -/
def R.TIM_PORT_CAL2 : Nat := 0x10048
/-- TIM_PORT_CAL3 (R88). -/
def R.TIM_PORT_CAL3 : Nat := 0x1004c
/-- TIM_PPS_CFG (R88). -/
def R.TIM_PPS_CFG : Nat := 0x10050
/-- TIM_MCLK_CFG (R88). -/
def R.TIM_MCLK_CFG : Nat := 0x10054
/-- TIM_MCLK_STAT (R88). -/
def R.TIM_MCLK_STAT : Nat := 0x10058
/-- TIM_TDd_CTRL (R88). -/
def R.TIM_TDd_CTRL (d : Nat) : Nat := 0x10100 + d * 0x40
/-- TIM_TDd_STAT (R88). -/
def R.TIM_TDd_STAT (d : Nat) : Nat := 0x10104 + d * 0x40
/-- TIM_TDd_RATE_LO (R88). -/
def R.TIM_TDd_RATE_LO (d : Nat) : Nat := 0x10108 + d * 0x40
/-- TIM_TDd_RATE_HI (R88). -/
def R.TIM_TDd_RATE_HI (d : Nat) : Nat := 0x1010c + d * 0x40
/-- TIM_TDd_OFS0 (R88). -/
def R.TIM_TDd_OFS0 (d : Nat) : Nat := 0x10110 + d * 0x40
/-- TIM_TDd_OFS1 (R88). -/
def R.TIM_TDd_OFS1 (d : Nat) : Nat := 0x10114 + d * 0x40
/-- TIM_TDd_OFS2 (R88). -/
def R.TIM_TDd_OFS2 (d : Nat) : Nat := 0x10118 + d * 0x40
/-- TIM_TDd_ASYM (R88). -/
def R.TIM_TDd_ASYM (d : Nat) : Nat := 0x10120 + d * 0x40
/-- TIM_TDd_ASYM_EST (R88). -/
def R.TIM_TDd_ASYM_EST (d : Nat) : Nat := 0x10124 + d * 0x40
/-- TIM_TDd_KP (R88). -/
def R.TIM_TDd_KP (d : Nat) : Nat := 0x10128 + d * 0x40
/-- TIM_TDd_KI (R88). -/
def R.TIM_TDd_KI (d : Nat) : Nat := 0x1012c + d * 0x40
/-- TIM_TDd_MPD (R88). -/
def R.TIM_TDd_MPD (d : Nat) : Nat := 0x10130 + d * 0x40
/-- TIM_TDd_OFS_RMS (R88). -/
def R.TIM_TDd_OFS_RMS (d : Nat) : Nat := 0x10134 + d * 0x40
/-- TIM_TDd_QUAL_CFG (R88). -/
def R.TIM_TDd_QUAL_CFG (d : Nat) : Nat := 0x10138 + d * 0x40
/-- TIM_TCMPu_CTRL (R88). -/
def R.TIM_TCMPu_CTRL (u : Nat) : Nat := 0x10800 + u * 0x20
/-- TIM_TCMPu_TICK_LO (R88). -/
def R.TIM_TCMPu_TICK_LO (u : Nat) : Nat := 0x10804 + u * 0x20
/-- TIM_TCMPu_TICK_HI (R88). -/
def R.TIM_TCMPu_TICK_HI (u : Nat) : Nat := 0x10808 + u * 0x20
/-- TIM_TCMPu_PERIOD (R88). -/
def R.TIM_TCMPu_PERIOD (u : Nat) : Nat := 0x1080c + u * 0x20
/-- TIM_TCMPu_STAT (R88). -/
def R.TIM_TCMPu_STAT (u : Nat) : Nat := 0x10810 + u * 0x20
/-- TIM_TOUTt_CTRL (R88). -/
def R.TIM_TOUTt_CTRL (t : Nat) : Nat := 0x10c00 + t * 0x20
/-- TIM_TOUTt_PERIOD (R88). -/
def R.TIM_TOUTt_PERIOD (t : Nat) : Nat := 0x10c04 + t * 0x20
/-- TIM_TOUTt_PHASE (R88). -/
def R.TIM_TOUTt_PHASE (t : Nat) : Nat := 0x10c08 + t * 0x20
/-- TIM_TOUTt_WIDTH (R88). -/
def R.TIM_TOUTt_WIDTH (t : Nat) : Nat := 0x10c0c + t * 0x20
/-- TIM_TOUTt_FINE (R88). -/
def R.TIM_TOUTt_FINE (t : Nat) : Nat := 0x10c10 + t * 0x20
/-- AFF_CTRL (R122). -/
def R.AFF_CTRL : Nat := 0x20000
/-- AFF_STAT (R122). -/
def R.AFF_STAT : Nat := 0x20004
/-- AFF_ALERT (R122). -/
def R.AFF_ALERT : Nat := 0x20008
/-- AFF_BANKb_CTRL (R122). -/
def R.AFF_BANKb_CTRL (b : Nat) : Nat := 0x20040 + b * 0x4
/-- AFF_BANKb_STAT (R122). -/
def R.AFF_BANKb_STAT (b : Nat) : Nat := 0x20060 + b * 0x4
/-- AFF_BANKb_FAIL (R122). -/
def R.AFF_BANKb_FAIL (b : Nat) : Nat := 0x20080 + b * 0x4
/-- AFF_BTUp_CFG (R122). -/
def R.AFF_BTUp_CFG (p : Nat) : Nat := 0x20100 + p * 0x20
/-- AFF_BTUp_SRC (R122). -/
def R.AFF_BTUp_SRC (p : Nat) : Nat := 0x20104 + p * 0x20
/-- AFF_BTUp_HI (R122). -/
def R.AFF_BTUp_HI (p : Nat) : Nat := 0x20108 + p * 0x20
/-- AFF_BTUp_LO (R122). -/
def R.AFF_BTUp_LO (p : Nat) : Nat := 0x2010c + p * 0x20
/-- AFF_BTUp_STAT (R122). -/
def R.AFF_BTUp_STAT (p : Nat) : Nat := 0x20110 + p * 0x20
/-- AFF_ILK_CTRL (R122). -/
def R.AFF_ILK_CTRL : Nat := 0x20300
/-- AFF_ILK_STAT (R122). -/
def R.AFF_ILK_STAT : Nat := 0x20304
/-- AFF_ILK_VOTE (R122). -/
def R.AFF_ILK_VOTE : Nat := 0x20308
/-- AFF_ILK_EN (R122). -/
def R.AFF_ILK_EN : Nat := 0x2030c
/-- AFF_ILKp_TSRC (R122). -/
def R.AFF_ILKp_TSRC (p : Nat) : Nat := 0x20340 + p * 0x4
/-- CH_AFE_CTRL (R122). -/
def R.CH_AFE_CTRL (ch : Nat) : Nat := 0x100000 + ch * 0x800
/-- CH_AFE_TAP (R122). -/
def R.CH_AFE_TAP (ch : Nat) : Nat := 0x100004 + ch * 0x800
/-- CH_AFE_STAT (R122). -/
def R.CH_AFE_STAT (ch : Nat) : Nat := 0x100008 + ch * 0x800
/-- CH_AFE_LAST (R122). -/
def R.CH_AFE_LAST (ch : Nat) : Nat := 0x10000c + ch * 0x800
/-- AFS_STAT (R153). -/
def R.AFS_STAT : Nat := 0x30004
/-- AFS_ALERT (R153). -/
def R.AFS_ALERT : Nat := 0x30008
/-- AFS_CONV_FAIL (R153). -/
def R.AFS_CONV_FAIL : Nat := 0x3000c
/-- AFS_GRPg_CFG (R153). -/
def R.AFS_GRPg_CFG (g : Nat) : Nat := 0x30100 + g * 0x20
/-- AFS_GRPg_PERIOD (R153). -/
def R.AFS_GRPg_PERIOD (g : Nat) : Nat := 0x30104 + g * 0x20
/-- AFS_GRPg_IEXCA (R153). -/
def R.AFS_GRPg_IEXCA (g : Nat) : Nat := 0x30108 + g * 0x20
/-- AFS_GRPg_IEXCB (R153). -/
def R.AFS_GRPg_IEXCB (g : Nat) : Nat := 0x3010c + g * 0x20
/-- AFS_GRPg_VEXC (R153). -/
def R.AFS_GRPg_VEXC (g : Nat) : Nat := 0x30110 + g * 0x20
/-- AFS_GRPg_STAT (R153). -/
def R.AFS_GRPg_STAT (g : Nat) : Nat := 0x30114 + g * 0x20
/-- AFS_GRPg_SCAN_LO (R153). -/
def R.AFS_GRPg_SCAN_LO (g : Nat) : Nat := 0x30118 + g * 0x20
/-- AFS_GRPg_SCAN_HI (R153). -/
def R.AFS_GRPg_SCAN_HI (g : Nat) : Nat := 0x3011c + g * 0x20
/-- CH_SIN_CFG (R153). -/
def R.CH_SIN_CFG (ch : Nat) : Nat := 0x100000 + ch * 0x800
/-- CH_SIN_SLOT (R153). -/
def R.CH_SIN_SLOT (ch : Nat) : Nat := 0x100004 + ch * 0x800
/-- CH_SIN_BO (R153). -/
def R.CH_SIN_BO (ch : Nat) : Nat := 0x100008 + ch * 0x800
/-- CH_SIN_EXC (R153). -/
def R.CH_SIN_EXC (ch : Nat) : Nat := 0x10000c + ch * 0x800
/-- CH_SIN_TSRC (R153). -/
def R.CH_SIN_TSRC (ch : Nat) : Nat := 0x100010 + ch * 0x800
/-- CH_SIN_TDEF (R153). -/
def R.CH_SIN_TDEF (ch : Nat) : Nat := 0x100014 + ch * 0x800
/-- CH_SIN_STAT (R153). -/
def R.CH_SIN_STAT (ch : Nat) : Nat := 0x100018 + ch * 0x800
/-- CH_SIN_LAST (R153). -/
def R.CH_SIN_LAST (ch : Nat) : Nat := 0x10001c + ch * 0x800
/-- CH_SIN_ENG (R153). -/
def R.CH_SIN_ENG (ch : Nat) : Nat := 0x100020 + ch * 0x800
/-- CH_SIN_TAG_LO (R153). -/
def R.CH_SIN_TAG_LO (ch : Nat) : Nat := 0x100024 + ch * 0x800
/-- CH_SIN_TAG_HI (R153). -/
def R.CH_SIN_TAG_HI (ch : Nat) : Nat := 0x100028 + ch * 0x800
/-- CH_SIN_POLYk_IDX (R153). -/
def R.CH_SIN_POLYk_IDX (ch k : Nat) : Nat := 0x100040 + ch * 0x800 + k * 0x8
/-- CH_SIN_POLYk_C (R153). -/
def R.CH_SIN_POLYk_C (ch k : Nat) : Nat := 0x100044 + ch * 0x800 + k * 0x8
/-- SID_CTRL (R169). -/
def R.SID_CTRL : Nat := 0x40000
/-- SID_ALERT (R169). -/
def R.SID_ALERT : Nat := 0x40008
/-- CH_SID_CFG (R169). -/
def R.CH_SID_CFG (ch : Nat) : Nat := 0x1000c0 + ch * 0x800
/-- CH_SID_STAT (R169). -/
def R.CH_SID_STAT (ch : Nat) : Nat := 0x1000c4 + ch * 0x800
/-- CH_SID_ROM_LO (R169). -/
def R.CH_SID_ROM_LO (ch : Nat) : Nat := 0x1000c8 + ch * 0x800
/-- CH_SID_ROM_HI (R169). -/
def R.CH_SID_ROM_HI (ch : Nat) : Nat := 0x1000cc + ch * 0x800
/-- CH_SID_TIME (R169). -/
def R.CH_SID_TIME (ch : Nat) : Nat := 0x1000d0 + ch * 0x800
/-- CH_SID_CYCLES (R169). -/
def R.CH_SID_CYCLES (ch : Nat) : Nat := 0x1000d4 + ch * 0x800
/-- CH_SID_CHARGE (R169). -/
def R.CH_SID_CHARGE (ch : Nat) : Nat := 0x1000d8 + ch * 0x800
/-- CH_SID_OVR (R169). -/
def R.CH_SID_OVR (ch : Nat) : Nat := 0x1000dc + ch * 0x800
/-- FLT_STAT (R192). -/
def R.FLT_STAT : Nat := 0x50004
/-- FLT_ALERT (R192). -/
def R.FLT_ALERT : Nat := 0x50008
/-- FLT_SYNC_CTRL (R192). -/
def R.FLT_SYNC_CTRL : Nat := 0x50010
/-- FLT_SYNC_TICK_LO (R192). -/
def R.FLT_SYNC_TICK_LO : Nat := 0x50014
/-- FLT_SYNC_TICK_HI (R192). -/
def R.FLT_SYNC_TICK_HI : Nat := 0x50018
/-- FLT_SYNC_STAT (R192). -/
def R.FLT_SYNC_STAT : Nat := 0x5001c
/-- FLT_FARROW_IDX (R192). -/
def R.FLT_FARROW_IDX : Nat := 0x50020
/-- FLT_FARROW_DATA (R192). -/
def R.FLT_FARROW_DATA : Nat := 0x50024
/-- CH_FLT_CFG (R192). -/
def R.CH_FLT_CFG (ch : Nat) : Nat := 0x100100 + ch * 0x800
/-- CH_FLT_DCIC (R192). -/
def R.CH_FLT_DCIC (ch : Nat) : Nat := 0x100104 + ch * 0x800
/-- CH_FLT_NSET (R192). -/
def R.CH_FLT_NSET (ch : Nat) : Nat := 0x100108 + ch * 0x800
/-- CH_FLT_DB (R192). -/
def R.CH_FLT_DB (ch : Nat) : Nat := 0x10010c + ch * 0x800
/-- CH_FLT_M (R192). -/
def R.CH_FLT_M (ch : Nat) : Nat := 0x100110 + ch * 0x800
/-- CH_FLT_GD (R192). -/
def R.CH_FLT_GD (ch : Nat) : Nat := 0x100114 + ch * 0x800
/-- CH_FLT_P (R192). -/
def R.CH_FLT_P (ch : Nat) : Nat := 0x100118 + ch * 0x800
/-- CH_FLT_U (R192). -/
def R.CH_FLT_U (ch : Nat) : Nat := 0x10011c + ch * 0x800
/-- CH_FLT_SKEW (R192). -/
def R.CH_FLT_SKEW (ch : Nat) : Nat := 0x100120 + ch * 0x800
/-- CH_FLT_COST (R192). -/
def R.CH_FLT_COST (ch : Nat) : Nat := 0x100124 + ch * 0x800
/-- CH_FLT_FIRc (R192). -/
def R.CH_FLT_FIRc (ch c : Nat) : Nat := 0x100140 + ch * 0x800 + c * 0x4
/-- CH_FLT_Nq_B0 (R192). -/
def R.CH_FLT_Nq_B0 (ch q : Nat) : Nat := 0x1001c0 + ch * 0x800 + q * 0x20
/-- CH_FLT_Nq_B1 (R192). -/
def R.CH_FLT_Nq_B1 (ch q : Nat) : Nat := 0x1001c4 + ch * 0x800 + q * 0x20
/-- CH_FLT_Nq_B2 (R192). -/
def R.CH_FLT_Nq_B2 (ch q : Nat) : Nat := 0x1001c8 + ch * 0x800 + q * 0x20
/-- CH_FLT_Nq_A1 (R192). -/
def R.CH_FLT_Nq_A1 (ch q : Nat) : Nat := 0x1001cc + ch * 0x800 + q * 0x20
/-- CH_FLT_Nq_A2 (R192). -/
def R.CH_FLT_Nq_A2 (ch q : Nat) : Nat := 0x1001d0 + ch * 0x800 + q * 0x20
/-- CH_SLW_CFG (R192). -/
def R.CH_SLW_CFG (ch : Nat) : Nat := 0x1000e0 + ch * 0x800
/-- CH_SLW_DB (R192). -/
def R.CH_SLW_DB (ch : Nat) : Nat := 0x1000e4 + ch * 0x800
/-- CH_SLW_M (R192). -/
def R.CH_SLW_M (ch : Nat) : Nat := 0x1000e8 + ch * 0x800
/-- TRG_CTRL (R244). -/
def R.TRG_CTRL : Nat := 0x60000
/-- TRG_STAT (R244). -/
def R.TRG_STAT : Nat := 0x60004
/-- TRG_ALERT (R244). -/
def R.TRG_ALERT : Nat := 0x60008
/-- TRG_AUTO (R244). -/
def R.TRG_AUTO : Nat := 0x6000c
/-- TRG_REARM (R244). -/
def R.TRG_REARM : Nat := 0x60010
/-- TRG_CNDc_CFG (R244). -/
def R.TRG_CNDc_CFG (c : Nat) : Nat := 0x60100 + c * 0x20
/-- TRG_CNDc_A (R244). -/
def R.TRG_CNDc_A (c : Nat) : Nat := 0x60104 + c * 0x20
/-- TRG_CNDc_B (R244). -/
def R.TRG_CNDc_B (c : Nat) : Nat := 0x60108 + c * 0x20
/-- TRG_CNDc_D (R244). -/
def R.TRG_CNDc_D (c : Nat) : Nat := 0x6010c + c * 0x20
/-- TRG_CNDc_STAT (R244). -/
def R.TRG_CNDc_STAT (c : Nat) : Nat := 0x60110 + c * 0x20
/-- TRG_SRCq_CTRL (R244). -/
def R.TRG_SRCq_CTRL (q : Nat) : Nat := 0x60900 + q * 0x20
/-- TRG_SRCq_CND0 (R244). -/
def R.TRG_SRCq_CND0 (q : Nat) : Nat := 0x60904 + q * 0x20
/-- TRG_SRCq_CND1 (R244). -/
def R.TRG_SRCq_CND1 (q : Nat) : Nat := 0x60908 + q * 0x20
/-- TRG_SRCq_HOLDOFF (R244). -/
def R.TRG_SRCq_HOLDOFF (q : Nat) : Nat := 0x6090c + q * 0x20
/-- TRG_SRCq_PRE (R244). -/
def R.TRG_SRCq_PRE (q : Nat) : Nat := 0x60910 + q * 0x20
/-- TRG_SRCq_POST (R244). -/
def R.TRG_SRCq_POST (q : Nat) : Nat := 0x60914 + q * 0x20
/-- TRG_SRCq_TGT (R244). -/
def R.TRG_SRCq_TGT (q : Nat) : Nat := 0x60918 + q * 0x20
/-- TRG_SRCq_STAT (R244). -/
def R.TRG_SRCq_STAT (q : Nat) : Nat := 0x6091c + q * 0x20
/-- TRG_SRCq_MASKw (R244). -/
def R.TRG_SRCq_MASKw (q w : Nat) : Nat := 0x60c00 + q * 0x40 + w * 0x4
/-- HST_REGIONS (R245). -/
def R.HST_REGIONS : Nat := 0x70000
/-- HST_PIN_MAX (R245). -/
def R.HST_PIN_MAX : Nat := 0x70004
/-- HST_STAT (R245). -/
def R.HST_STAT : Nat := 0x70008
/-- HST_ALERT (R245). -/
def R.HST_ALERT : Nat := 0x7000c
/-- HST_RAW_TICKS (R245). -/
def R.HST_RAW_TICKS : Nat := 0x70010
/-- HST_PINNED (R245). -/
def R.HST_PINNED : Nat := 0x70014
/-- HST_PIN_LIMIT (R245). -/
def R.HST_PIN_LIMIT : Nat := 0x70018
/-- HST_OLDEST_LO (R245). -/
def R.HST_OLDEST_LO : Nat := 0x7001c
/-- HST_OLDEST_HI (R245). -/
def R.HST_OLDEST_HI : Nat := 0x70020
/-- HST_DRAM (R245). -/
def R.HST_DRAM : Nat := 0x70024
/-- HST_WINd_CTRL (R245). -/
def R.HST_WINd_CTRL (d : Nat) : Nat := 0x70400 + d * 0x10
/-- HST_WINd_STAT (R245). -/
def R.HST_WINd_STAT (d : Nat) : Nat := 0x70404 + d * 0x10
/-- HST_WINd_CUT_LO (R245). -/
def R.HST_WINd_CUT_LO (d : Nat) : Nat := 0x70408 + d * 0x10
/-- HST_WINd_CUT_HI (R245). -/
def R.HST_WINd_CUT_HI (d : Nat) : Nat := 0x7040c + d * 0x10
/-- CMP_CTRL (R269). -/
def R.CMP_CTRL : Nat := 0x80000
/-- CMP_STAT (R269). -/
def R.CMP_STAT : Nat := 0x80004
/-- CMP_ALERT (R269). -/
def R.CMP_ALERT : Nat := 0x80008
/-- CMP_WIN_POOL (R269). -/
def R.CMP_WIN_POOL : Nat := 0x8000c
/-- CMP_POOL_FREE (R269). -/
def R.CMP_POOL_FREE : Nat := 0x80010
/-- CMP_JOBj_CTRL (R269). -/
def R.CMP_JOBj_CTRL (j : Nat) : Nat := 0x81000 + j * 0x20
/-- CMP_JOBj_IN (R269). -/
def R.CMP_JOBj_IN (j : Nat) : Nat := 0x81004 + j * 0x20
/-- CMP_JOBj_OUT (R269). -/
def R.CMP_JOBj_OUT (j : Nat) : Nat := 0x8100c + j * 0x20
/-- CMP_JOBj_IN_LEN (R269). -/
def R.CMP_JOBj_IN_LEN (j : Nat) : Nat := 0x81008 + j * 0x20
/-- CMP_JOBj_OUT_LEN (R269). -/
def R.CMP_JOBj_OUT_LEN (j : Nat) : Nat := 0x81010 + j * 0x20
/-- CMP_JOBj_STAT (R269). -/
def R.CMP_JOBj_STAT (j : Nat) : Nat := 0x81014 + j * 0x20
/-- CMP_JOBj_BLOCKS (R269). -/
def R.CMP_JOBj_BLOCKS (j : Nat) : Nat := 0x81018 + j * 0x20
/-- CMP_JOBj_COMMIT (R269). -/
def R.CMP_JOBj_COMMIT (j : Nat) : Nat := 0x8101c + j * 0x20
/-- NSP_CTRL (R302). -/
def R.NSP_CTRL : Nat := 0x90000
/-- NSP_STAT (R302). -/
def R.NSP_STAT : Nat := 0x90004
/-- NSP_ALERT (R302). -/
def R.NSP_ALERT : Nat := 0x90008
/-- NSP_DGRAM (R302). -/
def R.NSP_DGRAM : Nat := 0x9000c
/-- NSP_BOOT (R302). -/
def R.NSP_BOOT : Nat := 0x90010
/-- NSP_KEY (R302). -/
def R.NSP_KEY : Nat := 0x90014
/-- NSP_MGMT_CNT (R302). -/
def R.NSP_MGMT_CNT : Nat := 0x90018
/-- NSP_UPx_CFG (R302). -/
def R.NSP_UPx_CFG (x : Nat) : Nat := 0x90100 + x * 0x80
/-- NSP_UPx_STAT (R302). -/
def R.NSP_UPx_STAT (x : Nat) : Nat := 0x90104 + x * 0x80
/-- NSP_STRm_CFG (R302). -/
def R.NSP_STRm_CFG (m : Nat) : Nat := 0x90400 + m * 0x40
/-- NSP_STRm_DST0 (R302). -/
def R.NSP_STRm_DST0 (m : Nat) : Nat := 0x90404 + m * 0x40
/-- NSP_STRm_DST1 (R302). -/
def R.NSP_STRm_DST1 (m : Nat) : Nat := 0x90408 + m * 0x40
/-- NSP_STRm_DST2 (R302). -/
def R.NSP_STRm_DST2 (m : Nat) : Nat := 0x9040c + m * 0x40
/-- NSP_STRm_DST3 (R302). -/
def R.NSP_STRm_DST3 (m : Nat) : Nat := 0x90410 + m * 0x40
/-- NSP_STRm_SPACE (R302). -/
def R.NSP_STRm_SPACE (m : Nat) : Nat := 0x90414 + m * 0x40
/-- NSP_STRm_RATE (R302). -/
def R.NSP_STRm_RATE (m : Nat) : Nat := 0x90418 + m * 0x40
/-- NSP_STRm_BURST (R302). -/
def R.NSP_STRm_BURST (m : Nat) : Nat := 0x9041c + m * 0x40
/-- NSP_STRm_SEQ_LO (R302). -/
def R.NSP_STRm_SEQ_LO (m : Nat) : Nat := 0x90420 + m * 0x40
/-- NSP_STRm_SEQ_HI (R302). -/
def R.NSP_STRm_SEQ_HI (m : Nat) : Nat := 0x90424 + m * 0x40
/-- NSP_STRm_REL_LO (R302). -/
def R.NSP_STRm_REL_LO (m : Nat) : Nat := 0x90428 + m * 0x40
/-- NSP_STRm_REL_HI (R302). -/
def R.NSP_STRm_REL_HI (m : Nat) : Nat := 0x9042c + m * 0x40
/-- NSP_STRm_STAT (R302). -/
def R.NSP_STRm_STAT (m : Nat) : Nat := 0x90430 + m * 0x40
/-- NSP_STRm_LOST (R302). -/
def R.NSP_STRm_LOST (m : Nat) : Nat := 0x90434 + m * 0x40
/-- CH_NSP_CFG_FAST (R302). -/
def R.CH_NSP_CFG_FAST (ch : Nat) : Nat := 0x100040 + ch * 0x800
/-- CH_NSP_CFG_SLOW (R302). -/
def R.CH_NSP_CFG_SLOW (ch : Nat) : Nat := 0x1000f0 + ch * 0x800
/-- STK_CTRL (R328). -/
def R.STK_CTRL : Nat := 0xa0000
/-- STK_CMD (R328). -/
def R.STK_CMD : Nat := 0xa0004
/-- STK_STAT (R328). -/
def R.STK_STAT : Nat := 0xa0008
/-- STK_ALERT (R328). -/
def R.STK_ALERT : Nat := 0xa000c
/-- STK_POOL (R328). -/
def R.STK_POOL : Nat := 0xa0010
/-- STK_POOL_STAT (R328). -/
def R.STK_POOL_STAT : Nat := 0xa0014
/-- STK_MUL (R328). -/
def R.STK_MUL : Nat := 0xa0018
/-- STK_HOP_RT (R328). -/
def R.STK_HOP_RT : Nat := 0xa0020
/-- STK_HOP_ASYM (R328). -/
def R.STK_HOP_ASYM : Nat := 0xa0024
/-- STK_TAP (R328). -/
def R.STK_TAP : Nat := 0xa0028
/-- STK_XCHECK (R328). -/
def R.STK_XCHECK : Nat := 0xa002c
/-- STK_PORTx_STAT (R328). -/
def R.STK_PORTx_STAT (x : Nat) : Nat := 0xa0100 + x * 0x20
/-- STK_PORTx_NEIGH (R328). -/
def R.STK_PORTx_NEIGH (x : Nat) : Nat := 0xa0104 + x * 0x20
/-- RED_CFG (R355). -/
def R.RED_CFG : Nat := 0xb0000
/-- RED_STAT (R355). -/
def R.RED_STAT : Nat := 0xb0004
/-- RED_ALERT (R355). -/
def R.RED_ALERT : Nat := 0xb0008
/-- RED_CMD (R355). -/
def R.RED_CMD : Nat := 0xb000c
/-- RED_HOLD_ILK (R355). -/
def R.RED_HOLD_ILK : Nat := 0xb0010
/-- RED_HOLD_POST (R355). -/
def R.RED_HOLD_POST : Nat := 0xb0014
/-- RED_REVERT_HOLDOFF (R355). -/
def R.RED_REVERT_HOLDOFF : Nat := 0xb0018
/-- RED_DRILL_CFG (R355). -/
def R.RED_DRILL_CFG : Nat := 0xb001c
/-- RED_DRILL_NEXT_LO (R355). -/
def R.RED_DRILL_NEXT_LO : Nat := 0xb0020
/-- RED_DRILL_NEXT_HI (R355). -/
def R.RED_DRILL_NEXT_HI : Nat := 0xb0024
/-- RED_EPOCH_LO (R355). -/
def R.RED_EPOCH_LO : Nat := 0xb0028
/-- RED_EPOCH_HI (R355). -/
def R.RED_EPOCH_HI : Nat := 0xb002c
/-- RED_EPOCH_SEQ (R355). -/
def R.RED_EPOCH_SEQ : Nat := 0xb0030
/-- RED_EPOCH_SIZE (R355). -/
def R.RED_EPOCH_SIZE : Nat := 0xb0034
/-- RED_BUMP (R355). -/
def R.RED_BUMP : Nat := 0xb0038
/-- RED_COREx_STAT (R355). -/
def R.RED_COREx_STAT (x : Nat) : Nat := 0xb0040 + x * 0x4
/-- RED_WV_STAT (R355). -/
def R.RED_WV_STAT : Nat := 0xb0048
/-- RED_JOURNAL (R355). -/
def R.RED_JOURNAL : Nat := 0xb004c
/-- RED_DRILL_STAT (R355). -/
def R.RED_DRILL_STAT : Nat := 0xb0050
/-- CAL_CTRL (R381). -/
def R.CAL_CTRL : Nat := 0xc0000
/-- CAL_STAT (R381). -/
def R.CAL_STAT : Nat := 0xc0004
/-- CAL_ALERT (R381). -/
def R.CAL_ALERT : Nat := 0xc0008
/-- CAL_VAR_MIN (R381). -/
def R.CAL_VAR_MIN : Nat := 0xc000c
/-- CAL_DVAR_MIN (R381). -/
def R.CAL_DVAR_MIN : Nat := 0xc0010
/-- CAL_OUT_THR (R381). -/
def R.CAL_OUT_THR : Nat := 0xc0014
/-- CAL_FZ_CTRL (R381). -/
def R.CAL_FZ_CTRL : Nat := 0xc0020
/-- CAL_FZ_TICK_LO (R381). -/
def R.CAL_FZ_TICK_LO : Nat := 0xc0024
/-- CAL_FZ_TICK_HI (R381). -/
def R.CAL_FZ_TICK_HI : Nat := 0xc0028
/-- CAL_FZ_Z (R381). -/
def R.CAL_FZ_Z : Nat := 0xc002c
/-- CAL_FZ_STAT (R381). -/
def R.CAL_FZ_STAT : Nat := 0xc0030
/-- CAL_BANKb_STAT (R381). -/
def R.CAL_BANKb_STAT (b : Nat) : Nat := 0xc0100 + b * 0x4
/-- CAL_LANEl_EYE (R381). -/
def R.CAL_LANEl_EYE (l : Nat) : Nat := 0xc0200 + l * 0x4
/-- CH_CAL_CFG (R381). -/
def R.CH_CAL_CFG (ch : Nat) : Nat := 0x100300 + ch * 0x800
/-- CH_CAL_FZ (R381). -/
def R.CH_CAL_FZ (ch : Nat) : Nat := 0x100304 + ch * 0x800
/-- CH_CAL_RUN (R381). -/
def R.CH_CAL_RUN (ch : Nat) : Nat := 0x100308 + ch * 0x800
/-- CH_CAL_Q_OFS (R381). -/
def R.CH_CAL_Q_OFS (ch : Nat) : Nat := 0x10030c + ch * 0x800
/-- CH_CAL_Q_GAIN (R381). -/
def R.CH_CAL_Q_GAIN (ch : Nat) : Nat := 0x100310 + ch * 0x800
/-- CH_CAL_Q_SKEW (R381). -/
def R.CH_CAL_Q_SKEW (ch : Nat) : Nat := 0x100314 + ch * 0x800
/-- CH_CAL_TICK_LO (R381). -/
def R.CH_CAL_TICK_LO (ch : Nat) : Nat := 0x100318 + ch * 0x800
/-- CH_CAL_TICK_HI (R381). -/
def R.CH_CAL_TICK_HI (ch : Nat) : Nat := 0x10031c + ch * 0x800
/-- CH_CAL_TAPr (R381). -/
def R.CH_CAL_TAPr (ch r : Nat) : Nat := 0x100320 + ch * 0x800 + r * 0x4
/-- UPD_STAT (R406). -/
def R.UPD_STAT : Nat := 0xd0004
/-- UPD_ALERT (R406). -/
def R.UPD_ALERT : Nat := 0xd0008
/-- UPD_CMD (R406). -/
def R.UPD_CMD : Nat := 0xd000c
/-- UPD_CFG (R406). -/
def R.UPD_CFG : Nat := 0xd0010
/-- UPD_CONFIRM_LEFT (R406). -/
def R.UPD_CONFIRM_LEFT : Nat := 0xd0014
/-- UPD_VER_RUN (R406). -/
def R.UPD_VER_RUN : Nat := 0xd0018
/-- UPD_VER_OTHER (R406). -/
def R.UPD_VER_OTHER : Nat := 0xd001c
/-- UPD_ARB (R406). -/
def R.UPD_ARB : Nat := 0xd0020
/-- UPD_BOOTREC (R406). -/
def R.UPD_BOOTREC : Nat := 0xd0024
/-- UPD_PROG (R406). -/
def R.UPD_PROG : Nat := 0xd0028
/-- UPD_CHUNKS (R406). -/
def R.UPD_CHUNKS : Nat := 0xd002c
/-- UPD_KEY (R406). -/
def R.UPD_KEY : Nat := 0xd0030
/-- UPD_SERIAL_LO (R406). -/
def R.UPD_SERIAL_LO : Nat := 0xd0034
/-- UPD_SERIAL_HI (R406). -/
def R.UPD_SERIAL_HI : Nat := 0xd0038
/-- UPD_NVM (R406). -/
def R.UPD_NVM : Nat := 0xd003c
/-- UPD_LOAD (R406). -/
def R.UPD_LOAD : Nat := 0xd0040
/-- LOG_STAT (R424). -/
def R.LOG_STAT : Nat := 0xe0000
/-- LOG_ALERT (R424). -/
def R.LOG_ALERT : Nat := 0xe0004
/-- LOG_SEQ (R424). -/
def R.LOG_SEQ : Nat := 0xe0008
/-- LOG_CAR_OLDEST (R424). -/
def R.LOG_CAR_OLDEST : Nat := 0xe000c
/-- LOG_CLEAR_SEQ (R424). -/
def R.LOG_CLEAR_SEQ : Nat := 0xe0010
/-- LOG_LOST (R424). -/
def R.LOG_LOST : Nat := 0xe0014
/-- LOG_SPARE (R424). -/
def R.LOG_SPARE : Nat := 0xe0018
/-- SYS_ID (R431). -/
def R.SYS_ID : Nat := 0x0
/-- SYS_REV (R431). -/
def R.SYS_REV : Nat := 0x4
/-- SYS_MODE (R431). -/
def R.SYS_MODE : Nat := 0x8
/-- SYS_CTRL (R431). -/
def R.SYS_CTRL : Nat := 0xc
/-- SYS_STAT (R431). -/
def R.SYS_STAT : Nat := 0x10
/-- SYS_ALERT (R431). -/
def R.SYS_ALERT : Nat := 0x14
/-- SYS_ALERT_SUM (R431). -/
def R.SYS_ALERT_SUM : Nat := 0x18
/-- SYS_RESET_CAUSE (R431). -/
def R.SYS_RESET_CAUSE : Nat := 0x1c
/-- SYS_HUB_ID (R431). -/
def R.SYS_HUB_ID : Nat := 0x20
/-- SYS_ENV (R431). -/
def R.SYS_ENV : Nat := 0x24
/-- SYS_LIMP (R431). -/
def R.SYS_LIMP : Nat := 0x28
/-- SYS_SPAREc (R431). -/
def R.SYS_SPAREc (c : Nat) : Nat := 0x40 + c * 0x4
/-- TIM_SNAP_FRC0 (R88). -/
def R.TIM_SNAP_FRC0 : Nat := 0x10400
/-- TIM_SNAP_FRC1 (R88). -/
def R.TIM_SNAP_FRC1 : Nat := 0x10404
/-- TIM_SNAP_FRC2 (R88). -/
def R.TIM_SNAP_FRC2 : Nat := 0x10408
/-- TIM_SNAP_AT0 (R88). -/
def R.TIM_SNAP_AT0 : Nat := 0x10410
/-- TIM_SNAP_AT1 (R88). -/
def R.TIM_SNAP_AT1 : Nat := 0x10414
/-- TIM_SNAP_AT2 (R88). -/
def R.TIM_SNAP_AT2 : Nat := 0x10418
/-- TIM_SNAP_TICK_LO (R88). -/
def R.TIM_SNAP_TICK_LO : Nat := 0x1041c
/-- TIM_SNAP_TICK_HI (R88). -/
def R.TIM_SNAP_TICK_HI : Nat := 0x10420
/-- TIM_SNAP_SUBTICK (R88). -/
def R.TIM_SNAP_SUBTICK : Nat := 0x10424
/-- TIM_SNAP_TDd0 (R88). -/
def R.TIM_SNAP_TDd0 (d : Nat) : Nat := 0x10440 + d * 0x10
/-- TIM_SNAP_TDd1 (R88). -/
def R.TIM_SNAP_TDd1 (d : Nat) : Nat := 0x10444 + d * 0x10
/-- TIM_SNAP_TDd2 (R88). -/
def R.TIM_SNAP_TDd2 (d : Nat) : Nat := 0x10448 + d * 0x10
/-- TIM_PPS_IN0 (R88). -/
def R.TIM_PPS_IN0 : Nat := 0x10480
/-- TIM_PPS_IN1 (R88). -/
def R.TIM_PPS_IN1 : Nat := 0x10484
/-- TIM_PPS_IN2 (R88). -/
def R.TIM_PPS_IN2 : Nat := 0x10488
/-- NSP_UPx_MAC_LO (R302). -/
def R.NSP_UPx_MAC_LO (x : Nat) : Nat := 0x90108 + x * 0x80
/-- NSP_UPx_MAC_HI (R302). -/
def R.NSP_UPx_MAC_HI (x : Nat) : Nat := 0x9010c + x * 0x80
/-- NSP_UPx_VID (R302). -/
def R.NSP_UPx_VID (x : Nat) : Nat := 0x90110 + x * 0x80
/-- NSP_UPx_IP4 (R302). -/
def R.NSP_UPx_IP4 (x : Nat) : Nat := 0x90114 + x * 0x80
/-- NSP_UPx_IP4_CFG (R302). -/
def R.NSP_UPx_IP4_CFG (x : Nat) : Nat := 0x90118 + x * 0x80
/-- NSP_UPx_GW4 (R302). -/
def R.NSP_UPx_GW4 (x : Nat) : Nat := 0x9011c + x * 0x80
/-- NSP_UPx_IP6_0 (R302). -/
def R.NSP_UPx_IP6_0 (x : Nat) : Nat := 0x90120 + x * 0x80
/-- NSP_UPx_IP6_1 (R302). -/
def R.NSP_UPx_IP6_1 (x : Nat) : Nat := 0x90124 + x * 0x80
/-- NSP_UPx_IP6_2 (R302). -/
def R.NSP_UPx_IP6_2 (x : Nat) : Nat := 0x90128 + x * 0x80
/-- NSP_UPx_IP6_3 (R302). -/
def R.NSP_UPx_IP6_3 (x : Nat) : Nat := 0x9012c + x * 0x80
/-- NSP_UPx_IP6_CFG (R302). -/
def R.NSP_UPx_IP6_CFG (x : Nat) : Nat := 0x90130 + x * 0x80
/-- NSP_UPx_GW6_0 (R302). -/
def R.NSP_UPx_GW6_0 (x : Nat) : Nat := 0x90140 + x * 0x80
/-- NSP_UPx_GW6_1 (R302). -/
def R.NSP_UPx_GW6_1 (x : Nat) : Nat := 0x90144 + x * 0x80
/-- NSP_UPx_GW6_2 (R302). -/
def R.NSP_UPx_GW6_2 (x : Nat) : Nat := 0x90148 + x * 0x80
/-- NSP_UPx_GW6_3 (R302). -/
def R.NSP_UPx_GW6_3 (x : Nat) : Nat := 0x9014c + x * 0x80

/-! Fields. -/

def F.TIM_CTRL_AT_MODE : Fld := ⟨R.TIM_CTRL, 0, 2⟩
def F.TIM_CTRL_AT_PREF : Fld := ⟨R.TIM_CTRL, 4, 1⟩
def F.TIM_STAT_AT_SRC : Fld := ⟨R.TIM_STAT, 0, 2⟩
def F.TIM_STAT_AT_FOLLOW : Fld := ⟨R.TIM_STAT, 2, 1⟩
def F.TIM_STAT_SLEWING : Fld := ⟨R.TIM_STAT, 3, 1⟩
def F.TIM_STAT_FAR : Fld := ⟨R.TIM_STAT, 4, 1⟩
def F.TIM_STAT_FRC_ACT : Fld := ⟨R.TIM_STAT, 8, 2⟩
def F.TIM_STAT_QUAL : Fld := ⟨R.TIM_STAT, 16, 4⟩
def F.TIM_ALERT_AT_SOURCE : Fld := ⟨R.TIM_ALERT, 0, 1⟩
def F.TIM_ALERT_ASYM_TD0 : Fld := ⟨R.TIM_ALERT, 1, 1⟩
def F.TIM_ALERT_ASYM_TD1 : Fld := ⟨R.TIM_ALERT, 2, 1⟩
def F.TIM_ALERT_DISAGREE : Fld := ⟨R.TIM_ALERT, 3, 1⟩
def F.TIM_ALERT_AT_FAR : Fld := ⟨R.TIM_ALERT, 4, 1⟩
def F.TIM_ALERT_HOLD_TD0 : Fld := ⟨R.TIM_ALERT, 5, 1⟩
def F.TIM_ALERT_HOLD_TD1 : Fld := ⟨R.TIM_ALERT, 6, 1⟩
def F.TIM_ALERT_MCLK_LOSS : Fld := ⟨R.TIM_ALERT, 7, 1⟩
def F.TIM_ALERT_SYNCE_LOSS : Fld := ⟨R.TIM_ALERT, 8, 1⟩
def F.TIM_ALERT_WR_REFUSED : Fld := ⟨R.TIM_ALERT, 9, 1⟩
def F.TIM_ALERT_TCMP_LATE : Fld := ⟨R.TIM_ALERT, 10, 1⟩
def F.TIM_FRC_SRC_SEL : Fld := ⟨R.TIM_FRC_SRC, 0, 2⟩
def F.TIM_FRC_SRC_QL_MIN : Fld := ⟨R.TIM_FRC_SRC, 4, 4⟩
def F.TIM_FRC_SRC_ESMC_REQ : Fld := ⟨R.TIM_FRC_SRC, 8, 1⟩
def F.TIM_SLEW_MAX_VALUE : Fld := ⟨R.TIM_SLEW_MAX, 0, 14⟩
def F.TIM_JOIN_MAX_VALUE : Fld := ⟨R.TIM_JOIN_MAX, 0, 20⟩
def F.TIM_REVERT_EN : Fld := ⟨R.TIM_REVERT, 0, 1⟩
def F.TIM_REVERT_HOLD : Fld := ⟨R.TIM_REVERT, 8, 17⟩
def F.TIM_ASYM_AUTO_AUTO : Fld := ⟨R.TIM_ASYM_AUTO, 0, 1⟩
def F.TIM_ASYM_AUTO_SOLO : Fld := ⟨R.TIM_ASYM_AUTO, 1, 1⟩
def F.TIM_ASYM_AUTO_SOLO_HOLD : Fld := ⟨R.TIM_ASYM_AUTO, 8, 16⟩
def F.TIM_ASYM_THR_VALUE : Fld := ⟨R.TIM_ASYM_THR, 0, 32⟩
def F.TIM_AGREE_THR_VALUE : Fld := ⟨R.TIM_AGREE_THR, 0, 32⟩
def F.TIM_AT_RESID_VALUE : Fld := ⟨R.TIM_AT_RESID, 0, 32⟩
def F.TIM_SNAP_CTRL_LATCH : Fld := ⟨R.TIM_SNAP_CTRL, 0, 1⟩
def F.TIM_AT_INIT0_TS96 : Fld := ⟨R.TIM_AT_INIT0, 0, 32⟩
def F.TIM_AT_INIT1_TS96 : Fld := ⟨R.TIM_AT_INIT1, 0, 32⟩
def F.TIM_AT_INIT2_TS96 : Fld := ⟨R.TIM_AT_INIT2, 0, 32⟩
def F.TIM_PORT_CAL0_VALUE : Fld := ⟨R.TIM_PORT_CAL0, 0, 32⟩
def F.TIM_PORT_CAL1_VALUE : Fld := ⟨R.TIM_PORT_CAL1, 0, 32⟩
def F.TIM_PORT_CAL2_VALUE : Fld := ⟨R.TIM_PORT_CAL2, 0, 32⟩
def F.TIM_PORT_CAL3_VALUE : Fld := ⟨R.TIM_PORT_CAL3, 0, 32⟩
def F.TIM_PPS_CFG_WIDTH : Fld := ⟨R.TIM_PPS_CFG, 0, 9⟩
def F.TIM_PPS_CFG_EN : Fld := ⟨R.TIM_PPS_CFG, 16, 1⟩
def F.TIM_PPS_CFG_IN_EN : Fld := ⟨R.TIM_PPS_CFG, 17, 1⟩
def F.TIM_MCLK_CFG_NOM_KHZ : Fld := ⟨R.TIM_MCLK_CFG, 0, 20⟩
def F.TIM_MCLK_CFG_DIV : Fld := ⟨R.TIM_MCLK_CFG, 20, 8⟩
def F.TIM_MCLK_CFG_EN : Fld := ⟨R.TIM_MCLK_CFG, 31, 1⟩
def F.TIM_MCLK_STAT_LOCK : Fld := ⟨R.TIM_MCLK_STAT, 0, 1⟩
def F.TIM_MCLK_STAT_LOSS : Fld := ⟨R.TIM_MCLK_STAT, 1, 1⟩
def F.TIM_MCLK_STAT_PHASE : Fld := ⟨R.TIM_MCLK_STAT, 16, 16⟩
def F.TIM_TDd_CTRL_EN (d : Nat) : Fld := ⟨R.TIM_TDd_CTRL d, 0, 1⟩
def F.TIM_TDd_CTRL_PTP_DOM (d : Nat) : Fld := ⟨R.TIM_TDd_CTRL d, 8, 8⟩
def F.TIM_TDd_CTRL_TRANSPORT (d : Nat) : Fld := ⟨R.TIM_TDd_CTRL d, 16, 2⟩
def F.TIM_TDd_CTRL_MECH (d : Nat) : Fld := ⟨R.TIM_TDd_CTRL d, 18, 1⟩
def F.TIM_TDd_CTRL_PORT (d : Nat) : Fld := ⟨R.TIM_TDd_CTRL d, 19, 1⟩
def F.TIM_TDd_CTRL_FORCE_HOLD (d : Nat) : Fld := ⟨R.TIM_TDd_CTRL d, 20, 1⟩
def F.TIM_TDd_CTRL_ASYM_APPLY (d : Nat) : Fld := ⟨R.TIM_TDd_CTRL d, 21, 1⟩
def F.TIM_TDd_CTRL_STEP_ACCEPT (d : Nat) : Fld := ⟨R.TIM_TDd_CTRL d, 22, 1⟩
def F.TIM_TDd_CTRL_TWO_STEP (d : Nat) : Fld := ⟨R.TIM_TDd_CTRL d, 23, 1⟩
def F.TIM_TDd_CTRL_LOGSYNC (d : Nat) : Fld := ⟨R.TIM_TDd_CTRL d, 24, 3⟩
def F.TIM_TDd_STAT_STATE (d : Nat) : Fld := ⟨R.TIM_TDd_STAT d, 0, 3⟩
def F.TIM_TDd_STAT_ASYM_STEP (d : Nat) : Fld := ⟨R.TIM_TDd_STAT d, 4, 1⟩
def F.TIM_TDd_STAT_EST_VALID (d : Nat) : Fld := ⟨R.TIM_TDd_STAT d, 5, 1⟩
def F.TIM_TDd_STAT_QUAL (d : Nat) : Fld := ⟨R.TIM_TDd_STAT d, 7, 1⟩
def F.TIM_TDd_STAT_SYNCE (d : Nat) : Fld := ⟨R.TIM_TDd_STAT d, 8, 1⟩
def F.TIM_TDd_STAT_MSG_LOSS (d : Nat) : Fld := ⟨R.TIM_TDd_STAT d, 9, 1⟩
def F.TIM_TDd_STAT_MEAS_CNT (d : Nat) : Fld := ⟨R.TIM_TDd_STAT d, 16, 16⟩
def F.TIM_TDd_RATE_LO_RATE (d : Nat) : Fld := ⟨R.TIM_TDd_RATE_LO d, 0, 32⟩
def F.TIM_TDd_RATE_HI_RATE (d : Nat) : Fld := ⟨R.TIM_TDd_RATE_HI d, 0, 8⟩
def F.TIM_TDd_OFS0_TS96 (d : Nat) : Fld := ⟨R.TIM_TDd_OFS0 d, 0, 32⟩
def F.TIM_TDd_OFS1_TS96 (d : Nat) : Fld := ⟨R.TIM_TDd_OFS1 d, 0, 32⟩
def F.TIM_TDd_OFS2_TS96 (d : Nat) : Fld := ⟨R.TIM_TDd_OFS2 d, 0, 32⟩
def F.TIM_TDd_ASYM_VALUE (d : Nat) : Fld := ⟨R.TIM_TDd_ASYM d, 0, 32⟩
def F.TIM_TDd_ASYM_EST_VALUE (d : Nat) : Fld := ⟨R.TIM_TDd_ASYM_EST d, 0, 32⟩
def F.TIM_TDd_KP_VALUE (d : Nat) : Fld := ⟨R.TIM_TDd_KP d, 0, 32⟩
def F.TIM_TDd_KI_VALUE (d : Nat) : Fld := ⟨R.TIM_TDd_KI d, 0, 32⟩
def F.TIM_TDd_MPD_VALUE (d : Nat) : Fld := ⟨R.TIM_TDd_MPD d, 0, 32⟩
def F.TIM_TDd_OFS_RMS_VALUE (d : Nat) : Fld := ⟨R.TIM_TDd_OFS_RMS d, 0, 32⟩
def F.TIM_TDd_QUAL_CFG_LOCK_THR (d : Nat) : Fld := ⟨R.TIM_TDd_QUAL_CFG d, 0, 16⟩
def F.TIM_TDd_QUAL_CFG_LOSS_TMO (d : Nat) : Fld := ⟨R.TIM_TDd_QUAL_CFG d, 16, 8⟩
def F.TIM_TDd_QUAL_CFG_STEP_THR (d : Nat) : Fld := ⟨R.TIM_TDd_QUAL_CFG d, 24, 8⟩
def F.TIM_TCMPu_CTRL_ACTION (u : Nat) : Fld := ⟨R.TIM_TCMPu_CTRL u, 0, 3⟩
def F.TIM_TCMPu_CTRL_TOUT_SEL (u : Nat) : Fld := ⟨R.TIM_TCMPu_CTRL u, 4, 2⟩
def F.TIM_TCMPu_CTRL_ARM (u : Nat) : Fld := ⟨R.TIM_TCMPu_CTRL u, 8, 1⟩
def F.TIM_TCMPu_CTRL_DISARM (u : Nat) : Fld := ⟨R.TIM_TCMPu_CTRL u, 9, 1⟩
def F.TIM_TCMPu_CTRL_GROUPS (u : Nat) : Fld := ⟨R.TIM_TCMPu_CTRL u, 16, 16⟩
def F.TIM_TCMPu_TICK_LO_TICK (u : Nat) : Fld := ⟨R.TIM_TCMPu_TICK_LO u, 0, 32⟩
def F.TIM_TCMPu_TICK_HI_TICK (u : Nat) : Fld := ⟨R.TIM_TCMPu_TICK_HI u, 0, 32⟩
def F.TIM_TCMPu_PERIOD_VALUE (u : Nat) : Fld := ⟨R.TIM_TCMPu_PERIOD u, 0, 32⟩
def F.TIM_TCMPu_STAT_ARMED (u : Nat) : Fld := ⟨R.TIM_TCMPu_STAT u, 0, 1⟩
def F.TIM_TCMPu_STAT_ERR_LATE (u : Nat) : Fld := ⟨R.TIM_TCMPu_STAT u, 1, 1⟩
def F.TIM_TCMPu_STAT_VOID (u : Nat) : Fld := ⟨R.TIM_TCMPu_STAT u, 2, 1⟩
def F.TIM_TCMPu_STAT_FIRES (u : Nat) : Fld := ⟨R.TIM_TCMPu_STAT u, 16, 16⟩
def F.TIM_TOUTt_CTRL_START (t : Nat) : Fld := ⟨R.TIM_TOUTt_CTRL t, 0, 1⟩
def F.TIM_TOUTt_CTRL_STOP (t : Nat) : Fld := ⟨R.TIM_TOUTt_CTRL t, 1, 1⟩
def F.TIM_TOUTt_CTRL_RUNNING (t : Nat) : Fld := ⟨R.TIM_TOUTt_CTRL t, 2, 1⟩
def F.TIM_TOUTt_CTRL_POL (t : Nat) : Fld := ⟨R.TIM_TOUTt_CTRL t, 3, 1⟩
def F.TIM_TOUTt_PERIOD_PERIOD (t : Nat) : Fld := ⟨R.TIM_TOUTt_PERIOD t, 0, 21⟩
def F.TIM_TOUTt_PERIOD_PHASE (t : Nat) : Fld := ⟨R.TIM_TOUTt_PERIOD t, 0, 21⟩
def F.TIM_TOUTt_PERIOD_WIDTH (t : Nat) : Fld := ⟨R.TIM_TOUTt_PERIOD t, 0, 21⟩
def F.TIM_TOUTt_PERIOD_FINE (t : Nat) : Fld := ⟨R.TIM_TOUTt_PERIOD t, 0, 16⟩
def F.TIM_TOUTt_PHASE_PERIOD (t : Nat) : Fld := ⟨R.TIM_TOUTt_PHASE t, 0, 21⟩
def F.TIM_TOUTt_PHASE_PHASE (t : Nat) : Fld := ⟨R.TIM_TOUTt_PHASE t, 0, 21⟩
def F.TIM_TOUTt_PHASE_WIDTH (t : Nat) : Fld := ⟨R.TIM_TOUTt_PHASE t, 0, 21⟩
def F.TIM_TOUTt_PHASE_FINE (t : Nat) : Fld := ⟨R.TIM_TOUTt_PHASE t, 0, 16⟩
def F.TIM_TOUTt_WIDTH_PERIOD (t : Nat) : Fld := ⟨R.TIM_TOUTt_WIDTH t, 0, 21⟩
def F.TIM_TOUTt_WIDTH_PHASE (t : Nat) : Fld := ⟨R.TIM_TOUTt_WIDTH t, 0, 21⟩
def F.TIM_TOUTt_WIDTH_WIDTH (t : Nat) : Fld := ⟨R.TIM_TOUTt_WIDTH t, 0, 21⟩
def F.TIM_TOUTt_WIDTH_FINE (t : Nat) : Fld := ⟨R.TIM_TOUTt_WIDTH t, 0, 16⟩
def F.TIM_TOUTt_FINE_PERIOD (t : Nat) : Fld := ⟨R.TIM_TOUTt_FINE t, 0, 21⟩
def F.TIM_TOUTt_FINE_PHASE (t : Nat) : Fld := ⟨R.TIM_TOUTt_FINE t, 0, 21⟩
def F.TIM_TOUTt_FINE_WIDTH (t : Nat) : Fld := ⟨R.TIM_TOUTt_FINE t, 0, 21⟩
def F.TIM_TOUTt_FINE_FINE (t : Nat) : Fld := ⟨R.TIM_TOUTt_FINE t, 0, 16⟩
def F.AFF_CTRL_RNG_L : Fld := ⟨R.AFF_CTRL, 0, 4⟩
def F.AFF_STAT_SPARE_USED : Fld := ⟨R.AFF_STAT, 0, 8⟩
def F.AFF_STAT_BANK_LOST : Fld := ⟨R.AFF_STAT, 8, 8⟩
def F.AFF_STAT_SUBJ_CNT : Fld := ⟨R.AFF_STAT, 16, 16⟩
def F.AFF_ALERT_SLICE_FAIL : Fld := ⟨R.AFF_ALERT, 0, 1⟩
def F.AFF_ALERT_SPARE_FAIL : Fld := ⟨R.AFF_ALERT, 1, 1⟩
def F.AFF_ALERT_ILK_READBACK : Fld := ⟨R.AFF_ALERT, 2, 1⟩
def F.AFF_ALERT_ILK_TRIP : Fld := ⟨R.AFF_ALERT, 3, 1⟩
def F.AFF_ALERT_REARM_REFUSED : Fld := ⟨R.AFF_ALERT, 4, 1⟩
def F.AFF_ALERT_WR_REFUSED : Fld := ⟨R.AFF_ALERT, 5, 1⟩
def F.AFF_BANKb_CTRL_SPARE_MAN (b : Nat) : Fld := ⟨R.AFF_BANKb_CTRL b, 0, 1⟩
def F.AFF_BANKb_CTRL_MAN_INPUT (b : Nat) : Fld := ⟨R.AFF_BANKb_CTRL b, 8, 5⟩
def F.AFF_BANKb_STAT_SPARE_STATE (b : Nat) : Fld := ⟨R.AFF_BANKb_STAT b, 0, 2⟩
def F.AFF_BANKb_STAT_SPARE_INPUT (b : Nat) : Fld := ⟨R.AFF_BANKb_STAT b, 8, 5⟩
def F.AFF_BANKb_STAT_FAILED (b : Nat) : Fld := ⟨R.AFF_BANKb_STAT b, 16, 16⟩
def F.AFF_BANKb_FAIL_SLICE (b : Nat) : Fld := ⟨R.AFF_BANKb_FAIL b, 0, 25⟩
def F.AFF_BTUp_CFG_EN (p : Nat) : Fld := ⟨R.AFF_BTUp_CFG p, 0, 1⟩
def F.AFF_BTUp_CFG_PERSIST (p : Nat) : Fld := ⟨R.AFF_BTUp_CFG p, 1, 2⟩
def F.AFF_BTUp_CFG_OVR_TRIP (p : Nat) : Fld := ⟨R.AFF_BTUp_CFG p, 3, 1⟩
def F.AFF_BTUp_CFG_FAILSAFE (p : Nat) : Fld := ⟨R.AFF_BTUp_CFG p, 4, 1⟩
def F.AFF_BTUp_CFG_LATCH (p : Nat) : Fld := ⟨R.AFF_BTUp_CFG p, 5, 1⟩
def F.AFF_BTUp_CFG_NSRC (p : Nat) : Fld := ⟨R.AFF_BTUp_CFG p, 8, 2⟩
def F.AFF_BTUp_SRC_CH0 (p : Nat) : Fld := ⟨R.AFF_BTUp_SRC p, 0, 8⟩
def F.AFF_BTUp_SRC_CH1 (p : Nat) : Fld := ⟨R.AFF_BTUp_SRC p, 8, 8⟩
def F.AFF_BTUp_SRC_CH2 (p : Nat) : Fld := ⟨R.AFF_BTUp_SRC p, 16, 8⟩
def F.AFF_BTUp_SRC_CH3 (p : Nat) : Fld := ⟨R.AFF_BTUp_SRC p, 24, 8⟩
def F.AFF_BTUp_HI_VALUE (p : Nat) : Fld := ⟨R.AFF_BTUp_HI p, 0, 24⟩
def F.AFF_BTUp_LO_VALUE (p : Nat) : Fld := ⟨R.AFF_BTUp_LO p, 0, 24⟩
def F.AFF_BTUp_STAT_TRIPPED (p : Nat) : Fld := ⟨R.AFF_BTUp_STAT p, 0, 1⟩
def F.AFF_BTUp_STAT_CAUSE (p : Nat) : Fld := ⟨R.AFF_BTUp_STAT p, 1, 3⟩
def F.AFF_BTUp_STAT_SRC (p : Nat) : Fld := ⟨R.AFF_BTUp_STAT p, 4, 2⟩
def F.AFF_BTUp_STAT_TRIPS (p : Nat) : Fld := ⟨R.AFF_BTUp_STAT p, 16, 16⟩
def F.AFF_ILK_CTRL_REARM : Fld := ⟨R.AFF_ILK_CTRL, 0, 16⟩
def F.AFF_ILK_STAT_PIN : Fld := ⟨R.AFF_ILK_STAT, 0, 16⟩
def F.AFF_ILK_STAT_OUT : Fld := ⟨R.AFF_ILK_STAT, 16, 16⟩
def F.AFF_ILK_VOTE_CORE : Fld := ⟨R.AFF_ILK_VOTE, 0, 16⟩
def F.AFF_ILK_VOTE_BACKUP : Fld := ⟨R.AFF_ILK_VOTE, 16, 16⟩
def F.AFF_ILK_EN_EN : Fld := ⟨R.AFF_ILK_EN, 0, 16⟩
def F.AFF_ILKp_TSRC_MASK (p : Nat) : Fld := ⟨R.AFF_ILKp_TSRC p, 0, 16⟩
def F.CH_AFE_CTRL_EN (ch : Nat) : Fld := ⟨R.CH_AFE_CTRL ch, 0, 1⟩
def F.CH_AFE_CTRL_RNG_MODE (ch : Nat) : Fld := ⟨R.CH_AFE_CTRL ch, 1, 1⟩
def F.CH_AFE_CTRL_RNG_INIT (ch : Nat) : Fld := ⟨R.CH_AFE_CTRL ch, 4, 2⟩
def F.CH_AFE_CTRL_RNG_MIN (ch : Nat) : Fld := ⟨R.CH_AFE_CTRL ch, 8, 2⟩
def F.CH_AFE_CTRL_RNG_MAX (ch : Nat) : Fld := ⟨R.CH_AFE_CTRL ch, 12, 2⟩
def F.CH_AFE_CTRL_SRD_K (ch : Nat) : Fld := ⟨R.CH_AFE_CTRL ch, 16, 3⟩
def F.CH_AFE_CTRL_ACQ_ARM (ch : Nat) : Fld := ⟨R.CH_AFE_CTRL ch, 20, 1⟩
def F.CH_AFE_CTRL_ACQ_PEND (ch : Nat) : Fld := ⟨R.CH_AFE_CTRL ch, 21, 1⟩
def F.CH_AFE_CTRL_ACQ_UNIT (ch : Nat) : Fld := ⟨R.CH_AFE_CTRL ch, 24, 4⟩
def F.CH_AFE_TAP_TAP_USER (ch : Nat) : Fld := ⟨R.CH_AFE_TAP ch, 0, 9⟩
def F.CH_AFE_TAP_TAP_ACT (ch : Nat) : Fld := ⟨R.CH_AFE_TAP ch, 16, 9⟩
def F.CH_AFE_STAT_RANGE (ch : Nat) : Fld := ⟨R.CH_AFE_STAT ch, 0, 2⟩
def F.CH_AFE_STAT_SLICE (ch : Nat) : Fld := ⟨R.CH_AFE_STAT ch, 2, 5⟩
def F.CH_AFE_STAT_SUB (ch : Nat) : Fld := ⟨R.CH_AFE_STAT ch, 7, 1⟩
def F.CH_AFE_STAT_LOST (ch : Nat) : Fld := ⟨R.CH_AFE_STAT ch, 8, 1⟩
def F.CH_AFE_STAT_QUIET (ch : Nat) : Fld := ⟨R.CH_AFE_STAT ch, 9, 7⟩
def F.CH_AFE_STAT_OVR_CNT (ch : Nat) : Fld := ⟨R.CH_AFE_STAT ch, 16, 16⟩
def F.CH_AFE_LAST_X (ch : Nat) : Fld := ⟨R.CH_AFE_LAST ch, 0, 24⟩
def F.CH_AFE_LAST_RAW_R (ch : Nat) : Fld := ⟨R.CH_AFE_LAST ch, 24, 2⟩
def F.AFS_STAT_SC16_GRP : Fld := ⟨R.AFS_STAT, 0, 5⟩
def F.AFS_STAT_SC17_GRP : Fld := ⟨R.AFS_STAT, 8, 5⟩
def F.AFS_STAT_LOST : Fld := ⟨R.AFS_STAT, 16, 16⟩
def F.AFS_ALERT_CONV_FAIL : Fld := ⟨R.AFS_ALERT, 0, 1⟩
def F.AFS_ALERT_GROUP_LOST : Fld := ⟨R.AFS_ALERT, 1, 1⟩
def F.AFS_ALERT_EXC_FAULT : Fld := ⟨R.AFS_ALERT, 2, 1⟩
def F.AFS_ALERT_SCAN_OVERRUN : Fld := ⟨R.AFS_ALERT, 3, 1⟩
def F.AFS_ALERT_SCAN_ALIGN : Fld := ⟨R.AFS_ALERT, 4, 1⟩
def F.AFS_ALERT_WR_REFUSED : Fld := ⟨R.AFS_ALERT, 5, 1⟩
def F.AFS_CONV_FAIL_CONV : Fld := ⟨R.AFS_CONV_FAIL, 0, 18⟩
def F.AFS_GRPg_CFG_EN (g : Nat) : Fld := ⟨R.AFS_GRPg_CFG g, 0, 1⟩
def F.AFS_GRPg_CFG_START_SRC (g : Nat) : Fld := ⟨R.AFS_GRPg_CFG g, 1, 1⟩
def F.AFS_GRPg_CFG_EXC_MODE (g : Nat) : Fld := ⟨R.AFS_GRPg_CFG g, 2, 1⟩
def F.AFS_GRPg_PERIOD_S (g : Nat) : Fld := ⟨R.AFS_GRPg_PERIOD g, 0, 32⟩
def F.AFS_GRPg_IEXCA_CODE (g : Nat) : Fld := ⟨R.AFS_GRPg_IEXCA g, 0, 8⟩
def F.AFS_GRPg_IEXCB_CODE (g : Nat) : Fld := ⟨R.AFS_GRPg_IEXCB g, 0, 8⟩
def F.AFS_GRPg_VEXC_MV (g : Nat) : Fld := ⟨R.AFS_GRPg_VEXC g, 0, 13⟩
def F.AFS_GRPg_STAT_CONV (g : Nat) : Fld := ⟨R.AFS_GRPg_STAT g, 0, 5⟩
def F.AFS_GRPg_STAT_RUNNING (g : Nat) : Fld := ⟨R.AFS_GRPg_STAT g, 5, 1⟩
def F.AFS_GRPg_STAT_EXC_FAULT (g : Nat) : Fld := ⟨R.AFS_GRPg_STAT g, 6, 3⟩
def F.AFS_GRPg_STAT_OVERRUN (g : Nat) : Fld := ⟨R.AFS_GRPg_STAT g, 16, 16⟩
def F.AFS_GRPg_SCAN_LO_TICK (g : Nat) : Fld := ⟨R.AFS_GRPg_SCAN_LO g, 0, 32⟩
def F.AFS_GRPg_SCAN_HI_TICK (g : Nat) : Fld := ⟨R.AFS_GRPg_SCAN_HI g, 0, 32⟩
def F.CH_SIN_CFG_EN (ch : Nat) : Fld := ⟨R.CH_SIN_CFG ch, 0, 1⟩
def F.CH_SIN_CFG_GAIN (ch : Nat) : Fld := ⟨R.CH_SIN_CFG ch, 1, 3⟩
def F.CH_SIN_CFG_REF (ch : Nat) : Fld := ⟨R.CH_SIN_CFG ch, 4, 2⟩
def F.CH_SIN_CFG_WIN (ch : Nat) : Fld := ⟨R.CH_SIN_CFG ch, 6, 3⟩
def F.CH_SIN_CFG_POLY_EN (ch : Nat) : Fld := ⟨R.CH_SIN_CFG ch, 9, 1⟩
def F.CH_SIN_CFG_POLY_SRC (ch : Nat) : Fld := ⟨R.CH_SIN_CFG ch, 10, 1⟩
def F.CH_SIN_CFG_TSRC_EN (ch : Nat) : Fld := ⟨R.CH_SIN_CFG ch, 11, 1⟩
def F.CH_SIN_SLOT_DSCH (ch : Nat) : Fld := ⟨R.CH_SIN_SLOT ch, 0, 8⟩
def F.CH_SIN_SLOT_SETTLE (ch : Nat) : Fld := ⟨R.CH_SIN_SLOT ch, 8, 18⟩
def F.CH_SIN_BO_BO_I (ch : Nat) : Fld := ⟨R.CH_SIN_BO ch, 0, 2⟩
def F.CH_SIN_BO_BO_T (ch : Nat) : Fld := ⟨R.CH_SIN_BO ch, 2, 6⟩
def F.CH_SIN_BO_BO_THR (ch : Nat) : Fld := ⟨R.CH_SIN_BO ch, 8, 12⟩
def F.CH_SIN_EXC_USE_A (ch : Nat) : Fld := ⟨R.CH_SIN_EXC ch, 0, 1⟩
def F.CH_SIN_EXC_USE_B (ch : Nat) : Fld := ⟨R.CH_SIN_EXC ch, 1, 1⟩
def F.CH_SIN_EXC_USE_V (ch : Nat) : Fld := ⟨R.CH_SIN_EXC ch, 2, 1⟩
def F.CH_SIN_TSRC_CH (ch : Nat) : Fld := ⟨R.CH_SIN_TSRC ch, 0, 9⟩
def F.CH_SIN_TDEF_T (ch : Nat) : Fld := ⟨R.CH_SIN_TDEF ch, 0, 32⟩
def F.CH_SIN_STAT_SLOT_TICKS (ch : Nat) : Fld := ⟨R.CH_SIN_STAT ch, 0, 19⟩
def F.CH_SIN_STAT_OPEN (ch : Nat) : Fld := ⟨R.CH_SIN_STAT ch, 19, 1⟩
def F.CH_SIN_STAT_EXC_FAULT (ch : Nat) : Fld := ⟨R.CH_SIN_STAT ch, 20, 1⟩
def F.CH_SIN_STAT_SUB (ch : Nat) : Fld := ⟨R.CH_SIN_STAT ch, 21, 1⟩
def F.CH_SIN_STAT_LOST (ch : Nat) : Fld := ⟨R.CH_SIN_STAT ch, 22, 1⟩
def F.CH_SIN_STAT_T_INV (ch : Nat) : Fld := ⟨R.CH_SIN_STAT ch, 23, 1⟩
def F.CH_SIN_LAST_WORD (ch : Nat) : Fld := ⟨R.CH_SIN_LAST ch, 0, 32⟩
def F.CH_SIN_ENG_Y (ch : Nat) : Fld := ⟨R.CH_SIN_ENG ch, 0, 32⟩
def F.CH_SIN_TAG_LO_TICK (ch : Nat) : Fld := ⟨R.CH_SIN_TAG_LO ch, 0, 32⟩
def F.CH_SIN_TAG_HI_TICK (ch : Nat) : Fld := ⟨R.CH_SIN_TAG_HI ch, 0, 32⟩
def F.CH_SIN_POLYk_IDX_I (ch k : Nat) : Fld := ⟨R.CH_SIN_POLYk_IDX ch k, 0, 3⟩
def F.CH_SIN_POLYk_IDX_J (ch k : Nat) : Fld := ⟨R.CH_SIN_POLYk_IDX ch k, 4, 2⟩
def F.CH_SIN_POLYk_IDX_VALID (ch k : Nat) : Fld := ⟨R.CH_SIN_POLYk_IDX ch k, 7, 1⟩
def F.CH_SIN_POLYk_C_C (ch k : Nat) : Fld := ⟨R.CH_SIN_POLYk_C ch k, 0, 32⟩
def F.SID_CTRL_WB_NOW : Fld := ⟨R.SID_CTRL, 0, 1⟩
def F.SID_CTRL_POLL_EN : Fld := ⟨R.SID_CTRL, 1, 1⟩
def F.SID_ALERT_NEW : Fld := ⟨R.SID_ALERT, 0, 1⟩
def F.SID_ALERT_ABSENT : Fld := ⟨R.SID_ALERT, 1, 1⟩
def F.SID_ALERT_WARN : Fld := ⟨R.SID_ALERT, 2, 1⟩
def F.SID_ALERT_END : Fld := ⟨R.SID_ALERT, 3, 1⟩
def F.SID_ALERT_TEDS_ERR : Fld := ⟨R.SID_ALERT, 4, 1⟩
def F.SID_ALERT_WB_FAIL : Fld := ⟨R.SID_ALERT, 5, 1⟩
def F.SID_ALERT_WR_REFUSED : Fld := ⟨R.SID_ALERT, 6, 1⟩
def F.CH_SID_CFG_LIFE_EN (ch : Nat) : Fld := ⟨R.CH_SID_CFG ch, 0, 1⟩
def F.CH_SID_CFG_TCH (ch : Nat) : Fld := ⟨R.CH_SID_CFG ch, 8, 9⟩
def F.CH_SID_STAT_PRESENT (ch : Nat) : Fld := ⟨R.CH_SID_STAT ch, 0, 1⟩
def F.CH_SID_STAT_TEMPLATE (ch : Nat) : Fld := ⟨R.CH_SID_STAT ch, 1, 1⟩
def F.CH_SID_STAT_STATE (ch : Nat) : Fld := ⟨R.CH_SID_STAT ch, 2, 2⟩
def F.CH_SID_STAT_NO_IDLE (ch : Nat) : Fld := ⟨R.CH_SID_STAT ch, 4, 1⟩
def F.CH_SID_STAT_LIFE (ch : Nat) : Fld := ⟨R.CH_SID_STAT ch, 16, 16⟩
def F.CH_SID_ROM_LO_VALUE (ch : Nat) : Fld := ⟨R.CH_SID_ROM_LO ch, 0, 32⟩
def F.CH_SID_ROM_HI_VALUE (ch : Nat) : Fld := ⟨R.CH_SID_ROM_HI ch, 0, 32⟩
def F.CH_SID_TIME_VALUE (ch : Nat) : Fld := ⟨R.CH_SID_TIME ch, 0, 32⟩
def F.CH_SID_CYCLES_VALUE (ch : Nat) : Fld := ⟨R.CH_SID_CYCLES ch, 0, 32⟩
def F.CH_SID_CHARGE_VALUE (ch : Nat) : Fld := ⟨R.CH_SID_CHARGE ch, 0, 32⟩
def F.CH_SID_OVR_VALUE (ch : Nat) : Fld := ⟨R.CH_SID_OVR ch, 0, 32⟩
def F.FLT_STAT_BUDGET : Fld := ⟨R.FLT_STAT, 0, 10⟩
def F.FLT_STAT_SAT_CNT : Fld := ⟨R.FLT_STAT, 16, 16⟩
def F.FLT_ALERT_WR_REFUSED : Fld := ⟨R.FLT_ALERT, 0, 1⟩
def F.FLT_ALERT_SYNC_LATE : Fld := ⟨R.FLT_ALERT, 1, 1⟩
def F.FLT_ALERT_BUDGET : Fld := ⟨R.FLT_ALERT, 2, 1⟩
def F.FLT_ALERT_SAT : Fld := ⟨R.FLT_ALERT, 3, 1⟩
def F.FLT_SYNC_CTRL_ARM : Fld := ⟨R.FLT_SYNC_CTRL, 0, 1⟩
def F.FLT_SYNC_CTRL_DISARM : Fld := ⟨R.FLT_SYNC_CTRL, 1, 1⟩
def F.FLT_SYNC_TICK_LO_TICK : Fld := ⟨R.FLT_SYNC_TICK_LO, 0, 32⟩
def F.FLT_SYNC_TICK_HI_TICK : Fld := ⟨R.FLT_SYNC_TICK_HI, 0, 32⟩
def F.FLT_SYNC_STAT_ARMED : Fld := ⟨R.FLT_SYNC_STAT, 0, 1⟩
def F.FLT_SYNC_STAT_ERR_LATE : Fld := ⟨R.FLT_SYNC_STAT, 1, 1⟩
def F.FLT_FARROW_IDX_IDX : Fld := ⟨R.FLT_FARROW_IDX, 0, 5⟩
def F.FLT_FARROW_DATA_F : Fld := ⟨R.FLT_FARROW_DATA, 0, 20⟩
def F.CH_FLT_CFG_W (ch : Nat) : Fld := ⟨R.CH_FLT_CFG ch, 0, 4⟩
def F.CH_FLT_CFG_RANK (ch : Nat) : Fld := ⟨R.CH_FLT_CFG ch, 4, 4⟩
def F.CH_FLT_CFG_N (ch : Nat) : Fld := ⟨R.CH_FLT_CFG ch, 8, 3⟩
def F.CH_FLT_CFG_DFIR (ch : Nat) : Fld := ⟨R.CH_FLT_CFG ch, 11, 1⟩
def F.CH_FLT_CFG_SKEW_EN (ch : Nat) : Fld := ⟨R.CH_FLT_CFG ch, 12, 1⟩
def F.CH_FLT_CFG_NNOTCH (ch : Nat) : Fld := ⟨R.CH_FLT_CFG ch, 13, 3⟩
def F.CH_FLT_CFG_L (ch : Nat) : Fld := ⟨R.CH_FLT_CFG ch, 16, 7⟩
def F.CH_FLT_CFG_RED_EN (ch : Nat) : Fld := ⟨R.CH_FLT_CFG ch, 24, 1⟩
def F.CH_FLT_CFG_SYNC_CMD (ch : Nat) : Fld := ⟨R.CH_FLT_CFG ch, 25, 1⟩
def F.CH_FLT_CFG_SYNC_BUS (ch : Nat) : Fld := ⟨R.CH_FLT_CFG ch, 26, 1⟩
def F.CH_FLT_CFG_SYNC_TCMP (ch : Nat) : Fld := ⟨R.CH_FLT_CFG ch, 27, 1⟩
def F.CH_FLT_CFG_SYNC_UNIT (ch : Nat) : Fld := ⟨R.CH_FLT_CFG ch, 28, 4⟩
def F.CH_FLT_DCIC_D (ch : Nat) : Fld := ⟨R.CH_FLT_DCIC ch, 0, 10⟩
def F.CH_FLT_DCIC_S (ch : Nat) : Fld := ⟨R.CH_FLT_DCIC ch, 16, 6⟩
def F.CH_FLT_NSET_NSET (ch : Nat) : Fld := ⟨R.CH_FLT_NSET ch, 0, 8⟩
def F.CH_FLT_DB_DB (ch : Nat) : Fld := ⟨R.CH_FLT_DB ch, 0, 24⟩
def F.CH_FLT_M_M (ch : Nat) : Fld := ⟨R.CH_FLT_M ch, 0, 16⟩
def F.CH_FLT_GD_GD2 (ch : Nat) : Fld := ⟨R.CH_FLT_GD ch, 0, 23⟩
def F.CH_FLT_P_P (ch : Nat) : Fld := ⟨R.CH_FLT_P ch, 0, 17⟩
def F.CH_FLT_U_U (ch : Nat) : Fld := ⟨R.CH_FLT_U ch, 0, 16⟩
def F.CH_FLT_U_LEFT (ch : Nat) : Fld := ⟨R.CH_FLT_U ch, 16, 16⟩
def F.CH_FLT_SKEW_MU (ch : Nat) : Fld := ⟨R.CH_FLT_SKEW ch, 0, 17⟩
def F.CH_FLT_COST_COST (ch : Nat) : Fld := ⟨R.CH_FLT_COST ch, 0, 16⟩
def F.CH_FLT_FIRc_H (ch c : Nat) : Fld := ⟨R.CH_FLT_FIRc ch c, 0, 20⟩
def F.CH_FLT_Nq_B0_C (ch q : Nat) : Fld := ⟨R.CH_FLT_Nq_B0 ch q, 0, 28⟩
def F.CH_FLT_Nq_B1_C (ch q : Nat) : Fld := ⟨R.CH_FLT_Nq_B1 ch q, 0, 28⟩
def F.CH_FLT_Nq_B2_C (ch q : Nat) : Fld := ⟨R.CH_FLT_Nq_B2 ch q, 0, 28⟩
def F.CH_FLT_Nq_A1_C (ch q : Nat) : Fld := ⟨R.CH_FLT_Nq_A1 ch q, 0, 28⟩
def F.CH_FLT_Nq_A2_C (ch q : Nat) : Fld := ⟨R.CH_FLT_Nq_A2 ch q, 0, 28⟩
def F.CH_SLW_CFG_MED (ch : Nat) : Fld := ⟨R.CH_SLW_CFG ch, 0, 2⟩
def F.CH_SLW_CFG_RED_EN (ch : Nat) : Fld := ⟨R.CH_SLW_CFG ch, 4, 1⟩
def F.CH_SLW_DB_DB (ch : Nat) : Fld := ⟨R.CH_SLW_DB ch, 0, 24⟩
def F.CH_SLW_M_M (ch : Nat) : Fld := ⟨R.CH_SLW_M ch, 0, 16⟩
def F.TRG_CTRL_MODE : Fld := ⟨R.TRG_CTRL, 0, 2⟩
def F.TRG_CTRL_BUS_LAT : Fld := ⟨R.TRG_CTRL, 8, 4⟩
def F.TRG_STAT_WIN_FREE : Fld := ⟨R.TRG_STAT, 0, 9⟩
def F.TRG_STAT_HELD : Fld := ⟨R.TRG_STAT, 16, 5⟩
def F.TRG_ALERT_DROPPED : Fld := ⟨R.TRG_ALERT, 0, 1⟩
def F.TRG_ALERT_AUTO : Fld := ⟨R.TRG_ALERT, 1, 1⟩
def F.TRG_ALERT_NSP_REFUSED : Fld := ⟨R.TRG_ALERT, 2, 1⟩
def F.TRG_ALERT_BUS_LATE : Fld := ⟨R.TRG_ALERT, 3, 1⟩
def F.TRG_ALERT_WR_REFUSED : Fld := ⟨R.TRG_ALERT, 4, 1⟩
def F.TRG_AUTO_VALUE : Fld := ⟨R.TRG_AUTO, 0, 22⟩
def F.TRG_REARM_VALUE : Fld := ⟨R.TRG_REARM, 0, 24⟩
def F.TRG_CNDc_CFG_TYPE (c : Nat) : Fld := ⟨R.TRG_CNDc_CFG c, 0, 4⟩
def F.TRG_CNDc_CFG_SRC (c : Nat) : Fld := ⟨R.TRG_CNDc_CFG c, 4, 1⟩
def F.TRG_CNDc_CFG_DIR (c : Nat) : Fld := ⟨R.TRG_CNDc_CFG c, 5, 2⟩
def F.TRG_CNDc_CFG_CH (c : Nat) : Fld := ⟨R.TRG_CNDc_CFG c, 8, 9⟩
def F.TRG_CNDc_CFG_FLAGS (c : Nat) : Fld := ⟨R.TRG_CNDc_CFG c, 17, 5⟩
def F.TRG_CNDc_CFG_SEL (c : Nat) : Fld := ⟨R.TRG_CNDc_CFG c, 24, 8⟩
def F.TRG_CNDc_A_VALUE (c : Nat) : Fld := ⟨R.TRG_CNDc_A c, 0, 24⟩
def F.TRG_CNDc_B_VALUE (c : Nat) : Fld := ⟨R.TRG_CNDc_B c, 0, 24⟩
def F.TRG_CNDc_D_D (c : Nat) : Fld := ⟨R.TRG_CNDc_D c, 0, 8⟩
def F.TRG_CNDc_D_COUNT (c : Nat) : Fld := ⟨R.TRG_CNDc_D c, 8, 8⟩
def F.TRG_CNDc_STAT_STATE (c : Nat) : Fld := ⟨R.TRG_CNDc_STAT c, 0, 1⟩
def F.TRG_CNDc_STAT_TRUES (c : Nat) : Fld := ⟨R.TRG_CNDc_STAT c, 16, 16⟩
def F.TRG_SRCq_CTRL_ARM (q : Nat) : Fld := ⟨R.TRG_SRCq_CTRL q, 0, 1⟩
def F.TRG_SRCq_CTRL_DISARM (q : Nat) : Fld := ⟨R.TRG_SRCq_CTRL q, 1, 1⟩
def F.TRG_SRCq_CTRL_ARMED (q : Nat) : Fld := ⟨R.TRG_SRCq_CTRL q, 2, 1⟩
def F.TRG_SRCq_CTRL_MODE (q : Nat) : Fld := ⟨R.TRG_SRCq_CTRL q, 3, 1⟩
def F.TRG_SRCq_CTRL_COMB (q : Nat) : Fld := ⟨R.TRG_SRCq_CTRL q, 4, 2⟩
def F.TRG_SRCq_CTRL_K (q : Nat) : Fld := ⟨R.TRG_SRCq_CTRL q, 8, 3⟩
def F.TRG_SRCq_CTRL_NCND (q : Nat) : Fld := ⟨R.TRG_SRCq_CTRL q, 12, 3⟩
def F.TRG_SRCq_CTRL_AUTO_EN (q : Nat) : Fld := ⟨R.TRG_SRCq_CTRL q, 16, 1⟩
def F.TRG_SRCq_CTRL_BUS_OUT (q : Nat) : Fld := ⟨R.TRG_SRCq_CTRL q, 17, 1⟩
def F.TRG_SRCq_CTRL_LINE (q : Nat) : Fld := ⟨R.TRG_SRCq_CTRL q, 20, 3⟩
def F.TRG_SRCq_CND0_IDX0 (q : Nat) : Fld := ⟨R.TRG_SRCq_CND0 q, 0, 6⟩
def F.TRG_SRCq_CND0_IDX1 (q : Nat) : Fld := ⟨R.TRG_SRCq_CND0 q, 8, 6⟩
def F.TRG_SRCq_CND0_IDX2 (q : Nat) : Fld := ⟨R.TRG_SRCq_CND0 q, 16, 6⟩
def F.TRG_SRCq_CND0_IDX3 (q : Nat) : Fld := ⟨R.TRG_SRCq_CND0 q, 24, 6⟩
def F.TRG_SRCq_CND1_IDX0 (q : Nat) : Fld := ⟨R.TRG_SRCq_CND1 q, 0, 6⟩
def F.TRG_SRCq_CND1_IDX1 (q : Nat) : Fld := ⟨R.TRG_SRCq_CND1 q, 8, 6⟩
def F.TRG_SRCq_CND1_IDX2 (q : Nat) : Fld := ⟨R.TRG_SRCq_CND1 q, 16, 6⟩
def F.TRG_SRCq_CND1_IDX3 (q : Nat) : Fld := ⟨R.TRG_SRCq_CND1 q, 24, 6⟩
def F.TRG_SRCq_HOLDOFF_VALUE (q : Nat) : Fld := ⟨R.TRG_SRCq_HOLDOFF q, 0, 32⟩
def F.TRG_SRCq_PRE_VALUE (q : Nat) : Fld := ⟨R.TRG_SRCq_PRE q, 0, 32⟩
def F.TRG_SRCq_POST_VALUE (q : Nat) : Fld := ⟨R.TRG_SRCq_POST q, 0, 32⟩
def F.TRG_SRCq_TGT_STREAM (q : Nat) : Fld := ⟨R.TRG_SRCq_TGT q, 0, 4⟩
def F.TRG_SRCq_TGT_FORM (q : Nat) : Fld := ⟨R.TRG_SRCq_TGT q, 4, 2⟩
def F.TRG_SRCq_TGT_RATIO (q : Nat) : Fld := ⟨R.TRG_SRCq_TGT q, 8, 3⟩
def F.TRG_SRCq_TGT_START (q : Nat) : Fld := ⟨R.TRG_SRCq_TGT q, 12, 1⟩
def F.TRG_SRCq_STAT_FIRES (q : Nat) : Fld := ⟨R.TRG_SRCq_STAT q, 0, 16⟩
def F.TRG_SRCq_STAT_DROPS (q : Nat) : Fld := ⟨R.TRG_SRCq_STAT q, 16, 16⟩
def F.TRG_SRCq_MASKw_MASK (q w : Nat) : Fld := ⟨R.TRG_SRCq_MASKw q w, 0, 32⟩
def F.HST_REGIONS_RAW : Fld := ⟨R.HST_REGIONS, 0, 8⟩
def F.HST_REGIONS_STREAM : Fld := ⟨R.HST_REGIONS, 8, 8⟩
def F.HST_REGIONS_AUX : Fld := ⟨R.HST_REGIONS, 16, 8⟩
def F.HST_REGIONS_JOB : Fld := ⟨R.HST_REGIONS, 24, 8⟩
def F.HST_PIN_MAX_VALUE : Fld := ⟨R.HST_PIN_MAX, 0, 14⟩
def F.HST_STAT_WINDOWS : Fld := ⟨R.HST_STAT, 0, 9⟩
def F.HST_STAT_PINPCT : Fld := ⟨R.HST_STAT, 16, 16⟩
def F.HST_ALERT_PIN_LIMIT : Fld := ⟨R.HST_ALERT, 0, 1⟩
def F.HST_ALERT_CLAMPED : Fld := ⟨R.HST_ALERT, 1, 1⟩
def F.HST_ALERT_LATE : Fld := ⟨R.HST_ALERT, 2, 1⟩
def F.HST_ALERT_JOB_FAIL : Fld := ⟨R.HST_ALERT, 3, 1⟩
def F.HST_ALERT_WR_REFUSED : Fld := ⟨R.HST_ALERT, 4, 1⟩
def F.HST_ALERT_CFG_REFUSED : Fld := ⟨R.HST_ALERT, 5, 1⟩
def F.HST_RAW_TICKS_VALUE : Fld := ⟨R.HST_RAW_TICKS, 0, 32⟩
def F.HST_PINNED_VALUE : Fld := ⟨R.HST_PINNED, 0, 32⟩
def F.HST_PIN_LIMIT_VALUE : Fld := ⟨R.HST_PIN_LIMIT, 0, 32⟩
def F.HST_OLDEST_LO_TICK : Fld := ⟨R.HST_OLDEST_LO, 0, 32⟩
def F.HST_OLDEST_HI_TICK : Fld := ⟨R.HST_OLDEST_HI, 0, 32⟩
def F.HST_DRAM_TEMP : Fld := ⟨R.HST_DRAM, 0, 8⟩
def F.HST_DRAM_REFI : Fld := ⟨R.HST_DRAM, 8, 2⟩
def F.HST_DRAM_PPR_USED : Fld := ⟨R.HST_DRAM, 16, 16⟩
def F.HST_WINd_CTRL_READ (d : Nat) : Fld := ⟨R.HST_WINd_CTRL d, 0, 1⟩
def F.HST_WINd_CTRL_CANCEL (d : Nat) : Fld := ⟨R.HST_WINd_CTRL d, 1, 1⟩
def F.HST_WINd_STAT_STATE (d : Nat) : Fld := ⟨R.HST_WINd_STAT d, 0, 3⟩
def F.HST_WINd_STAT_SRC (d : Nat) : Fld := ⟨R.HST_WINd_STAT d, 4, 4⟩
def F.HST_WINd_STAT_LATE (d : Nat) : Fld := ⟨R.HST_WINd_STAT d, 8, 1⟩
def F.HST_WINd_STAT_CLAMPED (d : Nat) : Fld := ⟨R.HST_WINd_STAT d, 9, 1⟩
def F.HST_WINd_STAT_AUTO (d : Nat) : Fld := ⟨R.HST_WINd_STAT d, 10, 1⟩
def F.HST_WINd_STAT_FORM (d : Nat) : Fld := ⟨R.HST_WINd_STAT d, 12, 2⟩
def F.HST_WINd_CUT_LO_TICK (d : Nat) : Fld := ⟨R.HST_WINd_CUT_LO d, 0, 32⟩
def F.HST_WINd_CUT_HI_TICK (d : Nat) : Fld := ⟨R.HST_WINd_CUT_HI d, 0, 32⟩
def F.CMP_CTRL_KMAX : Fld := ⟨R.CMP_CTRL, 0, 5⟩
def F.CMP_STAT_QUEUED : Fld := ⟨R.CMP_STAT, 0, 9⟩
def F.CMP_STAT_E0_BUSY : Fld := ⟨R.CMP_STAT, 12, 1⟩
def F.CMP_STAT_E1_BUSY : Fld := ⟨R.CMP_STAT, 13, 1⟩
def F.CMP_STAT_D_BUSY : Fld := ⟨R.CMP_STAT, 14, 1⟩
def F.CMP_STAT_FAILS : Fld := ⟨R.CMP_STAT, 16, 16⟩
def F.CMP_ALERT_KMAX : Fld := ⟨R.CMP_ALERT, 0, 1⟩
def F.CMP_ALERT_FAIL : Fld := ⟨R.CMP_ALERT, 1, 1⟩
def F.CMP_ALERT_PARITY : Fld := ⟨R.CMP_ALERT, 2, 1⟩
def F.CMP_ALERT_WR_REFUSED : Fld := ⟨R.CMP_ALERT, 3, 1⟩
def F.CMP_WIN_POOL_MIB : Fld := ⟨R.CMP_WIN_POOL, 0, 12⟩
def F.CMP_POOL_FREE_KIB : Fld := ⟨R.CMP_POOL_FREE, 0, 32⟩
def F.CMP_JOBj_CTRL_OP (j : Nat) : Fld := ⟨R.CMP_JOBj_CTRL j, 0, 2⟩
def F.CMP_JOBj_CTRL_RATIO (j : Nat) : Fld := ⟨R.CMP_JOBj_CTRL j, 4, 3⟩
def F.CMP_JOBj_CTRL_START (j : Nat) : Fld := ⟨R.CMP_JOBj_CTRL j, 8, 1⟩
def F.CMP_JOBj_CTRL_ABORT (j : Nat) : Fld := ⟨R.CMP_JOBj_CTRL j, 9, 1⟩
def F.CMP_JOBj_IN_OFS (j : Nat) : Fld := ⟨R.CMP_JOBj_IN j, 0, 32⟩
def F.CMP_JOBj_OUT_OFS (j : Nat) : Fld := ⟨R.CMP_JOBj_OUT j, 0, 32⟩
def F.CMP_JOBj_IN_LEN_WORDS (j : Nat) : Fld := ⟨R.CMP_JOBj_IN_LEN j, 0, 32⟩
def F.CMP_JOBj_OUT_LEN_WORDS (j : Nat) : Fld := ⟨R.CMP_JOBj_OUT_LEN j, 0, 32⟩
def F.CMP_JOBj_STAT_STATE (j : Nat) : Fld := ⟨R.CMP_JOBj_STAT j, 0, 3⟩
def F.CMP_JOBj_STAT_ERR (j : Nat) : Fld := ⟨R.CMP_JOBj_STAT j, 4, 4⟩
def F.CMP_JOBj_STAT_RESULT (j : Nat) : Fld := ⟨R.CMP_JOBj_STAT j, 8, 2⟩
def F.CMP_JOBj_STAT_KSEEN (j : Nat) : Fld := ⟨R.CMP_JOBj_STAT j, 10, 5⟩
def F.CMP_JOBj_STAT_MERGED (j : Nat) : Fld := ⟨R.CMP_JOBj_STAT j, 15, 1⟩
def F.CMP_JOBj_STAT_FAIL_CH (j : Nat) : Fld := ⟨R.CMP_JOBj_STAT j, 16, 9⟩
def F.CMP_JOBj_STAT_WIN (j : Nat) : Fld := ⟨R.CMP_JOBj_STAT j, 25, 1⟩
def F.CMP_JOBj_BLOCKS_DONE (j : Nat) : Fld := ⟨R.CMP_JOBj_BLOCKS j, 0, 32⟩
def F.CMP_JOBj_COMMIT_WORDS (j : Nat) : Fld := ⟨R.CMP_JOBj_COMMIT j, 0, 32⟩
def F.NSP_CTRL_MODE : Fld := ⟨R.NSP_CTRL, 0, 2⟩
def F.NSP_CTRL_PREF : Fld := ⟨R.NSP_CTRL, 4, 1⟩
def F.NSP_STAT_ACTIVE : Fld := ⟨R.NSP_STAT, 0, 1⟩
def F.NSP_STAT_LINK_A : Fld := ⟨R.NSP_STAT, 1, 1⟩
def F.NSP_STAT_LINK_B : Fld := ⟨R.NSP_STAT, 2, 1⟩
def F.NSP_STAT_OOS_A : Fld := ⟨R.NSP_STAT, 3, 1⟩
def F.NSP_STAT_OOS_B : Fld := ⟨R.NSP_STAT, 4, 1⟩
def F.NSP_STAT_RETX : Fld := ⟨R.NSP_STAT, 5, 11⟩
def F.NSP_STAT_SESSIONS : Fld := ⟨R.NSP_STAT, 16, 3⟩
def F.NSP_ALERT_LINK_LOSS : Fld := ⟨R.NSP_ALERT, 0, 1⟩
def F.NSP_ALERT_FAILOVER : Fld := ⟨R.NSP_ALERT, 1, 1⟩
def F.NSP_ALERT_OVERWRITE : Fld := ⟨R.NSP_ALERT, 2, 1⟩
def F.NSP_ALERT_RETX_FULL : Fld := ⟨R.NSP_ALERT, 3, 1⟩
def F.NSP_ALERT_AUTH_FAIL : Fld := ⟨R.NSP_ALERT, 4, 1⟩
def F.NSP_ALERT_NO_STREAM : Fld := ⟨R.NSP_ALERT, 5, 1⟩
def F.NSP_ALERT_CFG_REFUSED : Fld := ⟨R.NSP_ALERT, 6, 1⟩
def F.NSP_ALERT_WR_REFUSED : Fld := ⟨R.NSP_ALERT, 7, 1⟩
def F.NSP_DGRAM_PAYLOAD : Fld := ⟨R.NSP_DGRAM, 0, 14⟩
def F.NSP_BOOT_BOOT : Fld := ⟨R.NSP_BOOT, 0, 16⟩
def F.NSP_KEY_VALID : Fld := ⟨R.NSP_KEY, 0, 4⟩
def F.NSP_KEY_REVOKED : Fld := ⟨R.NSP_KEY, 4, 4⟩
def F.NSP_KEY_REVOKE : Fld := ⟨R.NSP_KEY, 8, 4⟩
def F.NSP_MGMT_CNT_DROPPED : Fld := ⟨R.NSP_MGMT_CNT, 0, 16⟩
def F.NSP_MGMT_CNT_REFUSED : Fld := ⟨R.NSP_MGMT_CNT, 16, 16⟩
def F.NSP_UPx_CFG_EN (x : Nat) : Fld := ⟨R.NSP_UPx_CFG x, 0, 1⟩
def F.NSP_UPx_CFG_SPEED (x : Nat) : Fld := ⟨R.NSP_UPx_CFG x, 1, 2⟩
def F.NSP_UPx_CFG_FEC (x : Nat) : Fld := ⟨R.NSP_UPx_CFG x, 3, 2⟩
def F.NSP_UPx_CFG_VLAN_EN (x : Nat) : Fld := ⟨R.NSP_UPx_CFG x, 5, 1⟩
def F.NSP_UPx_CFG_PCP (x : Nat) : Fld := ⟨R.NSP_UPx_CFG x, 8, 3⟩
def F.NSP_UPx_CFG_MTU (x : Nat) : Fld := ⟨R.NSP_UPx_CFG x, 14, 14⟩
def F.NSP_UPx_STAT_LINK (x : Nat) : Fld := ⟨R.NSP_UPx_STAT x, 0, 1⟩
def F.NSP_UPx_STAT_SPEED (x : Nat) : Fld := ⟨R.NSP_UPx_STAT x, 1, 1⟩
def F.NSP_UPx_STAT_FEC (x : Nat) : Fld := ⟨R.NSP_UPx_STAT x, 2, 2⟩
def F.NSP_UPx_STAT_OOS (x : Nat) : Fld := ⟨R.NSP_UPx_STAT x, 4, 1⟩
def F.NSP_UPx_STAT_RX_ERR (x : Nat) : Fld := ⟨R.NSP_UPx_STAT x, 16, 16⟩
def F.NSP_STRm_CFG_KIND (m : Nat) : Fld := ⟨R.NSP_STRm_CFG m, 0, 2⟩
def F.NSP_STRm_CFG_ACK (m : Nat) : Fld := ⟨R.NSP_STRm_CFG m, 2, 1⟩
def F.NSP_STRm_CFG_PORT (m : Nat) : Fld := ⟨R.NSP_STRm_CFG m, 3, 1⟩
def F.NSP_STRm_CFG_V6 (m : Nat) : Fld := ⟨R.NSP_STRm_CFG m, 4, 1⟩
def F.NSP_STRm_CFG_DST_PORT (m : Nat) : Fld := ⟨R.NSP_STRm_CFG m, 16, 16⟩
def F.NSP_STRm_DST0_ADDR (m : Nat) : Fld := ⟨R.NSP_STRm_DST0 m, 0, 32⟩
def F.NSP_STRm_DST1_ADDR (m : Nat) : Fld := ⟨R.NSP_STRm_DST1 m, 0, 32⟩
def F.NSP_STRm_DST2_ADDR (m : Nat) : Fld := ⟨R.NSP_STRm_DST2 m, 0, 32⟩
def F.NSP_STRm_DST3_ADDR (m : Nat) : Fld := ⟨R.NSP_STRm_DST3 m, 0, 32⟩
def F.NSP_STRm_SPACE_UNITS (m : Nat) : Fld := ⟨R.NSP_STRm_SPACE m, 0, 8⟩
def F.NSP_STRm_RATE_MBPS (m : Nat) : Fld := ⟨R.NSP_STRm_RATE m, 0, 15⟩
def F.NSP_STRm_BURST_KIB (m : Nat) : Fld := ⟨R.NSP_STRm_BURST m, 0, 13⟩
def F.NSP_STRm_SEQ_LO_SEQ (m : Nat) : Fld := ⟨R.NSP_STRm_SEQ_LO m, 0, 32⟩
def F.NSP_STRm_SEQ_HI_SEQ (m : Nat) : Fld := ⟨R.NSP_STRm_SEQ_HI m, 0, 16⟩
def F.NSP_STRm_REL_LO_SEQ (m : Nat) : Fld := ⟨R.NSP_STRm_REL_LO m, 0, 32⟩
def F.NSP_STRm_REL_HI_SEQ (m : Nat) : Fld := ⟨R.NSP_STRm_REL_HI m, 0, 16⟩
def F.NSP_STRm_STAT_BACKLOG (m : Nat) : Fld := ⟨R.NSP_STRm_STAT m, 0, 20⟩
def F.NSP_STRm_LOST_LOST (m : Nat) : Fld := ⟨R.NSP_STRm_LOST m, 0, 32⟩
def F.CH_NSP_CFG_FAST_STREAM (ch : Nat) : Fld := ⟨R.CH_NSP_CFG_FAST ch, 0, 4⟩
def F.CH_NSP_CFG_SLOW_STREAM (ch : Nat) : Fld := ⟨R.CH_NSP_CFG_SLOW ch, 0, 4⟩
def F.STK_CTRL_FUNNEL : Fld := ⟨R.STK_CTRL, 0, 2⟩
def F.STK_CTRL_DEPUTY : Fld := ⟨R.STK_CTRL, 4, 1⟩
def F.STK_CTRL_SYNC_OUT : Fld := ⟨R.STK_CTRL, 5, 1⟩
def F.STK_CTRL_TROUPE_ID : Fld := ⟨R.STK_CTRL, 16, 16⟩
def F.STK_CMD_RESUME : Fld := ⟨R.STK_CMD, 0, 1⟩
def F.STK_STAT_POS : Fld := ⟨R.STK_STAT, 0, 4⟩
def F.STK_STAT_SIZE : Fld := ⟨R.STK_STAT, 4, 5⟩
def F.STK_STAT_ROLE : Fld := ⟨R.STK_STAT, 9, 2⟩
def F.STK_STAT_LOCK : Fld := ⟨R.STK_STAT, 11, 1⟩
def F.STK_STAT_DROPPED : Fld := ⟨R.STK_STAT, 16, 16⟩
def F.STK_ALERT_TOPOLOGY : Fld := ⟨R.STK_ALERT, 0, 1⟩
def F.STK_ALERT_HOP_RANGE : Fld := ⟨R.STK_ALERT, 1, 1⟩
def F.STK_ALERT_XCHECK : Fld := ⟨R.STK_ALERT, 2, 1⟩
def F.STK_ALERT_TAKEOVER : Fld := ⟨R.STK_ALERT, 3, 1⟩
def F.STK_ALERT_POOL_LOST : Fld := ⟨R.STK_ALERT, 4, 1⟩
def F.STK_ALERT_MERGE_DROP : Fld := ⟨R.STK_ALERT, 5, 1⟩
def F.STK_ALERT_BUS_OVF : Fld := ⟨R.STK_ALERT, 6, 1⟩
def F.STK_ALERT_LANE_SPARE : Fld := ⟨R.STK_ALERT, 7, 1⟩
def F.STK_ALERT_WR_REFUSED : Fld := ⟨R.STK_ALERT, 8, 1⟩
def F.STK_POOL_LEND_N : Fld := ⟨R.STK_POOL, 0, 8⟩
def F.STK_POOL_LEND_S : Fld := ⟨R.STK_POOL, 8, 8⟩
def F.STK_POOL_BORROW : Fld := ⟨R.STK_POOL, 16, 2⟩
def F.STK_POOL_STAT_BORROWED : Fld := ⟨R.STK_POOL_STAT, 0, 8⟩
def F.STK_POOL_STAT_LENT : Fld := ⟨R.STK_POOL_STAT, 8, 8⟩
def F.STK_POOL_STAT_ACTIVE : Fld := ⟨R.STK_POOL_STAT, 16, 1⟩
def F.STK_MUL_M : Fld := ⟨R.STK_MUL, 0, 2⟩
def F.STK_MUL_BANKS : Fld := ⟨R.STK_MUL, 8, 8⟩
def F.STK_HOP_RT_VALUE : Fld := ⟨R.STK_HOP_RT, 0, 32⟩
def F.STK_HOP_ASYM_VALUE : Fld := ⟨R.STK_HOP_ASYM, 0, 11⟩
def F.STK_TAP_TAP : Fld := ⟨R.STK_TAP, 0, 11⟩
def F.STK_TAP_TARGET : Fld := ⟨R.STK_TAP, 16, 16⟩
def F.STK_XCHECK_VALUE : Fld := ⟨R.STK_XCHECK, 0, 32⟩
def F.STK_PORTx_STAT_UP (x : Nat) : Fld := ⟨R.STK_PORTx_STAT x, 0, 1⟩
def F.STK_PORTx_STAT_LANES (x : Nat) : Fld := ⟨R.STK_PORTx_STAT x, 1, 5⟩
def F.STK_PORTx_STAT_FAILED (x : Nat) : Fld := ⟨R.STK_PORTx_STAT x, 6, 5⟩
def F.STK_PORTx_STAT_NEIGH_POS (x : Nat) : Fld := ⟨R.STK_PORTx_STAT x, 12, 4⟩
def F.STK_PORTx_STAT_RETRY (x : Nat) : Fld := ⟨R.STK_PORTx_STAT x, 16, 16⟩
def F.STK_PORTx_NEIGH_HUB_ID (x : Nat) : Fld := ⟨R.STK_PORTx_NEIGH x, 0, 12⟩
def F.STK_PORTx_NEIGH_TROUPE_ID (x : Nat) : Fld := ⟨R.STK_PORTx_NEIGH x, 16, 16⟩
def F.RED_CFG_PRIMARY : Fld := ⟨R.RED_CFG, 0, 1⟩
def F.RED_CFG_REVERT_EN : Fld := ⟨R.RED_CFG, 1, 1⟩
def F.RED_STAT_ACTIVE : Fld := ⟨R.RED_STAT, 0, 1⟩
def F.RED_STAT_ROLE_A : Fld := ⟨R.RED_STAT, 1, 3⟩
def F.RED_STAT_ROLE_B : Fld := ⟨R.RED_STAT, 4, 3⟩
def F.RED_STAT_BUMP : Fld := ⟨R.RED_STAT, 7, 1⟩
def F.RED_STAT_DRILL : Fld := ⟨R.RED_STAT, 8, 1⟩
def F.RED_STAT_NOCORE : Fld := ⟨R.RED_STAT, 9, 1⟩
def F.RED_STAT_HOLD : Fld := ⟨R.RED_STAT, 10, 1⟩
def F.RED_STAT_LANES : Fld := ⟨R.RED_STAT, 12, 3⟩
def F.RED_ALERT_SWITCHOVER : Fld := ⟨R.RED_ALERT, 0, 1⟩
def F.RED_ALERT_CORE_FAIL : Fld := ⟨R.RED_ALERT, 1, 1⟩
def F.RED_ALERT_NOCORE : Fld := ⟨R.RED_ALERT, 2, 1⟩
def F.RED_ALERT_WV_LANE : Fld := ⟨R.RED_ALERT, 3, 1⟩
def F.RED_ALERT_MAJORITY : Fld := ⟨R.RED_ALERT, 4, 1⟩
def F.RED_ALERT_DRILL_FAIL : Fld := ⟨R.RED_ALERT, 5, 1⟩
def F.RED_ALERT_AVS : Fld := ⟨R.RED_ALERT, 6, 1⟩
def F.RED_ALERT_JOURNAL_FULL : Fld := ⟨R.RED_ALERT, 7, 1⟩
def F.RED_ALERT_WR_REFUSED : Fld := ⟨R.RED_ALERT, 8, 1⟩
def F.RED_CMD_SWAP : Fld := ⟨R.RED_CMD, 0, 1⟩
def F.RED_CMD_RESTART : Fld := ⟨R.RED_CMD, 1, 1⟩
def F.RED_HOLD_ILK_MODE : Fld := ⟨R.RED_HOLD_ILK, 0, 1⟩
def F.RED_HOLD_POST_MS : Fld := ⟨R.RED_HOLD_POST, 0, 16⟩
def F.RED_REVERT_HOLDOFF_S : Fld := ⟨R.RED_REVERT_HOLDOFF, 0, 12⟩
def F.RED_DRILL_CFG_EN : Fld := ⟨R.RED_DRILL_CFG, 0, 1⟩
def F.RED_DRILL_CFG_PERIOD : Fld := ⟨R.RED_DRILL_CFG, 8, 12⟩
def F.RED_DRILL_NEXT_LO_TICK : Fld := ⟨R.RED_DRILL_NEXT_LO, 0, 32⟩
def F.RED_DRILL_NEXT_HI_TICK : Fld := ⟨R.RED_DRILL_NEXT_HI, 0, 32⟩
def F.RED_EPOCH_LO_TICK : Fld := ⟨R.RED_EPOCH_LO, 0, 32⟩
def F.RED_EPOCH_HI_TICK : Fld := ⟨R.RED_EPOCH_HI, 0, 32⟩
def F.RED_EPOCH_SEQ_SEQ : Fld := ⟨R.RED_EPOCH_SEQ, 0, 32⟩
def F.RED_EPOCH_SIZE_KIB : Fld := ⟨R.RED_EPOCH_SIZE, 0, 11⟩
def F.RED_EPOCH_SIZE_COPY : Fld := ⟨R.RED_EPOCH_SIZE, 16, 8⟩
def F.RED_BUMP_LAST : Fld := ⟨R.RED_BUMP, 0, 16⟩
def F.RED_BUMP_MAX : Fld := ⟨R.RED_BUMP, 16, 16⟩
def F.RED_COREx_STAT_ECC_CORR (x : Nat) : Fld := ⟨R.RED_COREx_STAT x, 0, 8⟩
def F.RED_COREx_STAT_CAUSE (x : Nat) : Fld := ⟨R.RED_COREx_STAT x, 8, 4⟩
def F.RED_COREx_STAT_BIST_PASS (x : Nat) : Fld := ⟨R.RED_COREx_STAT x, 12, 1⟩
def F.RED_COREx_STAT_RETIRED (x : Nat) : Fld := ⟨R.RED_COREx_STAT x, 13, 1⟩
def F.RED_COREx_STAT_FAILS_24H (x : Nat) : Fld := ⟨R.RED_COREx_STAT x, 16, 4⟩
def F.RED_WV_STAT_LANES : Fld := ⟨R.RED_WV_STAT, 0, 3⟩
def F.RED_WV_STAT_DISAGREE : Fld := ⟨R.RED_WV_STAT, 16, 16⟩
def F.RED_JOURNAL_USED : Fld := ⟨R.RED_JOURNAL, 0, 11⟩
def F.RED_JOURNAL_REFUSED : Fld := ⟨R.RED_JOURNAL, 16, 16⟩
def F.RED_DRILL_STAT_DONE : Fld := ⟨R.RED_DRILL_STAT, 0, 16⟩
def F.RED_DRILL_STAT_FAILED : Fld := ⟨R.RED_DRILL_STAT, 16, 16⟩
def F.CAL_CTRL_METHOD : Fld := ⟨R.CAL_CTRL, 0, 2⟩
def F.CAL_CTRL_RT_EN : Fld := ⟨R.CAL_CTRL, 4, 1⟩
def F.CAL_STAT_METHOD : Fld := ⟨R.CAL_STAT, 0, 1⟩
def F.CAL_STAT_RT_ACTIVE : Fld := ⟨R.CAL_STAT, 1, 1⟩
def F.CAL_STAT_SLOT_INPUT : Fld := ⟨R.CAL_STAT, 8, 5⟩
def F.CAL_STAT_SETS : Fld := ⟨R.CAL_STAT, 16, 16⟩
def F.CAL_ALERT_RT_REJECT : Fld := ⟨R.CAL_ALERT, 0, 1⟩
def F.CAL_ALERT_PLAUS : Fld := ⟨R.CAL_ALERT, 1, 1⟩
def F.CAL_ALERT_TAP_RANGE : Fld := ⟨R.CAL_ALERT, 2, 1⟩
def F.CAL_ALERT_FZ_REFUSED : Fld := ⟨R.CAL_ALERT, 3, 1⟩
def F.CAL_ALERT_REF_OTP : Fld := ⟨R.CAL_ALERT, 4, 1⟩
def F.CAL_ALERT_WR_REFUSED : Fld := ⟨R.CAL_ALERT, 5, 1⟩
def F.CAL_VAR_MIN_VALUE : Fld := ⟨R.CAL_VAR_MIN, 0, 32⟩
def F.CAL_DVAR_MIN_VALUE : Fld := ⟨R.CAL_DVAR_MIN, 0, 32⟩
def F.CAL_OUT_THR_VALUE : Fld := ⟨R.CAL_OUT_THR, 0, 13⟩
def F.CAL_FZ_CTRL_START : Fld := ⟨R.CAL_FZ_CTRL, 0, 1⟩
def F.CAL_FZ_CTRL_CLEAR : Fld := ⟨R.CAL_FZ_CTRL, 1, 1⟩
def F.CAL_FZ_CTRL_CH : Fld := ⟨R.CAL_FZ_CTRL, 8, 8⟩
def F.CAL_FZ_TICK_LO_TICK : Fld := ⟨R.CAL_FZ_TICK_LO, 0, 32⟩
def F.CAL_FZ_TICK_HI_TICK : Fld := ⟨R.CAL_FZ_TICK_HI, 0, 32⟩
def F.CAL_FZ_Z_Z : Fld := ⟨R.CAL_FZ_Z, 0, 24⟩
def F.CAL_FZ_STAT_STATE : Fld := ⟨R.CAL_FZ_STAT, 0, 2⟩
def F.CAL_FZ_STAT_RESULT : Fld := ⟨R.CAL_FZ_STAT, 4, 2⟩
def F.CAL_FZ_STAT_CAUSE : Fld := ⟨R.CAL_FZ_STAT, 8, 4⟩
def F.CAL_BANKb_STAT_RUNS (b : Nat) : Fld := ⟨R.CAL_BANKb_STAT b, 0, 16⟩
def F.CAL_BANKb_STAT_REJECTS (b : Nat) : Fld := ⟨R.CAL_BANKb_STAT b, 16, 8⟩
def F.CAL_BANKb_STAT_SPARE_PLAUS (b : Nat) : Fld := ⟨R.CAL_BANKb_STAT b, 24, 3⟩
def F.CAL_LANEl_EYE_WIDTH (l : Nat) : Fld := ⟨R.CAL_LANEl_EYE l, 0, 7⟩
def F.CAL_LANEl_EYE_HEIGHT (l : Nat) : Fld := ⟨R.CAL_LANEl_EYE l, 8, 10⟩
def F.CAL_LANEl_EYE_CTLE (l : Nat) : Fld := ⟨R.CAL_LANEl_EYE l, 20, 4⟩
def F.CAL_LANEl_EYE_ADAPT (l : Nat) : Fld := ⟨R.CAL_LANEl_EYE l, 24, 1⟩
def F.CAL_LANEl_EYE_LOW (l : Nat) : Fld := ⟨R.CAL_LANEl_EYE l, 25, 1⟩
def F.CH_CAL_CFG_RT_EN (ch : Nat) : Fld := ⟨R.CH_CAL_CFG ch, 0, 1⟩
def F.CH_CAL_FZ_PART (ch : Nat) : Fld := ⟨R.CH_CAL_FZ ch, 0, 24⟩
def F.CH_CAL_RUN_RESULT (ch : Nat) : Fld := ⟨R.CH_CAL_RUN ch, 0, 3⟩
def F.CH_CAL_RUN_RANGE (ch : Nat) : Fld := ⟨R.CH_CAL_RUN ch, 4, 2⟩
def F.CH_CAL_RUN_PLAUS (ch : Nat) : Fld := ⟨R.CH_CAL_RUN ch, 6, 1⟩
def F.CH_CAL_RUN_OUT_PPM (ch : Nat) : Fld := ⟨R.CH_CAL_RUN ch, 16, 16⟩
def F.CH_CAL_Q_OFS_VALUE (ch : Nat) : Fld := ⟨R.CH_CAL_Q_OFS ch, 0, 16⟩
def F.CH_CAL_Q_GAIN_VALUE (ch : Nat) : Fld := ⟨R.CH_CAL_Q_GAIN ch, 0, 16⟩
def F.CH_CAL_Q_SKEW_VALUE (ch : Nat) : Fld := ⟨R.CH_CAL_Q_SKEW ch, 0, 16⟩
def F.CH_CAL_TICK_LO_TICK (ch : Nat) : Fld := ⟨R.CH_CAL_TICK_LO ch, 0, 32⟩
def F.CH_CAL_TICK_HI_TICK (ch : Nat) : Fld := ⟨R.CH_CAL_TICK_HI ch, 0, 32⟩
def F.CH_CAL_TAPr_OFS (ch r : Nat) : Fld := ⟨R.CH_CAL_TAPr ch r, 0, 14⟩
def F.CH_CAL_TAPr_GAIN (ch r : Nat) : Fld := ⟨R.CH_CAL_TAPr ch r, 16, 13⟩
def F.UPD_STAT_RUN_SLOT : Fld := ⟨R.UPD_STAT, 0, 1⟩
def F.UPD_STAT_STATE : Fld := ⟨R.UPD_STAT, 1, 1⟩
def F.UPD_STAT_TRIES : Fld := ⟨R.UPD_STAT, 2, 2⟩
def F.UPD_STAT_LOCK : Fld := ⟨R.UPD_STAT, 4, 1⟩
def F.UPD_STAT_LOCK_SRC : Fld := ⟨R.UPD_STAT, 5, 1⟩
def F.UPD_STAT_STAGE : Fld := ⟨R.UPD_STAT, 6, 3⟩
def F.UPD_STAT_FALLBACK : Fld := ⟨R.UPD_STAT, 9, 1⟩
def F.UPD_STAT_FORCED : Fld := ⟨R.UPD_STAT, 10, 1⟩
def F.UPD_ALERT_REFUSED : Fld := ⟨R.UPD_ALERT, 0, 1⟩
def F.UPD_ALERT_ABORT : Fld := ⟨R.UPD_ALERT, 1, 1⟩
def F.UPD_ALERT_FALLBACK : Fld := ⟨R.UPD_ALERT, 2, 1⟩
def F.UPD_ALERT_NO_FALLBACK : Fld := ⟨R.UPD_ALERT, 3, 1⟩
def F.UPD_ALERT_NVM_FAIL : Fld := ⟨R.UPD_ALERT, 4, 1⟩
def F.UPD_ALERT_ENTRY_REFUSED : Fld := ⟨R.UPD_ALERT, 5, 1⟩
def F.UPD_ALERT_WR_REFUSED : Fld := ⟨R.UPD_ALERT, 6, 1⟩
def F.UPD_CMD_CONFIRM : Fld := ⟨R.UPD_CMD, 0, 1⟩
def F.UPD_CMD_CANCEL : Fld := ⟨R.UPD_CMD, 1, 1⟩
def F.UPD_CFG_AUTO_CONFIRM : Fld := ⟨R.UPD_CFG, 0, 1⟩
def F.UPD_CFG_CONFIRM_S : Fld := ⟨R.UPD_CFG, 16, 16⟩
def F.UPD_CONFIRM_LEFT_S : Fld := ⟨R.UPD_CONFIRM_LEFT, 0, 16⟩
def F.UPD_VER_RUN_IMG_VER : Fld := ⟨R.UPD_VER_RUN, 0, 32⟩
def F.UPD_VER_OTHER_IMG_VER : Fld := ⟨R.UPD_VER_OTHER, 0, 32⟩
def F.UPD_ARB_OTP : Fld := ⟨R.UPD_ARB, 0, 7⟩
def F.UPD_ARB_RUN : Fld := ⟨R.UPD_ARB, 8, 7⟩
def F.UPD_BOOTREC_SEQ : Fld := ⟨R.UPD_BOOTREC, 0, 32⟩
def F.UPD_PROG_NEXT : Fld := ⟨R.UPD_PROG, 0, 25⟩
def F.UPD_CHUNKS_DONE : Fld := ⟨R.UPD_CHUNKS, 0, 8⟩
def F.UPD_CHUNKS_TOTAL : Fld := ⟨R.UPD_CHUNKS, 8, 8⟩
def F.UPD_KEY_VALID : Fld := ⟨R.UPD_KEY, 0, 4⟩
def F.UPD_KEY_REVOKED : Fld := ⟨R.UPD_KEY, 4, 4⟩
def F.UPD_KEY_REVOKE : Fld := ⟨R.UPD_KEY, 8, 4⟩
def F.UPD_KEY_RUN_KEY : Fld := ⟨R.UPD_KEY, 12, 2⟩
def F.UPD_SERIAL_LO_SERIAL : Fld := ⟨R.UPD_SERIAL_LO, 0, 32⟩
def F.UPD_SERIAL_HI_SERIAL : Fld := ⟨R.UPD_SERIAL_HI, 0, 32⟩
def F.UPD_NVM_OK0 : Fld := ⟨R.UPD_NVM, 0, 1⟩
def F.UPD_NVM_OK1 : Fld := ⟨R.UPD_NVM, 1, 1⟩
def F.UPD_NVM_MHZ : Fld := ⟨R.UPD_NVM, 8, 8⟩
def F.UPD_NVM_REPAIRS : Fld := ⟨R.UPD_NVM, 16, 16⟩
def F.UPD_LOAD_WAIT : Fld := ⟨R.UPD_LOAD, 0, 10⟩
def F.UPD_LOAD_MS : Fld := ⟨R.UPD_LOAD, 16, 16⟩
def F.LOG_STAT_OK0 : Fld := ⟨R.LOG_STAT, 0, 1⟩
def F.LOG_STAT_OK1 : Fld := ⟨R.LOG_STAT, 1, 1⟩
def F.LOG_STAT_CLEARING : Fld := ⟨R.LOG_STAT, 2, 1⟩
def F.LOG_STAT_FIXED_FULL : Fld := ⟨R.LOG_STAT, 3, 1⟩
def F.LOG_STAT_TOMBS : Fld := ⟨R.LOG_STAT, 4, 6⟩
def F.LOG_STAT_STAGED : Fld := ⟨R.LOG_STAT, 16, 12⟩
def F.LOG_ALERT_LOST : Fld := ⟨R.LOG_ALERT, 0, 1⟩
def F.LOG_ALERT_SPARE : Fld := ⟨R.LOG_ALERT, 1, 1⟩
def F.LOG_ALERT_MEDIUM : Fld := ⟨R.LOG_ALERT, 2, 1⟩
def F.LOG_ALERT_TORN : Fld := ⟨R.LOG_ALERT, 3, 1⟩
def F.LOG_ALERT_CLEARED : Fld := ⟨R.LOG_ALERT, 4, 1⟩
def F.LOG_SEQ_SEQ : Fld := ⟨R.LOG_SEQ, 0, 32⟩
def F.LOG_CAR_OLDEST_SEQ : Fld := ⟨R.LOG_CAR_OLDEST, 0, 32⟩
def F.LOG_CLEAR_SEQ_SEQ : Fld := ⟨R.LOG_CLEAR_SEQ, 0, 32⟩
def F.LOG_LOST_COUNT : Fld := ⟨R.LOG_LOST, 0, 32⟩
def F.LOG_SPARE_NVM0 : Fld := ⟨R.LOG_SPARE, 0, 4⟩
def F.LOG_SPARE_NVM1 : Fld := ⟨R.LOG_SPARE, 4, 4⟩
def F.SYS_ID_HW_TYPE : Fld := ⟨R.SYS_ID, 0, 32⟩
def F.SYS_REV_DIGIT : Fld := ⟨R.SYS_REV, 0, 8⟩
def F.SYS_REV_LETTER : Fld := ⟨R.SYS_REV, 8, 8⟩
def F.SYS_MODE_MODE : Fld := ⟨R.SYS_MODE, 0, 3⟩
def F.SYS_MODE_PREV : Fld := ⟨R.SYS_MODE, 4, 3⟩
def F.SYS_CTRL_TRIM_REQ : Fld := ⟨R.SYS_CTRL, 0, 1⟩
def F.SYS_CTRL_WARM_RESET : Fld := ⟨R.SYS_CTRL, 1, 1⟩
def F.SYS_CTRL_SHUTDOWN : Fld := ⟨R.SYS_CTRL, 2, 1⟩
def F.SYS_STAT_ALERT : Fld := ⟨R.SYS_STAT, 0, 1⟩
def F.SYS_STAT_REPLACE : Fld := ⟨R.SYS_STAT, 1, 1⟩
def F.SYS_STAT_HOLD : Fld := ⟨R.SYS_STAT, 2, 1⟩
def F.SYS_STAT_TRIM_PEND : Fld := ⟨R.SYS_STAT, 3, 1⟩
def F.SYS_STAT_BRACING : Fld := ⟨R.SYS_STAT, 4, 1⟩
def F.SYS_STAT_SAFE_OFF : Fld := ⟨R.SYS_STAT, 5, 1⟩
def F.SYS_STAT_STEWARD : Fld := ⟨R.SYS_STAT, 6, 1⟩
def F.SYS_STAT_POS : Fld := ⟨R.SYS_STAT, 8, 4⟩
def F.SYS_STAT_SVC_ADDR : Fld := ⟨R.SYS_STAT, 12, 2⟩
def F.SYS_ALERT_STEWARD : Fld := ⟨R.SYS_ALERT, 0, 1⟩
def F.SYS_ALERT_DEADLINE : Fld := ⟨R.SYS_ALERT, 1, 1⟩
def F.SYS_ALERT_MEM_CORR : Fld := ⟨R.SYS_ALERT, 2, 1⟩
def F.SYS_ALERT_WR_REFUSED : Fld := ⟨R.SYS_ALERT, 3, 1⟩
def F.SYS_ALERT_SUM_BLOCK : Fld := ⟨R.SYS_ALERT_SUM, 0, 15⟩
def F.SYS_ALERT_SUM_MODE : Fld := ⟨R.SYS_ALERT_SUM, 15, 1⟩
def F.SYS_RESET_CAUSE_CAUSE : Fld := ⟨R.SYS_RESET_CAUSE, 0, 3⟩
def F.SYS_RESET_CAUSE_SUPPLY : Fld := ⟨R.SYS_RESET_CAUSE, 8, 8⟩
def F.SYS_HUB_ID_HUB_ID : Fld := ⟨R.SYS_HUB_ID, 0, 12⟩
def F.SYS_ENV_TJ : Fld := ⟨R.SYS_ENV, 0, 16⟩
def F.SYS_ENV_POWER : Fld := ⟨R.SYS_ENV, 16, 16⟩
def F.SYS_LIMP_CLASS : Fld := ⟨R.SYS_LIMP, 0, 10⟩
def F.SYS_LIMP_DEADLINE : Fld := ⟨R.SYS_LIMP, 10, 1⟩
def F.SYS_LIMP_ILK_OUT : Fld := ⟨R.SYS_LIMP, 11, 1⟩
def F.SYS_LIMP_WV_LANE : Fld := ⟨R.SYS_LIMP, 12, 1⟩
def F.SYS_LIMP_LOG_MEDIUM : Fld := ⟨R.SYS_LIMP, 13, 1⟩
def F.SYS_LIMP_NO_CORE : Fld := ⟨R.SYS_LIMP, 14, 1⟩
def F.SYS_SPAREc_USED (c : Nat) : Fld := ⟨R.SYS_SPAREc c, 0, 12⟩
def F.SYS_SPAREc_TOTAL (c : Nat) : Fld := ⟨R.SYS_SPAREc c, 12, 12⟩
def F.SYS_SPAREc_EXH (c : Nat) : Fld := ⟨R.SYS_SPAREc c, 31, 1⟩
def F.TIM_SNAP_FRC0_VALUE : Fld := ⟨R.TIM_SNAP_FRC0, 0, 32⟩
def F.TIM_SNAP_FRC1_VALUE : Fld := ⟨R.TIM_SNAP_FRC1, 0, 32⟩
def F.TIM_SNAP_FRC2_VALUE : Fld := ⟨R.TIM_SNAP_FRC2, 0, 32⟩
def F.TIM_SNAP_AT0_VALUE : Fld := ⟨R.TIM_SNAP_AT0, 0, 32⟩
def F.TIM_SNAP_AT1_VALUE : Fld := ⟨R.TIM_SNAP_AT1, 0, 32⟩
def F.TIM_SNAP_AT2_VALUE : Fld := ⟨R.TIM_SNAP_AT2, 0, 32⟩
def F.TIM_SNAP_TICK_LO_VALUE : Fld := ⟨R.TIM_SNAP_TICK_LO, 0, 32⟩
def F.TIM_SNAP_TICK_HI_VALUE : Fld := ⟨R.TIM_SNAP_TICK_HI, 0, 32⟩
def F.TIM_SNAP_SUBTICK_VALUE : Fld := ⟨R.TIM_SNAP_SUBTICK, 0, 16⟩
def F.TIM_SNAP_TDd0_VALUE (d : Nat) : Fld := ⟨R.TIM_SNAP_TDd0 d, 0, 32⟩
def F.TIM_SNAP_TDd1_VALUE (d : Nat) : Fld := ⟨R.TIM_SNAP_TDd1 d, 0, 32⟩
def F.TIM_SNAP_TDd2_VALUE (d : Nat) : Fld := ⟨R.TIM_SNAP_TDd2 d, 0, 32⟩
def F.TIM_PPS_IN0_VALUE : Fld := ⟨R.TIM_PPS_IN0, 0, 32⟩
def F.TIM_PPS_IN1_VALUE : Fld := ⟨R.TIM_PPS_IN1, 0, 32⟩
def F.TIM_PPS_IN2_VALUE : Fld := ⟨R.TIM_PPS_IN2, 0, 32⟩
def F.NSP_UPx_MAC_LO_VALUE (x : Nat) : Fld := ⟨R.NSP_UPx_MAC_LO x, 0, 32⟩
def F.NSP_UPx_MAC_HI_VALUE (x : Nat) : Fld := ⟨R.NSP_UPx_MAC_HI x, 0, 16⟩
def F.NSP_UPx_VID_VALUE (x : Nat) : Fld := ⟨R.NSP_UPx_VID x, 0, 12⟩
def F.NSP_UPx_IP4_VALUE (x : Nat) : Fld := ⟨R.NSP_UPx_IP4 x, 0, 32⟩
def F.NSP_UPx_IP4_CFG_VALUE (x : Nat) : Fld := ⟨R.NSP_UPx_IP4_CFG x, 0, 6⟩
def F.NSP_UPx_GW4_VALUE (x : Nat) : Fld := ⟨R.NSP_UPx_GW4 x, 0, 32⟩
def F.NSP_UPx_IP6_0_VALUE (x : Nat) : Fld := ⟨R.NSP_UPx_IP6_0 x, 0, 32⟩
def F.NSP_UPx_IP6_1_VALUE (x : Nat) : Fld := ⟨R.NSP_UPx_IP6_1 x, 0, 32⟩
def F.NSP_UPx_IP6_2_VALUE (x : Nat) : Fld := ⟨R.NSP_UPx_IP6_2 x, 0, 32⟩
def F.NSP_UPx_IP6_3_VALUE (x : Nat) : Fld := ⟨R.NSP_UPx_IP6_3 x, 0, 32⟩
def F.NSP_UPx_IP6_CFG_VALUE (x : Nat) : Fld := ⟨R.NSP_UPx_IP6_CFG x, 0, 8⟩
def F.NSP_UPx_GW6_0_VALUE (x : Nat) : Fld := ⟨R.NSP_UPx_GW6_0 x, 0, 32⟩
def F.NSP_UPx_GW6_1_VALUE (x : Nat) : Fld := ⟨R.NSP_UPx_GW6_1 x, 0, 32⟩
def F.NSP_UPx_GW6_2_VALUE (x : Nat) : Fld := ⟨R.NSP_UPx_GW6_2 x, 0, 32⟩
def F.NSP_UPx_GW6_3_VALUE (x : Nat) : Fld := ⟨R.NSP_UPx_GW6_3 x, 0, 32⟩

/-! The register tables, block by block. The fields of TIM_TDd registers for PTP, asymmetry and servo are reserved for TD2 and TD3, so those registers
have a row of their own there (R88). SYS_ID gives its 32 bits to HW_TYPE and SYS_REV holds letter and digit, as R431 has it, although
R1 speaks of SYS_ID for both (log 56). -/

def rows_1_0 : List RegRow := [
  ⟨0x10000, [], 0x0, 0x13, 0x0, 0x0, 0x0⟩,
  ⟨0x10004, [], 0x0, 0x0, 0x0, 0x0, 0x0⟩,
  ⟨0x10008, [], 0x0, 0x0, 0x7ff, 0x0, 0x0⟩,
  ⟨0x1000c, [], 0x1b0, 0x1f3, 0x0, 0x0, 0x0⟩,
  ⟨0x10010, [], 0xa, 0x3fff, 0x0, 0x0, 0x0⟩,
  ⟨0x10014, [], 0x3e8, 0xfffff, 0x0, 0x0, 0x0⟩,
  ⟨0x10018, [], 0x3c01, 0x1ffff01, 0x0, 0x0, 0x0⟩,
  ⟨0x1001c, [], 0x12c00, 0xffff03, 0x0, 0x0, 0x0⟩,
  ⟨0x10020, [], 0x20000, 0xffffffff, 0x0, 0x0, 0x0⟩,
  ⟨0x10024, [], 0x50000, 0xffffffff, 0x0, 0x0, 0x0⟩,
  ⟨0x10028, [], 0x0, 0x0, 0x0, 0x0, 0x0⟩,
  ⟨0x1002c, [], 0x0, 0x0, 0x0, 0x1, 0x0⟩,
  ⟨0x10030, [], 0x0, 0x0, 0x0, 0x0, 0xffffffff⟩,
  ⟨0x10034, [], 0x0, 0x0, 0x0, 0x0, 0xffffffff⟩,
  ⟨0x10038, [], 0x0, 0x0, 0x0, 0x0, 0xffffffff⟩,
  ⟨0x10040, [], 0x542000, 0x0, 0x0, 0x0, 0x0⟩,
  ⟨0x10044, [], 0x83c000, 0x0, 0x0, 0x0, 0x0⟩,
  ⟨0x10048, [], 0x542000, 0x0, 0x0, 0x0, 0x0⟩,
  ⟨0x1004c, [], 0x83c000, 0x0, 0x0, 0x0, 0x0⟩,
  ⟨0x10050, [], 0x10064, 0x301ff, 0x0, 0x0, 0x0⟩,
  ⟨0x10054, [], 0x0, 0x8fffffff, 0x0, 0x0, 0x0⟩,
  ⟨0x10058, [], 0x0, 0x0, 0x0, 0x0, 0x0⟩,
  ⟨0x10100, [(2, 0x40)], 0x4000000, 0x79fff01, 0x0, 0x600000, 0x0⟩,
  ⟨0x10180, [(2, 0x40)], 0x0, 0x1, 0x0, 0x0, 0x0⟩,
  ⟨0x10104, [(4, 0x40)], 0x0, 0x0, 0x0, 0x0, 0x0⟩,
  ⟨0x10108, [(4, 0x40)], 0x0, 0xffffffff, 0x0, 0x0, 0x0⟩]
def rows_1_1 : List RegRow := [
  ⟨0x1010c, [(4, 0x40)], 0x0, 0xff, 0x0, 0x0, 0x0⟩,
  ⟨0x10110, [(4, 0x40)], 0x0, 0xffffffff, 0x0, 0x0, 0x0⟩,
  ⟨0x10114, [(4, 0x40)], 0x0, 0xffffffff, 0x0, 0x0, 0x0⟩,
  ⟨0x10118, [(4, 0x40)], 0x0, 0xffffffff, 0x0, 0x0, 0x0⟩,
  ⟨0x10120, [(2, 0x40)], 0x0, 0xffffffff, 0x0, 0x0, 0x0⟩,
  ⟨0x101a0, [(2, 0x40)], 0x0, 0x0, 0x0, 0x0, 0x0⟩,
  ⟨0x10124, [(2, 0x40)], 0x0, 0x0, 0x0, 0x0, 0x0⟩,
  ⟨0x101a4, [(2, 0x40)], 0x0, 0x0, 0x0, 0x0, 0x0⟩,
  ⟨0x10128, [(2, 0x40)], 0x200000, 0xffffffff, 0x0, 0x0, 0x0⟩,
  ⟨0x101a8, [(2, 0x40)], 0x0, 0x0, 0x0, 0x0, 0x0⟩,
  ⟨0x1012c, [(2, 0x40)], 0x10000, 0xffffffff, 0x0, 0x0, 0x0⟩,
  ⟨0x101ac, [(2, 0x40)], 0x0, 0x0, 0x0, 0x0, 0x0⟩,
  ⟨0x10130, [(2, 0x40)], 0x0, 0x0, 0x0, 0x0, 0x0⟩,
  ⟨0x101b0, [(2, 0x40)], 0x0, 0x0, 0x0, 0x0, 0x0⟩,
  ⟨0x10134, [(2, 0x40)], 0x0, 0x0, 0x0, 0x0, 0x0⟩,
  ⟨0x101b4, [(2, 0x40)], 0x0, 0x0, 0x0, 0x0, 0x0⟩,
  ⟨0x10138, [(2, 0x40)], 0x1030064, 0xffffffff, 0x0, 0x0, 0x0⟩,
  ⟨0x101b8, [(2, 0x40)], 0x0, 0x0, 0x0, 0x0, 0x0⟩,
  ⟨0x10800, [(16, 0x20)], 0x0, 0xffff0037, 0x0, 0x300, 0x0⟩,
  ⟨0x10804, [(16, 0x20)], 0x0, 0xffffffff, 0x0, 0x0, 0x0⟩,
  ⟨0x10808, [(16, 0x20)], 0x0, 0xffffffff, 0x0, 0x0, 0x0⟩,
  ⟨0x1080c, [(16, 0x20)], 0x0, 0xffffffff, 0x0, 0x0, 0x0⟩,
  ⟨0x10810, [(16, 0x20)], 0x0, 0x0, 0x0, 0x0, 0x0⟩,
  ⟨0x10c00, [(4, 0x20)], 0x0, 0x8, 0x0, 0x3, 0x0⟩,
  ⟨0x10c04, [(4, 0x20)], 0x0, 0x1fffff, 0x0, 0x0, 0x0⟩,
  ⟨0x10c08, [(4, 0x20)], 0x0, 0x1fffff, 0x0, 0x0, 0x0⟩,
  ⟨0x10c0c, [(4, 0x20)], 0x0, 0x1fffff, 0x0, 0x0, 0x0⟩,
  ⟨0x10c10, [(4, 0x20)], 0x0, 0xffff, 0x0, 0x0, 0x0⟩,
  ⟨0x10400, [], 0x0, 0x0, 0x0, 0x0, 0x0⟩,
  ⟨0x10404, [], 0x0, 0x0, 0x0, 0x0, 0x0⟩,
  ⟨0x10408, [], 0x0, 0x0, 0x0, 0x0, 0x0⟩,
  ⟨0x10410, [], 0x0, 0x0, 0x0, 0x0, 0x0⟩]
def rows_1_2 : List RegRow := [
  ⟨0x10414, [], 0x0, 0x0, 0x0, 0x0, 0x0⟩,
  ⟨0x10418, [], 0x0, 0x0, 0x0, 0x0, 0x0⟩,
  ⟨0x1041c, [], 0x0, 0x0, 0x0, 0x0, 0x0⟩,
  ⟨0x10420, [], 0x0, 0x0, 0x0, 0x0, 0x0⟩,
  ⟨0x10424, [], 0x0, 0x0, 0x0, 0x0, 0x0⟩,
  ⟨0x10440, [(4, 0x10)], 0x0, 0x0, 0x0, 0x0, 0x0⟩,
  ⟨0x10444, [(4, 0x10)], 0x0, 0x0, 0x0, 0x0, 0x0⟩,
  ⟨0x10448, [(4, 0x10)], 0x0, 0x0, 0x0, 0x0, 0x0⟩,
  ⟨0x10480, [], 0x0, 0x0, 0x0, 0x0, 0x0⟩,
  ⟨0x10484, [], 0x0, 0x0, 0x0, 0x0, 0x0⟩,
  ⟨0x10488, [], 0x0, 0x0, 0x0, 0x0, 0x0⟩]
/-- The register table of block 1. -/
def rows_1 : List RegRow := rows_1_0 ++ rows_1_1 ++ rows_1_2
def rows_2_0 : List RegRow := [
  ⟨0x20000, [], 0x2, 0xf, 0x0, 0x0, 0x0⟩,
  ⟨0x20004, [], 0x0, 0x0, 0x0, 0x0, 0x0⟩,
  ⟨0x20008, [], 0x0, 0x0, 0x3f, 0x0, 0x0⟩,
  ⟨0x20040, [(8, 0x4)], 0x0, 0x1f01, 0x0, 0x0, 0x0⟩,
  ⟨0x20060, [(8, 0x4)], 0x0, 0x0, 0x0, 0x0, 0x0⟩,
  ⟨0x20080, [(8, 0x4)], 0x0, 0x0, 0x0, 0x0, 0x0⟩,
  ⟨0x20100, [(16, 0x20)], 0x0, 0x0, 0x0, 0x0, 0x33f⟩,
  ⟨0x20104, [(16, 0x20)], 0x0, 0x0, 0x0, 0x0, 0xffffffff⟩,
  ⟨0x20108, [(16, 0x20)], 0x7fffff, 0x0, 0x0, 0x0, 0xffffff⟩,
  ⟨0x2010c, [(16, 0x20)], 0x800000, 0x0, 0x0, 0x0, 0xffffff⟩,
  ⟨0x20110, [(16, 0x20)], 0x0, 0x0, 0x0, 0x0, 0x0⟩,
  ⟨0x20300, [], 0x0, 0x0, 0x0, 0xffff, 0x0⟩,
  ⟨0x20304, [], 0x0, 0x0, 0x0, 0x0, 0x0⟩,
  ⟨0x20308, [], 0x0, 0x0, 0x0, 0x0, 0x0⟩,
  ⟨0x2030c, [], 0x0, 0x0, 0x0, 0x0, 0xffff⟩,
  ⟨0x20340, [(16, 0x4)], 0x0, 0x0, 0x0, 0x0, 0xffff⟩]
/-- The register table of block 2. -/
def rows_2 : List RegRow := rows_2_0
def rows_fast_0 : List RegRow := [
  ⟨0x100000, [(192, 0x800)], 0x3000, 0xf173333, 0x0, 0x0, 0x0⟩,
  ⟨0x100004, [(192, 0x800)], 0x0, 0x1ff, 0x0, 0x0, 0x0⟩,
  ⟨0x100008, [(192, 0x800)], 0x0, 0x0, 0x0, 0x0, 0x0⟩,
  ⟨0x10000c, [(192, 0x800)], 0x0, 0x0, 0x0, 0x0, 0x0⟩,
  ⟨0x100100, [(192, 0x800)], 0x10101, 0xff7fffff, 0x0, 0x0, 0x0⟩,
  ⟨0x100104, [(192, 0x800)], 0x1, 0x3ff, 0x0, 0x0, 0x0⟩,
  ⟨0x100108, [(192, 0x800)], 0x0, 0xff, 0x0, 0x0, 0x0⟩,
  ⟨0x10010c, [(192, 0x800)], 0x0, 0xffffff, 0x0, 0x0, 0x0⟩,
  ⟨0x100110, [(192, 0x800)], 0x0, 0xffff, 0x0, 0x0, 0x0⟩,
  ⟨0x100114, [(192, 0x800)], 0x0, 0x0, 0x0, 0x0, 0x0⟩,
  ⟨0x100118, [(192, 0x800)], 0x1, 0x0, 0x0, 0x0, 0x0⟩,
  ⟨0x10011c, [(192, 0x800)], 0x0, 0x0, 0x0, 0x0, 0x0⟩,
  ⟨0x100120, [(192, 0x800)], 0x0, 0x0, 0x0, 0x0, 0x0⟩,
  ⟨0x100124, [(192, 0x800)], 0x0, 0x0, 0x0, 0x0, 0x0⟩,
  ⟨0x100140, [(192, 0x800), (32, 0x4)], 0x40000, 0xfffff, 0x0, 0x0, 0x0⟩,
  ⟨0x1001c0, [(192, 0x800), (4, 0x20)], 0x0, 0xfffffff, 0x0, 0x0, 0x0⟩,
  ⟨0x1001c4, [(192, 0x800), (4, 0x20)], 0x0, 0xfffffff, 0x0, 0x0, 0x0⟩,
  ⟨0x1001c8, [(192, 0x800), (4, 0x20)], 0x0, 0xfffffff, 0x0, 0x0, 0x0⟩,
  ⟨0x1001cc, [(192, 0x800), (4, 0x20)], 0x0, 0xfffffff, 0x0, 0x0, 0x0⟩,
  ⟨0x1001d0, [(192, 0x800), (4, 0x20)], 0x0, 0xfffffff, 0x0, 0x0, 0x0⟩,
  ⟨0x100040, [(192, 0x800)], 0x0, 0xf, 0x0, 0x0, 0x0⟩,
  ⟨0x100300, [(192, 0x800)], 0x1, 0x1, 0x0, 0x0, 0x0⟩,
  ⟨0x100304, [(192, 0x800)], 0x0, 0x0, 0x0, 0x0, 0x0⟩,
  ⟨0x100308, [(192, 0x800)], 0x0, 0x0, 0x0, 0x0, 0x0⟩,
  ⟨0x10030c, [(192, 0x800)], 0x0, 0x0, 0x0, 0x0, 0x0⟩]
def rows_fast_1 : List RegRow := [
  ⟨0x100310, [(192, 0x800)], 0x0, 0x0, 0x0, 0x0, 0x0⟩,
  ⟨0x100314, [(192, 0x800)], 0x0, 0x0, 0x0, 0x0, 0x0⟩,
  ⟨0x100318, [(192, 0x800)], 0x0, 0x0, 0x0, 0x0, 0x0⟩,
  ⟨0x10031c, [(192, 0x800)], 0x0, 0x0, 0x0, 0x0, 0x0⟩,
  ⟨0x100320, [(192, 0x800), (4, 0x4)], 0x0, 0x0, 0x0, 0x0, 0x0⟩]
/-- The register table of the per-channel blocks of the fast channels. -/
def rows_fast : List RegRow := rows_fast_0 ++ rows_fast_1
def rows_3_0 : List RegRow := [
  ⟨0x30004, [], 0x1f1f, 0x0, 0x0, 0x0, 0x0⟩,
  ⟨0x30008, [], 0x0, 0x0, 0x3f, 0x0, 0x0⟩,
  ⟨0x3000c, [], 0x0, 0x0, 0x0, 0x0, 0x0⟩,
  ⟨0x30100, [(16, 0x20)], 0x0, 0x7, 0x0, 0x0, 0x0⟩,
  ⟨0x30104, [(16, 0x20)], 0x1e8480, 0xffffffff, 0x0, 0x0, 0x0⟩,
  ⟨0x30108, [(16, 0x20)], 0x0, 0xff, 0x0, 0x0, 0x0⟩,
  ⟨0x3010c, [(16, 0x20)], 0x0, 0xff, 0x0, 0x0, 0x0⟩,
  ⟨0x30110, [(16, 0x20)], 0x0, 0x1fff, 0x0, 0x0, 0x0⟩,
  ⟨0x30114, [(16, 0x20)], 0x0, 0x0, 0x0, 0x0, 0x0⟩,
  ⟨0x30118, [(16, 0x20)], 0x0, 0x0, 0x0, 0x0, 0x0⟩,
  ⟨0x3011c, [(16, 0x20)], 0x0, 0x0, 0x0, 0x0, 0x0⟩]
/-- The register table of block 3. -/
def rows_3 : List RegRow := rows_3_0
def rows_slow_0 : List RegRow := [
  ⟨0x180000, [(256, 0x800)], 0x0, 0xfff, 0x0, 0x0, 0x0⟩,
  ⟨0x180004, [(256, 0x800)], 0x8, 0x3ffffff, 0x0, 0x0, 0x0⟩,
  ⟨0x180008, [(256, 0x800)], 0x32a2, 0xfffff, 0x0, 0x0, 0x0⟩,
  ⟨0x18000c, [(256, 0x800)], 0x0, 0x7, 0x0, 0x0, 0x0⟩,
  ⟨0x180010, [(256, 0x800)], 0x0, 0x1ff, 0x0, 0x0, 0x0⟩,
  ⟨0x180014, [(256, 0x800)], 0x0, 0xffffffff, 0x0, 0x0, 0x0⟩,
  ⟨0x180018, [(256, 0x800)], 0x0, 0x0, 0x0, 0x0, 0x0⟩,
  ⟨0x18001c, [(256, 0x800)], 0x0, 0x0, 0x0, 0x0, 0x0⟩,
  ⟨0x180020, [(256, 0x800)], 0x0, 0x0, 0x0, 0x0, 0x0⟩,
  ⟨0x180024, [(256, 0x800)], 0x0, 0x0, 0x0, 0x0, 0x0⟩,
  ⟨0x180028, [(256, 0x800)], 0x0, 0x0, 0x0, 0x0, 0x0⟩,
  ⟨0x180040, [(256, 0x800), (16, 0x8)], 0x0, 0xb7, 0x0, 0x0, 0x0⟩,
  ⟨0x180044, [(256, 0x800), (16, 0x8)], 0x0, 0xffffffff, 0x0, 0x0, 0x0⟩,
  ⟨0x1800c0, [(256, 0x800)], 0x0, 0x1ff01, 0x0, 0x0, 0x0⟩,
  ⟨0x1800c4, [(256, 0x800)], 0x0, 0x0, 0x0, 0x0, 0x0⟩,
  ⟨0x1800c8, [(256, 0x800)], 0x0, 0x0, 0x0, 0x0, 0x0⟩,
  ⟨0x1800cc, [(256, 0x800)], 0x0, 0x0, 0x0, 0x0, 0x0⟩,
  ⟨0x1800d0, [(256, 0x800)], 0x0, 0x0, 0x0, 0x0, 0x0⟩,
  ⟨0x1800d4, [(256, 0x800)], 0x0, 0x0, 0x0, 0x0, 0x0⟩,
  ⟨0x1800d8, [(256, 0x800)], 0x0, 0x0, 0x0, 0x0, 0x0⟩,
  ⟨0x1800dc, [(256, 0x800)], 0x0, 0x0, 0x0, 0x0, 0x0⟩,
  ⟨0x1800e0, [(256, 0x800)], 0x0, 0x13, 0x0, 0x0, 0x0⟩,
  ⟨0x1800e4, [(256, 0x800)], 0x0, 0xffffff, 0x0, 0x0, 0x0⟩,
  ⟨0x1800e8, [(256, 0x800)], 0x0, 0xffff, 0x0, 0x0, 0x0⟩,
  ⟨0x1800f0, [(256, 0x800)], 0x0, 0xf, 0x0, 0x0, 0x0⟩]
/-- The register table of the per-channel blocks of the slow channels. -/
def rows_slow : List RegRow := rows_slow_0
def rows_4_0 : List RegRow := [
  ⟨0x40000, [], 0x2, 0x2, 0x0, 0x1, 0x0⟩,
  ⟨0x40008, [], 0x0, 0x0, 0x7f, 0x0, 0x0⟩]
/-- The register table of block 4. -/
def rows_4 : List RegRow := rows_4_0
def rows_5_0 : List RegRow := [
  ⟨0x50004, [], 0x0, 0x0, 0x0, 0x0, 0x0⟩,
  ⟨0x50008, [], 0x0, 0x0, 0xf, 0x0, 0x0⟩,
  ⟨0x50010, [], 0x0, 0x0, 0x0, 0x3, 0x0⟩,
  ⟨0x50014, [], 0x0, 0xffffffff, 0x0, 0x0, 0x0⟩,
  ⟨0x50018, [], 0x0, 0xffffffff, 0x0, 0x0, 0x0⟩,
  ⟨0x5001c, [], 0x0, 0x0, 0x0, 0x0, 0x0⟩,
  ⟨0x50020, [], 0x0, 0x1f, 0x0, 0x0, 0x0⟩,
  ⟨0x50024, [], 0x0, 0x0, 0x0, 0x0, 0x0⟩]
/-- The register table of block 5. -/
def rows_5 : List RegRow := rows_5_0
def rows_6_0 : List RegRow := [
  ⟨0x60000, [], 0x400, 0x0, 0x0, 0x0, 0xf03⟩,
  ⟨0x60004, [], 0x100, 0x0, 0x0, 0x0, 0x0⟩,
  ⟨0x60008, [], 0x0, 0x0, 0x1f, 0x0, 0x0⟩,
  ⟨0x6000c, [], 0x3e8, 0x3fffff, 0x0, 0x0, 0x0⟩,
  ⟨0x60010, [], 0x7d0, 0xffffff, 0x0, 0x0, 0x0⟩,
  ⟨0x60100, [(64, 0x20)], 0x0, 0xff3fff7f, 0x0, 0x0, 0x0⟩,
  ⟨0x60104, [(64, 0x20)], 0x0, 0xffffff, 0x0, 0x0, 0x0⟩,
  ⟨0x60108, [(64, 0x20)], 0x0, 0xffffff, 0x0, 0x0, 0x0⟩,
  ⟨0x6010c, [(64, 0x20)], 0x101, 0xffff, 0x0, 0x0, 0x0⟩,
  ⟨0x60110, [(64, 0x20)], 0x0, 0x0, 0x0, 0x0, 0x0⟩,
  ⟨0x60900, [(16, 0x20)], 0x0, 0x737738, 0x0, 0x3, 0x0⟩,
  ⟨0x60904, [(16, 0x20)], 0x0, 0x3f3f3f3f, 0x0, 0x0, 0x0⟩,
  ⟨0x60908, [(16, 0x20)], 0x0, 0x3f3f3f3f, 0x0, 0x0, 0x0⟩,
  ⟨0x6090c, [(16, 0x20)], 0x0, 0xffffffff, 0x0, 0x0, 0x0⟩,
  ⟨0x60910, [(16, 0x20)], 0x0, 0xffffffff, 0x0, 0x0, 0x0⟩,
  ⟨0x60914, [(16, 0x20)], 0x0, 0xffffffff, 0x0, 0x0, 0x0⟩,
  ⟨0x60918, [(16, 0x20)], 0x0, 0x173f, 0x0, 0x0, 0x0⟩,
  ⟨0x6091c, [(16, 0x20)], 0x0, 0x0, 0x0, 0x0, 0x0⟩,
  ⟨0x60c00, [(16, 0x40), (6, 0x4)], 0x0, 0xffffffff, 0x0, 0x0, 0x0⟩]
/-- The register table of block 6. -/
def rows_6 : List RegRow := rows_6_0
def rows_7_0 : List RegRow := [
  ⟨0x70000, [], 0x2020c30, 0x0, 0x0, 0x0, 0xffffffff⟩,
  ⟨0x70004, [], 0x1d4c, 0x3fff, 0x0, 0x0, 0x0⟩,
  ⟨0x70008, [], 0x0, 0x0, 0x0, 0x0, 0x0⟩,
  ⟨0x7000c, [], 0x0, 0x0, 0x3f, 0x0, 0x0⟩,
  ⟨0x70010, [], 0x189374b, 0x0, 0x0, 0x0, 0x0⟩,
  ⟨0x70014, [], 0x0, 0x0, 0x0, 0x0, 0x0⟩,
  ⟨0x70018, [], 0x126e978, 0x0, 0x0, 0x0, 0x0⟩,
  ⟨0x7001c, [], 0x0, 0x0, 0x0, 0x0, 0x0⟩,
  ⟨0x70020, [], 0x0, 0x0, 0x0, 0x0, 0x0⟩,
  ⟨0x70024, [], 0x0, 0x0, 0x0, 0x0, 0x0⟩,
  ⟨0x70400, [(256, 0x10)], 0x0, 0x0, 0x0, 0x3, 0x0⟩,
  ⟨0x70404, [(256, 0x10)], 0x0, 0x0, 0x0, 0x0, 0x0⟩,
  ⟨0x70408, [(256, 0x10)], 0x0, 0x0, 0x0, 0x0, 0x0⟩,
  ⟨0x7040c, [(256, 0x10)], 0x0, 0x0, 0x0, 0x0, 0x0⟩]
/-- The register table of block 7. -/
def rows_7 : List RegRow := rows_7_0
def rows_8_0 : List RegRow := [
  ⟨0x80000, [], 0x8, 0x1f, 0x0, 0x0, 0x0⟩,
  ⟨0x80004, [], 0x0, 0x0, 0x0, 0x0, 0x0⟩,
  ⟨0x80008, [], 0x0, 0x0, 0xf, 0x0, 0x0⟩,
  ⟨0x8000c, [], 0x100, 0x0, 0x0, 0x0, 0xfff⟩,
  ⟨0x80010, [], 0x40000, 0x0, 0x0, 0x0, 0x0⟩,
  ⟨0x81000, [(256, 0x20)], 0x0, 0x73, 0x0, 0x300, 0x0⟩,
  ⟨0x81004, [(256, 0x20)], 0x0, 0xffffffff, 0x0, 0x0, 0x0⟩,
  ⟨0x8100c, [(256, 0x20)], 0x0, 0xffffffff, 0x0, 0x0, 0x0⟩,
  ⟨0x81008, [(256, 0x20)], 0x0, 0xffffffff, 0x0, 0x0, 0x0⟩,
  ⟨0x81010, [(256, 0x20)], 0x0, 0xffffffff, 0x0, 0x0, 0x0⟩,
  ⟨0x81014, [(256, 0x20)], 0x0, 0x0, 0x0, 0x0, 0x0⟩,
  ⟨0x81018, [(256, 0x20)], 0x0, 0x0, 0x0, 0x0, 0x0⟩,
  ⟨0x8101c, [(256, 0x20)], 0x0, 0x0, 0x0, 0x0, 0x0⟩]
/-- The register table of block 8. -/
def rows_8 : List RegRow := rows_8_0
def rows_9_0 : List RegRow := [
  ⟨0x90000, [], 0x2, 0x0, 0x0, 0x0, 0x13⟩,
  ⟨0x90004, [], 0x0, 0x0, 0x0, 0x0, 0x0⟩,
  ⟨0x90008, [], 0x0, 0x0, 0xff, 0x0, 0x0⟩,
  ⟨0x9000c, [], 0x2000, 0x0, 0x0, 0x0, 0x3fff⟩,
  ⟨0x90010, [], 0x0, 0x0, 0x0, 0x0, 0x0⟩,
  ⟨0x90014, [], 0x0, 0x0, 0x0, 0x0, 0x0⟩,
  ⟨0x90018, [], 0x0, 0x0, 0x0, 0x0, 0x0⟩,
  ⟨0x90100, [(2, 0x80)], 0x1770001, 0x0, 0x0, 0x0, 0xfffc73f⟩,
  ⟨0x90104, [(2, 0x80)], 0x0, 0x0, 0x0, 0x0, 0x0⟩,
  ⟨0x90400, [(16, 0x40)], 0xb8d60000, 0x0, 0x0, 0x0, 0xffff001f⟩,
  ⟨0x90404, [(16, 0x40)], 0x0, 0x0, 0x0, 0x0, 0xffffffff⟩,
  ⟨0x90408, [(16, 0x40)], 0x0, 0x0, 0x0, 0x0, 0xffffffff⟩,
  ⟨0x9040c, [(16, 0x40)], 0x0, 0x0, 0x0, 0x0, 0xffffffff⟩,
  ⟨0x90410, [(16, 0x40)], 0x0, 0x0, 0x0, 0x0, 0xffffffff⟩,
  ⟨0x90414, [(16, 0x40)], 0x0, 0x0, 0x0, 0x0, 0xff⟩,
  ⟨0x90418, [(16, 0x40)], 0x0, 0x7fff, 0x0, 0x0, 0x0⟩,
  ⟨0x9041c, [(16, 0x40)], 0x40, 0x1fff, 0x0, 0x0, 0x0⟩,
  ⟨0x90420, [(16, 0x40)], 0x0, 0x0, 0x0, 0x0, 0x0⟩,
  ⟨0x90424, [(16, 0x40)], 0x0, 0x0, 0x0, 0x0, 0x0⟩,
  ⟨0x90428, [(16, 0x40)], 0x0, 0x0, 0x0, 0x0, 0x0⟩,
  ⟨0x9042c, [(16, 0x40)], 0x0, 0x0, 0x0, 0x0, 0x0⟩,
  ⟨0x90430, [(16, 0x40)], 0x0, 0x0, 0x0, 0x0, 0x0⟩,
  ⟨0x90434, [(16, 0x40)], 0x0, 0x0, 0x0, 0x0, 0x0⟩,
  ⟨0x90108, [(2, 0x80)], 0x0, 0x0, 0x0, 0x0, 0x0⟩,
  ⟨0x9010c, [(2, 0x80)], 0x0, 0x0, 0x0, 0x0, 0x0⟩]
def rows_9_1 : List RegRow := [
  ⟨0x90110, [(2, 0x80)], 0x0, 0x0, 0x0, 0x0, 0xfff⟩,
  ⟨0x90114, [(2, 0x80)], 0x0, 0x0, 0x0, 0x0, 0xffffffff⟩,
  ⟨0x90118, [(2, 0x80)], 0x0, 0x0, 0x0, 0x0, 0x3f⟩,
  ⟨0x9011c, [(2, 0x80)], 0x0, 0x0, 0x0, 0x0, 0xffffffff⟩,
  ⟨0x90120, [(2, 0x80)], 0x0, 0x0, 0x0, 0x0, 0xffffffff⟩,
  ⟨0x90124, [(2, 0x80)], 0x0, 0x0, 0x0, 0x0, 0xffffffff⟩,
  ⟨0x90128, [(2, 0x80)], 0x0, 0x0, 0x0, 0x0, 0xffffffff⟩,
  ⟨0x9012c, [(2, 0x80)], 0x0, 0x0, 0x0, 0x0, 0xffffffff⟩,
  ⟨0x90130, [(2, 0x80)], 0x0, 0x0, 0x0, 0x0, 0xff⟩,
  ⟨0x90140, [(2, 0x80)], 0x0, 0x0, 0x0, 0x0, 0xffffffff⟩,
  ⟨0x90144, [(2, 0x80)], 0x0, 0x0, 0x0, 0x0, 0xffffffff⟩,
  ⟨0x90148, [(2, 0x80)], 0x0, 0x0, 0x0, 0x0, 0xffffffff⟩,
  ⟨0x9014c, [(2, 0x80)], 0x0, 0x0, 0x0, 0x0, 0xffffffff⟩]
/-- The register table of block 9. -/
def rows_9 : List RegRow := rows_9_0 ++ rows_9_1
def rows_10_0 : List RegRow := [
  ⟨0xa0000, [], 0x0, 0x0, 0x0, 0x0, 0xffff0033⟩,
  ⟨0xa0004, [], 0x0, 0x0, 0x0, 0x1, 0x0⟩,
  ⟨0xa0008, [], 0x0, 0x0, 0x0, 0x0, 0x0⟩,
  ⟨0xa000c, [], 0x0, 0x0, 0x1ff, 0x0, 0x0⟩,
  ⟨0xa0010, [], 0x0, 0x0, 0x0, 0x0, 0x3ffff⟩,
  ⟨0xa0014, [], 0x0, 0x0, 0x0, 0x0, 0x0⟩,
  ⟨0xa0018, [], 0x0, 0x0, 0x0, 0x0, 0xff03⟩,
  ⟨0xa0020, [], 0x0, 0x0, 0x0, 0x0, 0x0⟩,
  ⟨0xa0024, [], 0x0, 0x7ff, 0x0, 0x0, 0x0⟩,
  ⟨0xa0028, [], 0x0, 0x0, 0x0, 0x0, 0x0⟩,
  ⟨0xa002c, [], 0x0, 0x0, 0x0, 0x0, 0x0⟩,
  ⟨0xa0100, [(2, 0x20)], 0x0, 0x0, 0x0, 0x0, 0x0⟩,
  ⟨0xa0104, [(2, 0x20)], 0x0, 0x0, 0x0, 0x0, 0x0⟩]
/-- The register table of block 10. -/
def rows_10 : List RegRow := rows_10_0
def rows_11_0 : List RegRow := [
  ⟨0xb0000, [], 0x2, 0x0, 0x0, 0x0, 0x3⟩,
  ⟨0xb0004, [], 0x7000, 0x0, 0x0, 0x0, 0x0⟩,
  ⟨0xb0008, [], 0x0, 0x0, 0x1ff, 0x0, 0x0⟩,
  ⟨0xb000c, [], 0x0, 0x0, 0x0, 0x3, 0x0⟩,
  ⟨0xb0010, [], 0x1, 0x0, 0x0, 0x0, 0x1⟩,
  ⟨0xb0014, [], 0x7d0, 0x0, 0x0, 0x0, 0xffff⟩,
  ⟨0xb0018, [], 0xa, 0x0, 0x0, 0x0, 0xfff⟩,
  ⟨0xb001c, [], 0xa800, 0x0, 0x0, 0x0, 0xfff01⟩,
  ⟨0xb0020, [], 0x0, 0x0, 0x0, 0x0, 0x0⟩,
  ⟨0xb0024, [], 0x0, 0x0, 0x0, 0x0, 0x0⟩,
  ⟨0xb0028, [], 0x0, 0x0, 0x0, 0x0, 0x0⟩,
  ⟨0xb002c, [], 0x0, 0x0, 0x0, 0x0, 0x0⟩,
  ⟨0xb0030, [], 0x0, 0x0, 0x0, 0x0, 0x0⟩,
  ⟨0xb0034, [], 0x0, 0x0, 0x0, 0x0, 0x0⟩,
  ⟨0xb0038, [], 0x0, 0x0, 0x0, 0x0, 0x0⟩,
  ⟨0xb0040, [(2, 0x4)], 0x0, 0x0, 0x0, 0x0, 0x0⟩,
  ⟨0xb0048, [], 0x7, 0x0, 0x0, 0x0, 0x0⟩,
  ⟨0xb004c, [], 0x0, 0x0, 0x0, 0x0, 0x0⟩,
  ⟨0xb0050, [], 0x0, 0x0, 0x0, 0x0, 0x0⟩]
/-- The register table of block 11. -/
def rows_11 : List RegRow := rows_11_0
def rows_12_0 : List RegRow := [
  ⟨0xc0000, [], 0x10, 0x13, 0x0, 0x0, 0x0⟩,
  ⟨0xc0004, [], 0x0, 0x0, 0x0, 0x0, 0x0⟩,
  ⟨0xc0008, [], 0x0, 0x0, 0x3f, 0x0, 0x0⟩,
  ⟨0xc000c, [], 0x100, 0xffffffff, 0x0, 0x0, 0x0⟩,
  ⟨0xc0010, [], 0x1000, 0xffffffff, 0x0, 0x0, 0x0⟩,
  ⟨0xc0014, [], 0x40, 0x1fff, 0x0, 0x0, 0x0⟩,
  ⟨0xc0020, [], 0x0, 0xff00, 0x0, 0x3, 0x0⟩,
  ⟨0xc0024, [], 0x0, 0xffffffff, 0x0, 0x0, 0x0⟩,
  ⟨0xc0028, [], 0x0, 0xffffffff, 0x0, 0x0, 0x0⟩,
  ⟨0xc002c, [], 0x0, 0xffffff, 0x0, 0x0, 0x0⟩,
  ⟨0xc0030, [], 0x0, 0x0, 0x0, 0x0, 0x0⟩,
  ⟨0xc0100, [(8, 0x4)], 0x0, 0x0, 0x0, 0x0, 0x0⟩,
  ⟨0xc0200, [(12, 0x4)], 0x0, 0x0, 0x0, 0x0, 0x0⟩]
/-- The register table of block 12. -/
def rows_12 : List RegRow := rows_12_0
def rows_13_0 : List RegRow := [
  ⟨0xd0004, [], 0x0, 0x0, 0x0, 0x0, 0x0⟩,
  ⟨0xd0008, [], 0x0, 0x0, 0x7f, 0x0, 0x0⟩,
  ⟨0xd000c, [], 0x0, 0x0, 0x0, 0x3, 0x0⟩,
  ⟨0xd0010, [], 0x2580001, 0x0, 0x0, 0x0, 0xffff0001⟩,
  ⟨0xd0014, [], 0x0, 0x0, 0x0, 0x0, 0x0⟩,
  ⟨0xd0018, [], 0x0, 0x0, 0x0, 0x0, 0x0⟩,
  ⟨0xd001c, [], 0x0, 0x0, 0x0, 0x0, 0x0⟩,
  ⟨0xd0020, [], 0x0, 0x0, 0x0, 0x0, 0x0⟩,
  ⟨0xd0024, [], 0x0, 0x0, 0x0, 0x0, 0x0⟩,
  ⟨0xd0028, [], 0x0, 0x0, 0x0, 0x0, 0x0⟩,
  ⟨0xd002c, [], 0x0, 0x0, 0x0, 0x0, 0x0⟩,
  ⟨0xd0030, [], 0x0, 0x0, 0x0, 0x0, 0x0⟩,
  ⟨0xd0034, [], 0x0, 0x0, 0x0, 0x0, 0x0⟩,
  ⟨0xd0038, [], 0x0, 0x0, 0x0, 0x0, 0x0⟩,
  ⟨0xd003c, [], 0x0, 0x0, 0x0, 0x0, 0x0⟩,
  ⟨0xd0040, [], 0x0, 0x0, 0x0, 0x0, 0x0⟩]
/-- The register table of block 13. -/
def rows_13 : List RegRow := rows_13_0
def rows_14_0 : List RegRow := [
  ⟨0xe0000, [], 0x0, 0x0, 0x0, 0x0, 0x0⟩,
  ⟨0xe0004, [], 0x0, 0x0, 0x1f, 0x0, 0x0⟩,
  ⟨0xe0008, [], 0x0, 0x0, 0x0, 0x0, 0x0⟩,
  ⟨0xe000c, [], 0x0, 0x0, 0x0, 0x0, 0x0⟩,
  ⟨0xe0010, [], 0x0, 0x0, 0x0, 0x0, 0x0⟩,
  ⟨0xe0014, [], 0x0, 0x0, 0x0, 0x0, 0x0⟩,
  ⟨0xe0018, [], 0x0, 0x0, 0x0, 0x0, 0x0⟩]
/-- The register table of block 14. -/
def rows_14 : List RegRow := rows_14_0
def rows_0_0 : List RegRow := [
  ⟨0x0, [], 0x53480448, 0x0, 0x0, 0x0, 0x0⟩,
  ⟨0x4, [], 0x4200, 0x0, 0x0, 0x0, 0x0⟩,
  ⟨0x8, [], 0x0, 0x0, 0x0, 0x0, 0x0⟩,
  ⟨0xc, [], 0x0, 0x0, 0x0, 0x7, 0x0⟩,
  ⟨0x10, [], 0x0, 0x0, 0x0, 0x0, 0x0⟩,
  ⟨0x14, [], 0x0, 0x0, 0xf, 0x0, 0x0⟩,
  ⟨0x18, [], 0x0, 0x0, 0x0, 0x0, 0x0⟩,
  ⟨0x1c, [], 0x0, 0x0, 0x0, 0x0, 0x0⟩,
  ⟨0x20, [], 0x0, 0x0, 0x0, 0x0, 0xfff⟩,
  ⟨0x24, [], 0x0, 0x0, 0x0, 0x0, 0x0⟩,
  ⟨0x28, [], 0x0, 0x0, 0x0, 0x0, 0x0⟩,
  ⟨0x40, [(10, 0x4)], 0x0, 0x0, 0x0, 0x0, 0x0⟩]
/-- The register table of block 0. -/
def rows_0 : List RegRow := rows_0_0

/-- Per block i, the alert register and the bits of it that assert ALERT_N (R431). -/
def alertRegs : List (Nat × Nat × Nat) := [
  (1, 0x10008, 0x1e),
  (2, 0x20008, 0x7),
  (3, 0x30008, 0x7),
  (4, 0x40008, 0x8),
  (6, 0x60008, 0x9),
  (7, 0x7000c, 0x21),
  (8, 0x80008, 0x6),
  (9, 0x90008, 0x44),
  (10, 0xa000c, 0x3f),
  (11, 0xb0008, 0x1f),
  (12, 0xc0008, 0x12),
  (13, 0xd0008, 0x3c),
  (14, 0xe0004, 0x4),
  (0, 0x14, 0x3)]

/-- The _LO and _HI pairs and the TS96 triplets of R428: the row of the lowest word and the number of words. -/
def groupRows : List (RegRow × Nat) := [
  (⟨0x10030, [], 0, 0, 0, 0, 0⟩, 3),
  (⟨0x10108, [(4, 0x40)], 0, 0, 0, 0, 0⟩, 2),
  (⟨0x10110, [(4, 0x40)], 0, 0, 0, 0, 0⟩, 3),
  (⟨0x1041c, [], 0, 0, 0, 0, 0⟩, 2),
  (⟨0x10804, [(16, 0x20)], 0, 0, 0, 0, 0⟩, 2),
  (⟨0x30118, [(16, 0x20)], 0, 0, 0, 0, 0⟩, 2),
  (⟨0x180024, [(256, 0x800)], 0, 0, 0, 0, 0⟩, 2),
  (⟨0x1800c8, [(256, 0x800)], 0, 0, 0, 0, 0⟩, 2),
  (⟨0x50014, [], 0, 0, 0, 0, 0⟩, 2),
  (⟨0x7001c, [], 0, 0, 0, 0, 0⟩, 2),
  (⟨0x70408, [(256, 0x10)], 0, 0, 0, 0, 0⟩, 2),
  (⟨0x90420, [(16, 0x40)], 0, 0, 0, 0, 0⟩, 2),
  (⟨0x90428, [(16, 0x40)], 0, 0, 0, 0, 0⟩, 2),
  (⟨0xb0020, [], 0, 0, 0, 0, 0⟩, 2),
  (⟨0xb0028, [], 0, 0, 0, 0, 0⟩, 2),
  (⟨0xc0024, [], 0, 0, 0, 0, 0⟩, 2),
  (⟨0x100318, [(192, 0x800)], 0, 0, 0, 0, 0⟩, 2),
  (⟨0xd0034, [], 0, 0, 0, 0, 0⟩, 2),
  (⟨0x10480, [], 0, 0, 0, 0, 0⟩, 3),
  (⟨0x90108, [(2, 0x80)], 0, 0, 0, 0, 0⟩, 2)]

/-- The table of the block that an address lies in (R425). -/
def rowsFor (a : Nat) : List RegRow :=
  if a < 0x100000 then
    match a / 0x10000 with
    | 0 => rows_0 | 1 => rows_1 | 2 => rows_2 | 3 => rows_3 | 4 => rows_4
    | 5 => rows_5 | 6 => rows_6 | 7 => rows_7 | 8 => rows_8 | 9 => rows_9
    | 10 => rows_10 | 11 => rows_11 | 12 => rows_12 | 13 => rows_13 | 14 => rows_14
    | _ => []
  else if a < 0x160000 then rows_fast
  else if a < 0x180000 then []
  else if a < 0x200000 then rows_slow
  else []

/-- Whether an offset from a row's base is one of its indices, strides falling. -/
def onGrid : List (Nat × Nat) → Nat → Bool
  | [], rem => rem == 0
  | (count, stride) :: ds, rem => decide (rem / stride < count) && onGrid ds (rem % stride)

/-- Whether a row covers an address. -/
def RegRow.covers (r : RegRow) (a : Nat) : Bool := decide (r.base ≤ a) && onGrid r.dims (a - r.base)

/-- The row of an implemented register, none at a reserved address (R426). -/
def rowAt (a : Nat) : Option RegRow := (rowsFor a).find? (fun r => r.covers a)

/-- The reset word of a register, with the three tables whose reset differs by index: CONV of
AFS_GRPg_STAT is g (R153), TOTAL of SYS_SPAREc is the class's (R431), CH_FLT_FIRc is the unit tap at c = 0
(R192). A reserved address reads 0 (R426). -/
def resetWord (a : Nat) : Word :=
  match rowAt a with
  | none => 0
  | some r =>
    if r.base = R.SYS_SPAREc 0 then
      BitVec.ofNat 32 ([8, 2, 1, 1, 2, 64, 32, 1, 16, 1].getD ((a - r.base) / 4) 0 * 0x1000)
    else if r.base = R.AFS_GRPg_STAT 0 then
      BitVec.ofNat 32 (r.reset + (a - r.base) / 0x20)
    else if r.base = R.CH_FLT_FIRc 0 0 then
      if (a - r.base) % 0x800 = 0 then BitVec.ofNat 32 0x40000 else 0
    else BitVec.ofNat 32 r.reset

/-- The group of R428 that an address belongs to: lowest address and number of words. -/
def groupOf (a : Nat) : Option (Nat × Nat) :=
  groupRows.findSome? fun (r, k) =>
    if r.covers a then some (a, k)
    else if 4 ≤ a && r.covers (a - 4) then some (a - 4, k)
    else if 8 ≤ a && k == 3 && r.covers (a - 8) then some (a - 8, k)
    else none

end Sys2Proof.Machine
end

