-- ==== Sys2Proof/Machine/Ops.lean ====
section
/-! DEFINITION. Ops.lean: the named operations every command is written with: numbers and bytes, memory,
registers, the event recorder's staging, modes, LIMP causes, alerts and pins. -/
namespace Sys2Proof.Machine

/-! Numbers. -/

/-- The signed value of an `n`-bit two's-complement number. -/
def sx (n v : Nat) : Int := if v % 2 ^ n < 2 ^ (n - 1) then (v % 2 ^ n : Nat) else (v % 2 ^ n : Nat) - (2 ^ n : Nat)

/-- The `n`-bit two's complement of a number, wrapped. -/
def tw (n : Nat) (i : Int) : Nat := (i % (2 ^ n : Nat)).toNat

/-- A number held between two limits. -/
def clampI (lo hi x : Int) : Int := if x < lo then lo else if hi < x then hi else x

/-- A number held between the limits of `n`-bit two's complement. -/
def satI (n : Nat) (x : Int) : Int := clampI (-(2 ^ (n - 1) : Nat)) ((2 ^ (n - 1) : Nat) - 1) x

/-- A quotient rounded to the nearest integer, half to even. -/
def rhe (x : Int) (d : Nat) : Int :=
  let q := x / d
  let r := x % d
  if 2 * r < d then q else if (d : Int) < 2 * r then q + 1 else if q % 2 = 0 then q else q + 1

/-- A quotient rounded up. -/
def cdiv (n d : Nat) : Nat := (n + d - 1) / d

/-- Bit `i` of a number. -/
def bitOf (n i : Nat) : Bool := n.testBit i

/-- 1 or 0. -/
def b2n (b : Bool) : Nat := if b then 1 else 0

/-- The number of set bits among the lowest `n`. -/
def popc (n v : Nat) : Nat := (List.range n).countP (fun i => v.testBit i)

/-- A number as `n` bytes, lowest first. -/
def leBytes : Nat → Nat → List Byte
  | 0, _ => []
  | n + 1, v => BitVec.ofNat 8 v :: leBytes n (v / 256)

/-- A number as `n` bytes, highest first. -/
def beBytes (n v : Nat) : List Byte := (leBytes n v).reverse

/-- The value of bytes, lowest first. -/
def leVal : List Byte → Nat
  | [] => 0
  | b :: bs => b.toNat + 256 * leVal bs

/-- The value of bytes, highest first. -/
def beVal (bs : List Byte) : Nat := leVal bs.reverse

/-- The bytes of words, each little-endian (R4). -/
def wordBytes (ws : List Word) : List Byte := ws.flatMap (fun w => leBytes 4 w.toNat)

/-- Bytes cut into little-endian words, the last filled with zeros. -/
def bytesWords : List Byte → List Word
  | a :: b :: c :: d :: r => BitVec.ofNat 32 (leVal [a, b, c, d]) :: bytesWords r
  | [] => []
  | r => [BitVec.ofNat 32 (leVal r)]

/-- A word from its value. -/
def wd (n : Nat) : Word := BitVec.ofNat 32 n

/-- Words of a number, `n` of them, lowest first. -/
def numWords (n v : Nat) : List Word := (List.range n).map (fun i => wd (v / 2 ^ (32 * i)))

/-- The low and high word of a tick number (R61). -/
def tickWords (t : Nat) : List Word := [wd t, wd (t / 2 ^ 32)]

/-! Ticks, frames and epochs (R31, R34). -/

/-- The first frame boundary later than a tick (R34). -/
def nextFrame (t : Nat) : Nat := (t / Config.frame + 1) * Config.frame

/-- The first frame boundary at or after a tick (R34). -/
def frameAtOrAfter (t : Nat) : Nat := cdiv t Config.frame * Config.frame

/-! Byte memories: canonical lists of cells, addresses rising, no cell equal to what an unlisted address
reads as (log 3). -/

/-- The byte at an address of a memory whose unlisted bytes read `d`. -/
def Mem.read (d : Byte) : List Host.Cell → Nat → Byte
  | [], _ => d
  | (k, v) :: t, a => if k = a then v else Mem.read d t a

/-- The cells of consecutive bytes from an address: none for a byte that reads as `d`. -/
def Mem.cells (d : Byte) : Nat → List Byte → List Host.Cell
  | _, [] => []
  | a, b :: bs => if b = d then Mem.cells d (a + 1) bs else (a, b) :: Mem.cells d (a + 1) bs

/-- Consecutive bytes written from an address. -/
def Mem.write (d : Byte) (m : List Host.Cell) (a : Nat) (bs : List Byte) : List Host.Cell :=
  m.filter (fun c => decide (c.1 < a)) ++ Mem.cells d a bs ++ m.filter (fun c => decide (a + bs.length ≤ c.1))

/-- Consecutive bytes read from an address. -/
def Mem.bytes (d : Byte) (m : List Host.Cell) (a n : Nat) : List Byte :=
  (List.range n).map (fun i => Mem.read d m (a + i))

/-- The memory with the bytes from `a` to `a + n - 1` reading `d` again (an erase). -/
def Mem.clear (m : List Host.Cell) (a n : Nat) : List Host.Cell :=
  m.filter (fun c => c.1 < a || a + n ≤ c.1)

/-- The canonical form. -/
def Mem.canon (d : Byte) (m : List Host.Cell) : Bool :=
  (m.zip m.tail).all (fun p => decide (p.1.1 < p.2.1)) && m.all (fun c => c.2 != d)

/-! Registers: one file of words by address, an unlisted address holding its reset word (R425, R426). -/

/-- The word at a register address. -/
def Regs.read (m : List (Nat × Word)) (a : Nat) : Word := ((m.find? (fun c => c.1 == a)).map (·.2)).getD (resetWord a)

/-- A register file with one word replaced; a word equal to its reset word is not listed. -/
def Regs.write (m : List (Nat × Word)) (a : Nat) (v : Word) : List (Nat × Word) :=
  m.filter (fun c => decide (c.1 < a)) ++ (if v = resetWord a then [] else [(a, v)])
    ++ m.filter (fun c => decide (a < c.1))

/-- The canonical form of a register file: addresses rising, no word equal to its reset word. -/
def Regs.canon (m : List (Nat × Word)) : Bool :=
  (m.zip m.tail).all (fun p => decide (p.1.1 < p.2.1)) && m.all (fun c => c.2 != resetWord c.1)

/-- The stored word of a register. -/
def State.rd (s : State) (a : Nat) : Word := Regs.read s.regs a

/-- A register's stored word replaced. -/
def State.wr (s : State) (a : Nat) (v : Word) : State := { s with regs := Regs.write s.regs a v }

/-- The value of a field within a word. -/
def Fld.ofWord (f : Fld) (w : Word) : Nat := w.toNat / 2 ^ f.lo % 2 ^ f.len

/-- A word with one field replaced. -/
def Fld.into (f : Fld) (w : Word) (v : Nat) : Word :=
  wd (w.toNat - f.ofWord w * 2 ^ f.lo + v % 2 ^ f.len * 2 ^ f.lo)

/-- The value of a register field (R4). -/
def State.get (s : State) (f : Fld) : Nat := f.ofWord (s.rd f.addr)

/-- A register field replaced. -/
def State.put (s : State) (f : Fld) (v : Nat) : State := s.wr f.addr (f.into (s.rd f.addr) v)

/-- A one-bit field set (an alert or status bit). -/
def State.flag (s : State) (f : Fld) : State := s.put f 1

/-- Whether a one-bit field is set. -/
def State.on (s : State) (f : Fld) : Bool := s.get f != 0

/-- Work done with other words in registers, which get the words that stood there back after it. -/
def State.withWords (s : State) (l : List (Nat × Word)) (f : State → State) : State :=
  (l.map fun e => (e.1, s.rd e.1)).foldl (fun t e => t.wr e.1 e.2) (f (l.foldr (fun e t => t.wr e.1 e.2) s))

/-- The value of a register field in force in the tick in hand: a write in this tick acts at the next (R429). -/
def State.getWas (s : State) (f : Fld) : Nat :=
  f.ofWord (match s.sys.wrote.find? (fun e => e.1 == f.addr) with | some e => e.2 | none => s.rd f.addr)

/-- The signed value of a field. -/
def State.getI (s : State) (f : Fld) : Int := sx f.len (s.get f)

/-- A field counted up, saturating at all ones. -/
def State.countUp (s : State) (f : Fld) (n : Nat := 1) : State :=
  s.put f (min (2 ^ f.len - 1) (s.get f + n))

/-- The 64-bit value of a register pair. -/
def State.rd64 (s : State) (a : Nat) : Nat := (s.rd a).toNat + (s.rd (a + 4)).toNat * 2 ^ 32

/-- A register pair replaced. -/
def State.wr64 (s : State) (a v : Nat) : State := (s.wr a (wd v)).wr (a + 4) (wd (v / 2 ^ 32))

/-- Three registers replaced by a TS96 (R60). -/
def State.wr96 (s : State) (a v : Nat) : State := (s.wr64 a v).wr (a + 8) (wd (v / 2 ^ 64))

/-! Time formats (R60, R61). -/

/-- TS96 of a time in units of 2⁻¹⁶ ns (R60). -/
def ts96 (u : Nat) : Nat :=
  let ns := u / 2 ^ 16
  (ns / 1000000000 * 2 ^ 48) + (ns % 1000000000 * 2 ^ 16) + u % 2 ^ 16

/-- The time in 2⁻¹⁶ ns that a TS96 stands for (R60). -/
def ts96Units (v : Nat) : Nat := (v / 2 ^ 48 * 1000000000 + v / 2 ^ 16 % 2 ^ 32) * 2 ^ 16 + v % 2 ^ 16

/-- AT in units of 2⁻¹⁶ ns. -/
def State.atUnits (s : State) : Nat := (s.tim.atVal / 2 ^ 48).toNat

/-- The pair (TICK64, SUBTICK) of a time in units of 2⁻¹⁶ ns, truncated (R61). -/
def tickOf (u : Nat) : Nat × Nat :=
  (u / (500 * 2 ^ 16), u % (500 * 2 ^ 16) * 65536 / (500 * 2 ^ 16))

/-- TIME of a log record (R409): AT once it is set, before that the time since PORST_N was released. -/
def State.logTime (s : State) : BitVec 96 :=
  if s.tim.atSet then BitVec.ofNat 96 (ts96 s.atUnits) else BitVec.ofNat 96 (s.tim.frc % 2 ^ 48)

/-! The event recorder's staging (R408, R410, R412). -/

/-- One data field of an event, by its kind (R408): a 32-bit word, a 16-bit field, a signed 16-bit field
and a tick stored as its offset from the tick of TIME. -/
inductive LogF where
  | w (n : Nat)
  | h (n : Nat)
  | i (n : Int)
  | t (tick : Nat)
  deriving DecidableEq, Repr

/-- The bytes of a data field (R408); what a 16-bit field holds of a quantity beyond it is free (log 26). -/
def LogF.bytes (now : Nat) : LogF → List Byte
  | .w n => leBytes 4 n
  | .h n => leBytes 2 (if n < 65536 then n else Config.freeHalf n)
  | .i n => leBytes 2 (if satI 16 n = n then tw 16 n else Config.freeHalf n)
  | .t k => leBytes 2 (tw 16 (clampI (-32767) 32767 ((k : Int) - now)))

/-- Data fields packed in order into records of 8 bytes (R408). -/
def packLog : List (List Byte) → List Byte → List (List Byte)
  | [], cur => [cur ++ List.replicate (8 - cur.length) 0]
  | f :: fs, cur =>
    if cur.length + f.length ≤ 8 then packLog fs (cur ++ f)
    else (cur ++ List.replicate (8 - cur.length) 0) :: packLog fs f

/-- SOURCE of an event (R407): the block number, 0xF for the per-channel blocks, and the instance. -/
def evSource (block inst : Nat) : Nat := block % 16 * 4096 + inst % 4096

/-- The staged records with the open one closed in tick `t` (R410). -/
def closeOpen (l : LogSt) (t : Nat) : List LogRec :=
  match l.openAt, l.staged with
  | some _, r :: rs => { r with closedAt := some t } :: rs
  | _, rs => rs

/-- One record appended to staging with the next SEQ (R410): the open record closes; a continuation is closed at once. -/
def State.stageRec (s : State) (r : LogRec) (opened : Bool) : State :=
  let l : LogSt := { s.log with
    staged := { r with seq := s.log.next, closedAt := if opened then none else some s.tick } :: closeOpen s.log s.tick
    next := (s.log.next + 1) % 2 ^ 32
    openAt := if opened then some s.tick else none }
  ({ s with log := l }).wr R.LOG_SEQ (wd s.log.next)

/-- An event that staging cannot take is counted for its class (R412). -/
def State.loseEvent (s : State) (code : Nat) : State :=
  let cls := code / 256
  let old := (s.log.lost.find? (fun e => e.1 == cls)).getD (cls, 0, s.tick)
  let lost := (cls, old.2.1 + 1, old.2.2) :: s.log.lost.filter (fun e => e.1 != cls)
  (({ s with log := { s.log with lost := lost } }).flag F.LOG_ALERT_LOST).countUp F.LOG_LOST_COUNT

/-- An event enters staging (R410): it joins the open record, or closes it and opens a new one, with
continuation records for the fields that do not fit (R408). -/
def State.event (s : State) (code source : Nat) (fields : List LogF) : State :=
  let parts := packLog (fields.map (LogF.bytes s.tick)) []
  let head := parts.headD []
  let rest := parts.tail
  let fresh : LogRec := { time := s.logTime, code := code, source := source, rep := 1, data := head }
  let stageNew :=
    if s.log.staged.length + parts.length ≤ Config.stagingSlots then
      rest.foldl (fun s p => s.stageRec { fresh with rep := 0, data := p } false) (s.stageRec fresh true)
    else s.loseEvent code
  match s.log.staged with
  | r :: rs =>
    if s.log.openAt.isSome ∧ rest = [] ∧ r.code = code ∧ r.source = source ∧ r.data = head ∧ r.rep < 65535 then
      { s with log := { s.log with staged := { r with rep := r.rep + 1, time := s.logTime } :: rs } }
    else stageNew
  | [] => stageNew

/-! Modes, LIMP causes and pins (R42, R43, R45). -/

/-- SYS_MODE value of a mode (R3). -/
def Mode.code : Mode → Nat
  | .load => 0 | .dormant => 1 | .trim => 2 | .run => 3 | .limp => 4 | .hold => 5

/-- Whether the mode is RUN or LIMP. -/
def State.running (s : State) : Bool := s.sys.mode == .run || s.sys.mode == .limp

/-- Whether the mode is TRIM, RUN or LIMP, in which registers take writes (R429). -/
def State.liveMode (s : State) : Bool := s.running || s.sys.mode == .trim

/-- Whether privileged writes are taken: in every mode but LOAD (R292, R429). -/
def State.served (s : State) : Bool := !s.sys.porst && s.sys.mode != .load

/-- Whether the mode is TRIM, RUN, LIMP or HOLD, in which tick numbers advance and the stream has a life
(R33). -/
def State.live (s : State) : Bool := s.running || s.sys.mode == .trim || s.sys.mode == .hold

/-- A change of mode, logged with the old mode, the new mode and the cause (R43). The count toward an automatic
confirmation runs in RUN only (R403). -/
def State.setMode (s : State) (m : Mode) (cause : Nat) : State :=
  ({ s with sys := { s.sys with mode := m, prev := s.sys.mode, chg := some ⟨s.tick, s.sys.mode, s.sys.prev, cause, s.log.next⟩ }
            upd := { s.upd with runFrom := if m = Mode.run then some s.tick else none } }).event Ev.MODE_CHANGE (evSource 0 0)
    [.h s.sys.mode.code, .h m.code, .h cause]

/-- Whether the hub braces in the tick in hand (R51): to the end of the 64th consecutive tick in which every supply has stood above its resume
level. -/
def State.bracingNow (s : State) : Bool := s.pwr.bracing.isSome && decide (s.tick ≤ s.pwr.lastLow + 64)

/-- The LIMP causes in force (SYS_LIMP, R431). -/
def State.limpBits (s : State) : Nat := (s.rd R.SYS_LIMP).toNat

/-- The LIMP causes that last until the part is replaced (R42): all but a core out of service, a weathervane
lane out and no core in service. -/
def limpForLife (i : Nat) : Bool := i != 2 && i != 12 && i != 14

/-- A change of mode taken back (R42, R49): its EV_MODE_CHANGE, known by its SEQ, leaves staging again. -/
def State.takeBack (s : State) (c : ModeChg) : State :=
  let s1 := { s with sys := { s.sys with mode := c.mode, prev := c.prev, chg := none }, upd := { s.upd with runFrom := none } }
  match s.log.staged.findIdx? (fun r => r.code == Ev.MODE_CHANGE && r.seq == c.seq) with
  | none => s1
  | some n =>
    let newer := (s.log.staged.take n).map fun r => { r with seq := (r.seq + 2 ^ 32 - 1) % 2 ^ 32 }
    let l : LogSt := { s.log with
      staged := newer ++ s.log.staged.drop (n + 1)
      next := (s.log.next + 2 ^ 32 - 1) % 2 ^ 32
      openAt := if n = 0 then none else s.log.openAt }
    ({ s1 with log := l }).wr R.LOG_SEQ (wd (l.next + 2 ^ 32 - 1))

/-- The change of mode that has been made in the tick in hand. -/
def State.chgNow (s : State) : Option ModeChg := s.sys.chg.filter (fun c => c.tick == s.tick)

/-- The change of mode made in the tick in hand taken back where a cause of higher precedence follows it there (R42): one to LIMP, a trim on
command, the end of a trim or a return to RUN. -/
def State.overrule (s : State) : State :=
  match s.chgNow with
  | some c => if 0x12 ≤ c.cause ∧ c.cause ≤ 0x14 ∨ 0x100 ≤ c.cause then s.takeBack c else s
  | none => s

/-- A LIMP cause noted: it shows in SYS_LIMP and, where it lasts, on the part. -/
def State.noteLimp (s : State) (i : Nat) : State :=
  { s with part := if limpForLife i then { s.part with limp := s.part.limp ||| BitVec.ofNat 15 (2 ^ i) } else s.part
           regs := Regs.write s.regs R.SYS_LIMP (s.rd R.SYS_LIMP ||| wd (2 ^ i)) }

/-- A LIMP cause arises (R18, R42): it shows in SYS_LIMP, and a hub in RUN enters LIMP in that tick. One that returned to RUN in this very tick
stays in LIMP (R49), one whose trim ended in it enters LIMP from TRIM, and of the bits that arise in the tick of the change its record names
the lowest (R43). -/
def State.raiseLimp (s : State) (i : Nat) : State :=
  let s1 := s.noteLimp i
  if s.sys.mode = .run then
    match s.chgNow with
    | some c =>
      if c.cause = 0x14 then s1.takeBack { c with mode := .limp }
      else if c.cause = 0x12 then (s1.takeBack c).setMode .limp 0x12
      else s1.setMode .limp (0x100 + i)
    | none => s1.setMode .limp (0x100 + i)
  else if s.sys.mode = .limp then
    match s.chgNow with
    | some c => if 0x100 + i < c.cause then (s1.takeBack c).setMode .limp (0x100 + i) else s1
    | none => s1
  else s1

/-- A LIMP cause ends (R42): with the last one gone the return to RUN is due at the next frame boundary. -/
def State.clearLimp (s : State) (i : Nat) : State :=
  let s1 := s.wr R.SYS_LIMP (s.rd R.SYS_LIMP &&& ~~~ (wd (2 ^ i)))
  if s1.limpBits = 0 ∧ s.limpBits ≠ 0 then { s1 with sys := { s1.sys with limpEnd := some s.tick } } else s1

/-- A spare of class `c` is brought into use (R18, SYS_SPAREc). -/
def State.useSpare (s : State) (c : Nat) : State := s.countUp (F.SYS_SPAREc_USED c)

/-- The loss that R18 names for class `c` is in force: SYS_SPAREc.EXH and LIMP. -/
def State.exhaust (s : State) (c : Nat) : State := (s.flag (F.SYS_SPAREc_EXH c)).raiseLimp c

/-- SYS_ALERT_SUM (R431): the blocks that hold a set alert bit asserting ALERT_N, and the modes that
assert it. -/
def State.alertSum (s : State) : Nat :=
  (alertRegs.map fun (i, a, m) => if (s.rd a).toNat &&& m ≠ 0 then 2 ^ i else 0).sum
    + (if s.sys.mode = .dormant ∨ s.sys.mode = .hold then 2 ^ 15 else 0)

/-- The conditions that assert ALERT_N now (R431, R456). -/
def State.alertNow (s : State) : Bool := s.alertSum != 0 || s.pwr.hot

/-- ALERT_N asserted: it falls in the tick after the last condition ends (R431). -/
def State.alertN (s : State) : Bool := s.alertNow || s.sys.alert

/-- REPLACE_N asserted (R45). -/
def State.replaceN (s : State) : Bool :=
  match s.sys.mode with
  | .limp | .hold => true
  | .trim => s.sys.prev == .limp || s.limpBits != 0
  | _ => false

/-- HOLD_N asserted (R45). -/
def State.holdN (s : State) : Bool := s.sys.mode == .hold

/-- A free value is drawn: the next draw number, and the counter advanced (log 11). -/
def State.draw (s : State) : Nat × State :=
  (s.sys.freeCtr, { s with sys := { s.sys with freeCtr := s.sys.freeCtr + 1 } })

/-- `n` free bytes of draw `d` (log 8). -/
def freeBytes (d n : Nat) : List Byte := (List.range n).map fun i => Config.freeByte (d * 2 ^ 32 + i)

/-- Something put on a wire. -/
def State.send (s : State) (t : Tx) : State := { s with net := { s.net with out := t :: s.net.out } }

/-- A case of R434 has arisen; the first one met in a command is kept. -/
def State.unchecked (s : State) (n : Nat) : State :=
  { s with sys := { s.sys with unchecked := some (s.sys.unchecked.getD n) } }

/-- The outcome of a command: a fault where a case of R434 has arisen in it (log 6), the next state
otherwise. -/
def State.finish (s : State) : Host.Outcome State Fault Refusal :=
  match s.sys.unchecked with
  | some n => .fault (.uncheckedCase n)
  | none => .next s

end Sys2Proof.Machine
end

