-- ==== Sys2Proof/Machine/Crc.lean ====
section
/-! DEFINITION. Crc.lean: CRC-16 (R256) and CRC-32C (R258). -/
namespace Sys2Proof.Machine

/-- One bit of CRC-16, polynomial 0x1021, highest bit first (R256). -/
def crc16Bit (c : Nat) : Nat := if c.testBit 15 then (c * 2 % 65536) ^^^ 0x1021 else c * 2 % 65536

/-- One byte of CRC-16. -/
def crc16Byte (c : Nat) (b : Byte) : Nat := Nat.repeat crc16Bit 8 (c ^^^ (b.toNat * 256))

/-- CRC-16, initial value 0xFFFF, no reflection, no final inversion (R256). -/
def crc16 (bs : List Byte) : Nat := bs.foldl crc16Byte 0xFFFF

/-- One bit of CRC-32C, reflected (R258). -/
def crc32cBit (c : Nat) : Nat := if c % 2 = 1 then (c / 2) ^^^ 0x82F63B78 else c / 2

/-- One byte of CRC-32C. -/
def crc32cByte (c : Nat) (b : Byte) : Nat := Nat.repeat crc32cBit 8 (c ^^^ b.toNat)

/-- CRC-32C, initial value 0xFFFF_FFFF and final inversion (R258). -/
def crc32c (bs : List Byte) : Nat := bs.foldl crc32cByte 0xFFFFFFFF ^^^ 0xFFFFFFFF

/-- CRC-32C over words, each little-endian. -/
def crc32cWords (ws : List Word) : Nat := crc32c (wordBytes ws)

end Sys2Proof.Machine
end

