-- ==== Sys2Proof/Machine/Packet.lean ====
section
/-! DEFINITION. Packet.lean: what the hub puts on a wire: NSP datagrams (R274) with their addresses (R270 to R272), and stack packets
(R307, R308). -/
namespace Sys2Proof.Machine

/-! Headers (R274). -/

/-- The first 24 bytes of a header, in network byte order. -/
def header24 (typ hubStream seq first len boot : Nat) : List Byte :=
  beBytes 2 0x4E53 ++ [1#8, BitVec.ofNat 8 typ] ++ beBytes 2 hubStream ++ beBytes 6 seq ++ beBytes 8 first ++ beBytes 2 len ++ beBytes 2 boot

/-- The UDP payload of an NSP datagram: its header, with LENGTH and CRC over the payload, and its payload. -/
def NspHead.bytes (h : NspHead) (words : List Word) : List Byte :=
  header24 h.typ (h.hubId % 4096 * 16 + h.stream % 16) h.seq h.first (4 * words.length) h.boot ++ beBytes 4 (crc32cWords words) ++ wordBytes words

/-- Header bytes 0 to 23 of a request (R297): BOOT is 0 in requests. -/
def reqHeader (typ : Nat) (r : Req) : List Byte :=
  header24 typ (r.hubId % 4096 * 16 + r.stream % 16) r.seq r.firstTick (4 * r.words.length) 0

/-- This hub's HUB_ID. -/
def State.hubId (s : State) : Nat := s.get F.SYS_HUB_ID_HUB_ID

/-- The HUB_ID of the member at a position: the neighbour's as its link told it (R305); farther ones are free (log 30). -/
def State.memberId (s : State) (p : Nat) : Nat :=
  if p = s.sys.pos then s.hubId else if p = s.sys.pos + 1 then s.get (F.STK_PORTx_NEIGH_HUB_ID 1) else Config.memberHubId p

/-! Addresses (R270 to R272). -/

/-- IPv4 address of a port; in DORMANT the one of R272. -/
def State.ip4 (s : State) (x : Nat) : Nat :=
  if s.sys.mode = .dormant then
    let s0 := s.part.serial.toNat % 256
    let s1 := s.part.serial.toNat / 256 % 256
    169 * 2 ^ 24 + 254 * 2 ^ 16 + (if s1 = 0 ∨ s1 = 255 then 1 else s1) * 256 + s0
  else if s.get (F.NSP_UPx_IP4_CFG_VALUE x) = 0 then 0
  else (s.rd (R.NSP_UPx_IP4 x)).toNat

/-- The link-local address formed from a MAC by EUI-64 (R272). -/
def eui64 (mac : BitVec 48) : Nat :=
  let m := mac.toNat ^^^ 0x020000000000
  0xFE80 * 2 ^ 112 + m / 2 ^ 24 * 2 ^ 40 + 0xFFFE * 2 ^ 24 + m % 2 ^ 24

/-- MAC address of a port (R271). -/
def State.mac (s : State) (x : Nat) : BitVec 48 := s.part.mac.getD x 0

/-- IPv6 address of a port; in DORMANT the link-local one (R272). -/
def State.ip6 (s : State) (x : Nat) : Nat :=
  if s.sys.mode = .dormant then eui64 (s.mac x)
  else if s.get (F.NSP_UPx_IP6_CFG_VALUE x) = 0 then 0
  else (s.rd (R.NSP_UPx_IP6_0 x)).toNat * 2 ^ 96 + (s.rd (R.NSP_UPx_IP6_1 x)).toNat * 2 ^ 64
    + (s.rd (R.NSP_UPx_IP6_2 x)).toNat * 2 ^ 32 + (s.rd (R.NSP_UPx_IP6_3 x)).toNat

/-- Address of a port in a family, 0 where the family is off. -/
def State.ipOf (s : State) (x : Nat) (v6 : Bool) : Nat := if v6 then s.ip6 x else s.ip4 x

/-- The 802.1Q tag that a port sends with VLAN_EN, none in DORMANT (R270, R272). -/
def State.vlanTag (s : State) (x : Nat) : Option Nat :=
  if s.sys.mode = .dormant ∨ ¬ s.on (F.NSP_UPx_CFG_VLAN_EN x) then none
  else some (s.get (F.NSP_UPx_CFG_PCP x) * 8192 + (s.rd (R.NSP_UPx_VID x)).toNat % 4096)

/-- The envelope of a datagram that leaves an uplink: DF on every IPv4 datagram (R270). -/
def State.udpOn (s : State) (x : Nat) (v6 : Bool) (dst srcPort dstPort : Nat) : Udp :=
  { v6 := v6, src := s.ipOf x v6, dst := dst, srcPort := srcPort, dstPort := dstPort, df := !v6 }

/-- A frame put on an uplink. -/
def State.uplinkSend (s : State) (t : Tx) : State := s.send { t with tag := s.vlanTag t.port }

/-- The destination address of stream `m` (R279): the words of NSP_STRm_DST, the first 32 bits in DST0. -/
def State.streamDst (s : State) (m : Nat) : Nat :=
  let w (i : Nat) : Nat := (s.rd (R.NSP_STRm_DST0 m + 4 * i)).toNat
  if s.on (F.NSP_STRm_CFG_V6 m) then w 0 * 2 ^ 96 + w 1 * 2 ^ 64 + w 2 * 2 ^ 32 + w 3 else w 0

/-- The header of a datagram of stream `m` (R274, R279, R280): TYPE 0x01, and the HUB_ID of its position (R323) as it was formed (R285). -/
def State.dataHead (s : State) (m : Nat) (d : Dgram) : NspHead :=
  { typ := 1, hubId := d.hubId, stream := m, seq := d.seq, first := d.first, boot := s.part.boot }

/-- The source address and VLAN tag of a datagram on a port (R285): as when it first left it; on a port that it has not left in SPLIT or FAILOVER, as
when it first left the other. -/
def State.origOf (s : State) (port : Nat) (d : Dgram) : Nat × Option Nat :=
  let new := (s.ipOf port d.v6, s.vlanTag port)
  match d.orig.look port with
  | some e => e
  | none => if s.get F.NSP_CTRL_MODE = 0 then new else ((d.orig.head?).map (·.2)).getD new

/-- A datagram of stream `m` as it leaves an uplink (R279). A repeat differs from the original in the source MAC at most (R285). -/
def State.dataTx (s : State) (port m : Nat) (kind : TxKind) (d : Dgram) : Tx :=
  let o := s.origOf port d
  { port := port, kind := kind, stream := m, seq := d.seq, words := d.words, nsp := some (s.dataHead m d)
    udp := some { s.udpOn port d.v6 d.dst 47318 d.dstPort with src := o.1 }, tag := o.2 }

/-- The sum of a list of bytes as 16-bit numbers in network order, an odd last byte padded. -/
def sum16 : List Byte → Nat
  | a :: b :: r => a.toNat * 256 + b.toNat + sum16 r
  | [a] => a.toNat * 256
  | [] => 0

/-- The UDP checksum of a datagram (R270), by the rule of UDP: over the pseudo-header, the UDP header and the payload; 0 is sent as 0xFFFF. -/
def Udp.checksum (u : Udp) (payload : List Byte) : Nat :=
  let n := payload.length + 8
  let pseudo := if u.v6 then beBytes 16 u.src ++ beBytes 16 u.dst ++ beBytes 4 n ++ beBytes 4 17
    else beBytes 4 u.src ++ beBytes 4 u.dst ++ beBytes 2 17 ++ beBytes 2 n
  let t := sum16 (pseudo ++ beBytes 2 u.srcPort ++ beBytes 2 u.dstPort ++ beBytes 2 n) + sum16 payload
  let c := 65535 - ((t - 1) % 65535 + 1)
  if c = 0 then 65535 else c

/-- The UDP checksum that something on an uplink carries. -/
def Tx.checksum (t : Tx) : Option Nat :=
  match t.udp, t.nsp with
  | some u, some h => some (u.checksum (h.bytes t.words))
  | _, _ => none

/-! Stack packets (R307, R308). -/

/-- The two header words of a packet with `n` payload words. -/
def StkHead.words (h : StkHead) (n : Nat) : List Word :=
  [wd (h.kind % 16 + h.cls % 8 * 16 + b2n h.last * 128 + h.src % 16 * 256 + h.dest % 16 * 4096 + n % 2048 * 65536),
   wd (h.seq % 65536 + h.ack % 65536 * 65536)]

/-- The words of a stack packet as they cross the link: header, payload, and the CRC-32C over both. -/
def Tx.packet (t : Tx) : List Word :=
  match t.stk with
  | some h => let w := h.words t.words.length ++ t.words; w ++ [wd (crc32cWords w)]
  | none => t.words

/-- Bytes that a packet takes in the replay buffer. -/
def Tx.stkBytes (t : Tx) : Nat := 12 + 4 * t.words.length

/-- Whether a packet fits the replay buffer of 64 KiB beside those it holds. -/
def replayFits (replay : List Tx) (t : Tx) : Bool := decide ((replay.map Tx.stkBytes).sum + t.stkBytes ≤ 65536)

/-- The class of a packet whose source has none of R38's: free (log 31); pooled writes are P0, window reads P3, management P5 (R38, R319). -/
def kindClass (kind : Nat) : Nat :=
  match kind with
  | 1 => 0 | 2 => 3 | 3 => 3 | 8 => 5
  | k => Config.packetClass k % 6

/-- A packet put on stack port `x` with the next link sequence. It stays in the replay buffer until it is acknowledged, and waits
where the buffer has no room for it. -/
def State.stkPut (s : State) (x : Nat) (t : Tx) (h : StkHead) : State :=
  let p := s.stk.ports.val {} x
  let t1 := { t with port := 3 + x, kind := .packet, stk := some { h with seq := p.linkSeq, ack := p.ackSeq } }
  let now := p.waiting.isEmpty && replayFits p.replay t1
  let p1 := { p with
    linkSeq := (p.linkSeq + 1) % 65536
    replay := if now then p.replay ++ [t1] else p.replay
    waiting := if now then p.waiting else p.waiting ++ [t1] }
  let s1 := { s with stk := { s.stk with ports := s.stk.ports.set x p1 } }
  if now then s1.send t1 else s1

/-- A payload cut into packets of at most 1,024 words, each with whether it is the last. -/
def cutPayload : Nat → List Word → List (List Word × Bool)
  | 0, ws => [(ws, true)]
  | k + 1, ws => if ws.length ≤ 1024 then [(ws, true)] else (ws.take 1024, false) :: cutPayload k (ws.drop 1024)

/-- A transfer sent out of stack port `x`, where it is up: as many packets as its payload needs, LAST on the final one. `t` tells the model
what it is. -/
def State.stkSend (s : State) (x : Nat) (t : Tx) (h : StkHead) (words : List Word) : State :=
  if (s.stk.ports.val {} x).up then
    (cutPayload (words.length / 1024) words).foldl (fun (s : State) e =>
      s.stkPut x { t with words := e.1 } { h with src := s.sys.pos, last := e.2 }) s
  else s

/-- The packets of a port that wait enter the replay buffer, and go out, as far as there is room. -/
def State.stkFlush (s : State) (x : Nat) : List Tx → State
  | [] => s
  | t :: r =>
    let p := s.stk.ports.val {} x
    if replayFits p.replay t then
      (({ s with stk := { s.stk with ports := s.stk.ports.set x { p with replay := p.replay ++ [t], waiting := r } } }).send t).stkFlush x r
    else s

end Sys2Proof.Machine
end

