-- ==== Sys2Proof/Machine/Records.lean ====
section
/-! DEFINITION. Records.lean: the records of R193 to R213 word by word, which stream carries them (R278),
where a record is placed (R214), and the gap records of a channel (R210 to R213). -/
namespace Sys2Proof.Machine

/-- A record: header word and body (R193). -/
def mkRec (type spec : Nat) (body : List Word) : List Word :=
  wd (type * 2 ^ 28 + (body.length + 1) * 2 ^ 16 + spec % 2 ^ 16) :: body

/-- The sample word of R196. -/
def OSample.word (o : OSample) : Word :=
  wd (tw 24 o.x * 256 + o.r % 8 * 32 + b2n o.unset * 16 + b2n o.ovr * 8 + b2n o.opn * 4 + b2n o.dip * 2 + b2n o.sub)

/-- Word 1 of a channel record: troupe-wide channel number and SUBTICK (R197, R198). -/
def State.chanWord (s : State) (ch subtick : Nat) : Word :=
  wd ((s.sys.pos * 512 + ch) % 2 ^ 13 + subtick % 2 ^ 16 * 2 ^ 16)

/-- AT_SRC of the frame that holds a tick (R71, R198). -/
def State.atSrcAt (s : State) (t : Nat) : Nat :=
  ((s.tim.srcHist.find? (fun e => decide (e.1 ≤ t))).map (·.2)).getD s.tim.atSrc

/-! Channels and streams (R278). -/

/-- Address of CH_NSP_CFG of a channel. -/
def chNspField (ch : Nat) : Fld :=
  if ch < 192 then F.CH_NSP_CFG_FAST_STREAM ch else F.CH_NSP_CFG_SLOW_STREAM ch

/-- The fast channels whose EN bit is set. -/
def State.fastEnabled (s : State) : List Nat :=
  s.regs.filterMap fun (a, w) =>
    if 0x100000 ≤ a ∧ a < 0x160000 ∧ a % 0x800 = 0 ∧ w.toNat % 2 = 1 then some ((a - 0x100000) / 0x800) else none

/-- The slow channels whose EN bit is set. -/
def State.slowEnabled (s : State) : List Nat :=
  s.regs.filterMap fun (a, w) =>
    if 0x180000 ≤ a ∧ a < 0x200000 ∧ a % 0x800 = 0 ∧ w.toNat % 2 = 1 then some ((a - 0x100000) / 0x800) else none

/-- The channels that count as enabled for the shared records: EN set, or an enable in effect (R278). -/
def State.carried (s : State) : List Nat :=
  s.fastEnabled ++ s.slowEnabled ++ s.sys.fastEff
    ++ (s.slow.en.filter (fun c => c.2.eff)).map (·.1)

/-- Whether stream `m` is LIVE: its KIND, and space for its ring (R278, R281). -/
def State.streamLive (s : State) (m : Nat) : Bool :=
  s.get (F.NSP_STRm_CFG_KIND m) == 1 && s.get (F.NSP_STRm_SPACE_UNITS m) != 0

/-- Whether stream `m` is READOUT. -/
def State.streamReadout (s : State) (m : Nat) : Bool :=
  s.get (F.NSP_STRm_CFG_KIND m) == 2 && s.get (F.NSP_STRm_SPACE_UNITS m) != 0

/-- The live streams that carry at least one enabled channel (R278). -/
def State.sharedStreams (s : State) : List Nat :=
  let used := s.carried.map (fun ch => s.get (chNspField ch))
  (List.range 16).filter (fun m => used.contains m && s.streamLive m)

/-- The order of R214: placement tick, rank, channel, first tag. -/
def RecKey.le (a b : RecKey) : Bool :=
  if a.place != b.place then decide (a.place < b.place)
  else if a.rank != b.rank then decide (a.rank < b.rank)
  else if a.ch != b.ch then decide (a.ch < b.ch)
  else decide (a.first ≤ b.first)

/-- A record put into its place among the placed records of a stream, behind those of an equal key. -/
def insertPlaced (p : Placed) : List Placed → List Placed
  | [] => [p]
  | q :: r => if q.key.le p.key then q :: insertPlaced p r else p :: q :: r

/-- Stream `m` with something changed. -/
def State.updStream (s : State) (m : Nat) (f : Stream → Stream) : State :=
  { s with net := { s.net with streams := s.net.streams.upd {} m f } }

/-- Stream `m`. -/
def State.stream (s : State) (m : Nat) : Stream := s.net.streams.val {} m

/-- Whether live streams carry records: in TRIM, RUN and LIMP only (R45). -/
def State.streaming (s : State) : Bool := s.running || s.sys.mode == .trim

/-- Whether a core of this hub makes the record of a key: ranks 5 to 8 of its own position (R214). -/
def State.coreMade (s : State) (k : RecKey) : Bool := decide (5 ≤ k.rank) && decide (k.rank ≤ 8) && k.ch / 512 == s.sys.pos

/-- A record placed on a live stream (R214), in the modes in which they carry any. While a core replays, a record that it makes
at or below the stream's high-water mark was accepted from the failed core already and is discarded (R341). -/
def State.placeOn (s : State) (m : Nat) (key : RecKey) (words : List Word) : State :=
  if !s.streaming then s
  else if s.red.marking && s.coreMade key && (match s.red.marks.look m with | some k => key.le k | none => false) then s
  else s.updStream m fun st => { st with placed := insertPlaced ⟨key, words⟩ st.placed }

/-- A channel's record goes to the live stream that CH_NSP_CFG names; with that stream not LIVE it is
discarded and NO_STREAM is set (R278). -/
def State.placeChan (s : State) (ch rank place first : Nat) (words : List Word) : State :=
  let m := s.get (chNspField ch)
  if s.streamLive m then s.placeOn m ⟨place, rank, s.sys.pos * 512 + ch, first⟩ words
  else if s.streaming then s.flag F.NSP_ALERT_NO_STREAM else s

/-- A shared record goes to every live stream that carries an enabled channel (R278). -/
def State.placeShared (s : State) (rank place first : Nat) (words : Nat → List Word) : State :=
  s.sharedStreams.foldl (fun s m => s.placeOn m ⟨place, rank, s.sys.pos * 512, first⟩ (words m)) s

/-- Whether this hub is joined to a troupe (R305): the ringmaster always is. -/
def State.joined (s : State) : Bool := s.sys.pos == 0 || s.stk.deputy || ((s.stk.ports.val {} 0).up && s.stk.lock)

/-- Whether AT follows the clock bus (R312): the hub is a member, and its tick is locked to the bus. -/
def State.onBus (s : State) : Bool := s.sys.pos != 0 && s.stk.lock && !s.stk.deputy

/-- Whether this hub is the ringmaster of a troupe, or stands in for it (R303, R326). -/
def State.leads (s : State) : Bool := s.sys.pos == 0 || s.stk.deputy

/-- A SYNC of the ringmaster queued for the troupe bus where SYNC_OUT is set (R317): CTRL 2 with its Ts. -/
def State.busSync (s : State) (ts : Nat) : State :=
  if s.leads && s.on F.STK_CTRL_SYNC_OUT then { s with stk := { s.stk with ctrlQ := s.stk.ctrlQ ++ [(2, ts)] } } else s

/-- A SYNC queued for the troupe bus withdrawn, where it has not gone out: what was to drive it no longer will (R317). -/
def State.unbusSync (s : State) (ts : Nat) : State := { s with stk := { s.stk with ctrlQ := s.stk.ctrlQ.erase (2, ts) } }

/-! REC_GAP (R210, R211). -/

/-- Gap reasons (R211). -/
def Gap.TRIM : Nat := 1
/-- OVERWRITE. -/
def Gap.OVERWRITE : Nat := 2
/-- HOLD. -/
def Gap.HOLD : Nat := 3
/-- LATE. -/
def Gap.LATE : Nat := 4
/-- MODE. -/
def Gap.MODE : Nat := 5
/-- CHANNEL_OFF. -/
def Gap.CHANNEL_OFF : Nat := 6
/-- SLICE_LOST. -/
def Gap.SLICE_LOST : Nat := 7

/-- REC_GAP (R210): an absent last tick makes it OPEN_END. -/
def recGap (reason : Nat) (close all : Bool) (chan : Word) (first : Nat) (last : Option Nat)
    (data : List Word) : List Word :=
  mkRec 4 (reason + b2n last.isNone * 256 + b2n close * 512 + b2n all * 1024)
    ([chan] ++ tickWords first ++ (match last with | some l => tickWords l | none => [wd 0xFFFFFFFF, wd 0xFFFFFFFF])
      ++ data ++ List.replicate (3 - data.length) 0)

/-- Reason data of a SLICE_LOST gap: the failed slice or converter (R211). -/
def gapData (reason what : Nat) : List Word := if reason = Gap.SLICE_LOST then [wd (what % 256)] else []

/-- Whether a channel has been enabled since LOAD, and so receives gaps at all (R213). -/
def State.everEnabled (s : State) (ch : Nat) : Bool :=
  if ch < 192 then s.sys.fastEver.contains ch else (s.slow.en.val {} ch).ever

/-- A gap on one channel begins whose end is not yet known (R213). -/
def State.gapOpen (s : State) (ch reason first what : Nat) : State :=
  if s.everEnabled ch && (s.sys.openGap.look ch).isNone then
    let s1 := { s with sys := { s.sys with openGap := s.sys.openGap.set ch (reason, first, what) } }
    s1.placeChan ch 4 first first (recGap reason false false (s.chanWord ch 0) first none (gapData reason what))
  else s

/-- The open gap of a channel ends with tick `last` (R213). -/
def State.gapClose (s : State) (ch last : Nat) : State :=
  match s.sys.openGap.look ch with
  | none => s
  | some (reason, first, what) =>
    let s1 := { s with sys := { s.sys with openGap := s.sys.openGap.drop ch } }
    s1.placeChan ch 4 (last + 1) first
      (recGap reason true false (s.chanWord ch 0) first (some last) (gapData reason what))

/-- A complete gap on one channel; none where an OPEN_END gap that began no later is in force (R213). -/
def State.gapWhole (s : State) (ch reason first last what : Nat) : State :=
  if s.everEnabled ch && decide (first ≤ last) &&
      (match s.sys.openGap.look ch with | some g => decide (first < g.2.1) | none => true) then
    s.placeChan ch 4 (last + 1) first
      (recGap reason false false (s.chanWord ch 0) first (some last) (gapData reason what))
  else s

/-- A gap with ALL on every live stream that carries a channel (R211). -/
def State.gapAll (s : State) (reason first last : Nat) : State :=
  if first ≤ last then
    s.placeShared 4 (last + 1) first fun _ => recGap reason false true 0 first (some last) []
  else s

/-! The other records. -/

/-- REC_FAST (R199): SUBTYPE 0 processed, 1 raw20. -/
def recFast (atSrc : Nat) (raw : Bool) (chan : Word) (first spacing : Nat) (samples : List Word) : List Word :=
  mkRec 1 (atSrc % 4 + b2n raw * 4) ([chan] ++ tickWords first ++ [wd (spacing % 2 ^ 17)] ++ samples)

/-- REC_SLOW (R203). -/
def recSlow (atSrc : Nat) (chan : Word) (tag : Nat) (sample eng : Word) : List Word :=
  mkRec 2 (atSrc % 4) ([chan] ++ tickWords tag ++ [sample, eng])

/-- REC_CHANGE (R202); a slow channel's carries the engineering value. -/
def recChange (atSrc : Nat) (chan : Word) (tag : Nat) (sample : Word) (suppressed : Nat) (eng : Option Word) :
    List Word :=
  mkRec 3 (atSrc % 4 + b2n eng.isSome * 4)
    ([chan] ++ tickWords tag ++ [sample, wd (min suppressed 0xFFFFFFFF)] ++ eng.toList)

/-- One firing source's word in REC_TRIG (R204). -/
def trigWord (q desc : Nat) (dropped auto late : Bool) : Word :=
  wd (q % 16 + (if dropped then 0 else desc % 256) * 16 + b2n dropped * 4096 + b2n auto * 8192 + b2n late * 16384)

/-- REC_TRIG (R204). -/
def recTrig (mask stamp take causes : Nat) (sources : List Word) : List Word :=
  mkRec 5 mask (tickWords stamp ++ tickWords take ++ tickWords causes ++ sources)

/-- REC_WINDOW (R205). -/
def recWindow (desc : Nat) (w : Window) (last job : Nat) : List Word :=
  mkRec 12 (desc % 256 + b2n w.late * 256 + b2n w.clamped * 512 + b2n w.auto * 1024 + w.form % 4 * 2048)
    (tickWords w.stamp ++ tickWords w.reqF ++ tickWords w.reqL ++ tickWords w.first ++ tickWords last
      ++ [wd (w.src % 16 + (if w.form = 2 then job % 256 * 256 else 0))]
      ++ (List.range 6).map (fun i => wd (w.mask.toNat / 2 ^ (32 * i))) ++ List.replicate 10 0)

/-- REC_FRB (R206). -/
def recFrb (ratio : Nat) (raw : Bool) (job : Nat) (chan : Word) (firstTick firstBlock spacing : Nat)
    (blocks : List (List Word)) (final : Option Word) : List Word :=
  mkRec 8 (ratio % 8 + b2n raw * 8 + b2n final.isSome * 16 + job % 256 * 256)
    ([chan] ++ tickWords firstTick ++ [wd (firstBlock % 2 ^ 16 + blocks.length * 2 ^ 16), wd (spacing % 2 ^ 17)]
      ++ blocks.flatten ++ final.toList)

/-- REC_TIME (R209) with a reason, at the tick in hand. -/
def State.recTime (s : State) (reason : Nat) : List Word :=
  let diff (d : Nat) : Word := wd (tw 32 (satI 32 (((s.tim.views.val {} d).val - s.tim.atVal) / (2 ^ 48 : Nat))))
  let st (d : Nat) : Nat := s.get (F.TIM_TDd_STAT_STATE d) + s.get (F.TIM_TDd_STAT_ASYM_STEP d) * 8
  mkRec 7 (s.tim.atSrc % 4 + reason % 16 * 4)
    (tickWords s.tick ++ [diff 0, diff 1, diff 2,
      wd (st 0 + st 1 * 16 + b2n s.tim.slewing * 256 + s.get F.TIM_STAT_AT_FOLLOW * 512),
      s.rd (R.TIM_TDd_OFS_RMS 0), s.rd (R.TIM_TDd_OFS_RMS 1), wd (s.get F.TIM_MCLK_STAT_PHASE)])

/-- REC_TIME placed on the live streams (R76, R209). REC_TIME is live: none is placed outside TRIM, RUN and
LIMP (R45). -/
def State.placeTime (s : State) (reason : Nat) : State :=
  if s.streaming then s.placeShared 3 s.tick s.tick fun _ => s.recTime reason else s

end Sys2Proof.Machine
end

