-- ==== Sys2Proof/Machine/Window.lean ====
section
/-! DEFINITION. Window.lean: the RAW ring, pins and capture windows up to their close (R217 to R237). -/
namespace Sys2Proof.Machine

/-! The ring (R218, R220, R221). -/

/-- Bytes of the RAW region (R217). -/
def State.rawBytes (s : State) : Nat := s.get F.HST_REGIONS_RAW * 2 ^ 28

/-- Bytes of RAW that form the hub's own ring: with the pool running, what it lends is not among them (R318). -/
def State.ownBytes (s : State) : Nat :=
  s.rawBytes - (if s.stk.poolOn then (s.get F.STK_POOL_LEND_N + s.get F.STK_POOL_LEND_S) * 2 ^ 28 else 0)

/-- Bytes of the borrowed slots (R318). -/
def State.borrowBytes (s : State) : Nat := s.get F.STK_POOL_STAT_BORROWED * 2 ^ 28

/-- RAW_TICKS, the tick-record slots of the ring (R218, R318). -/
def State.rawTicks (s : State) : Nat := (s.ownBytes + s.borrowBytes) / Config.tickBytes

/-- Offset of slot `i` in the ring; RAW lies at address 0 of DRAM (R217), and the borrowed slots follow the hub's
own (R318). -/
def rawAddr (i : Nat) : Nat := i * Config.tickBytes

/-- Bytes of the ring. -/
def State.ringBytes (s : State) (a n : Nat) : List Byte :=
  (List.range n).map fun i =>
    if a + i < s.ownBytes then Mem.read 0 s.dram (a + i) else Mem.read 0 s.stk.poolMem (a + i - s.ownBytes)

/-- Bytes written to the ring. -/
def State.ringWrite (s : State) (a : Nat) (bs : List Byte) : State :=
  let own := s.ownBytes - a
  { s with dram := Mem.write 0 s.dram a (bs.take own), stk := { s.stk with poolMem := Mem.write 0 s.stk.poolMem (a + min own bs.length - s.ownBytes) (bs.drop own) } }

/-- Whether slot `i` lies, wholly or in part, in borrowed memory. -/
def State.slotBorrowed (s : State) (i : Nat) : Bool := decide (s.ownBytes < rawAddr (i + 1))

/-- The raw20 word of slice `sl` in slot `i` of the ring. -/
def State.ringWord (s : State) (i sl : Nat) : BitVec 20 :=
  BitVec.ofNat 20 (leVal (s.ringBytes (rawAddr i + sl / 2 * 5) 5) / 2 ^ (20 * (sl % 2)))

/-- DRAM addresses of STREAM, AUX and JOB (R217). -/
def State.streamBase (s : State) : Nat := s.rawBytes
/-- Start of AUX. -/
def State.auxBase (s : State) : Nat := s.streamBase + s.get F.HST_REGIONS_STREAM * 2 ^ 28
/-- Start of JOB. -/
def State.jobBase (s : State) : Nat := s.auxBase + s.get F.HST_REGIONS_AUX * 2 ^ 28

/-- The slot that holds a tick, where the tick is present (R221). -/
def State.slotOf (s : State) (t : Nat) : Option Nat := (s.hist.ring.find? (fun e => e.2 == t)).map (·.1)

/-- Whether a tick is present (R221). -/
def State.present (s : State) (t : Nat) : Bool := (s.slotOf t).isSome

/-- The oldest tick of the run that ends with the newest entry of a ring index, newest first, when the next
tick expected is `t`. -/
def runFrom : List (Nat × Nat) → Nat → Nat
  | [], t => t + 1
  | (_, u) :: r, t => if u = t then (if t = 0 then 0 else runFrom r (t - 1)) else if t < u then runFrom r t else t + 1

/-- O(T): the oldest tick of the unbroken run that ends with T − 1 (R221). -/
def State.oldest (s : State) (t : Nat) : Nat := if t = 0 then 0 else runFrom s.hist.ring (t - 1)

/-- O(T) as it stood at a tick that a replay comes to late: the ticks that RAW has taken since cost the run
one tick each once RAW is full (R221, R222). -/
def State.oldestAt (s : State) (t : Nat) : Nat :=
  let o := s.oldest t
  let since := (s.hist.ring.filter (fun e => decide (t ≤ e.2))).length
  if s.hist.ring.length < s.rawTicks then o else o - since

/-! Pins (R223, R236). -/

/-- Whether a window holds pins in tick `now`: it has been cut and not released; a cancelled one keeps them for the rest of the tick
of its CANCEL (R239). -/
def Window.holds (w : Window) (now : Nat) : Bool :=
  ((decide (1 ≤ w.state) && decide (w.state ≤ 3)) || decide (now < w.keepTo)) && decide (w.first < w.lastP)

/-- Whether a tick is pinned (R223). -/
def State.pinned (s : State) (t : Nat) : Bool :=
  s.hist.wins.any (fun e => e.2.holds s.tick && decide (e.2.first ≤ t) && decide (t < e.2.lastP))

/-- A span put among spans ordered by their first tick. -/
def insertSpan (x : Nat × Nat) : List (Nat × Nat) → List (Nat × Nat)
  | [] => [x]
  | y :: r => if x.1 ≤ y.1 then x :: y :: r else y :: insertSpan x r

/-- The pinned spans (first tick, tick after the last), ordered by first tick. -/
def State.pinSpans (s : State) : List (Nat × Nat) :=
  (s.hist.wins.filterMap (fun e => if e.2.holds s.tick then some (e.2.first, e.2.lastP) else none)).foldr insertSpan []

/-- Ticks covered by ordered spans from tick `a` on. -/
def covered : Nat → List (Nat × Nat) → Nat
  | _, [] => 0
  | a, (f, l) :: r => (l - max a f) + covered (max a l) r

/-- HST_PINNED (R223). -/
def State.pinCount (s : State) : Nat := covered 0 s.pinSpans

/-- HST_PIN_LIMIT (R223). -/
def State.pinLimit (s : State) : Nat := s.rawTicks * s.get F.HST_PIN_MAX_VALUE / 10000

/-- The tick before which a window that pins from `a` up to `z` must stop, with `room` ticks left below the
pinned limit and the spans that other windows hold (R236). -/
def pinReach : Nat → Nat → Nat → List (Nat × Nat) → Nat
  | a, z, room, [] => if z ≤ a then a else min z (a + room)
  | a, z, room, (f, l) :: r =>
    if z ≤ a then a
    else if l ≤ a then pinReach a z room r
    else if f ≤ a then pinReach (min l (max a z)) z room r
    else
      let free := min f z - a
      if room < free then a + room
      else if z ≤ f then z else pinReach l z (room - free) r

/-! Windows. -/

/-- A window changed. -/
def State.updWin (s : State) (d : Nat) (f : Window → Window) : State :=
  { s with hist := { s.hist with wins := s.hist.wins.upd {} d f } }

/-- Window `d`. -/
def State.win (s : State) (d : Nat) : Window := s.hist.wins.val {} d

/-- Whether descriptor `d` can be allocated in tick `t`: free or failed, and not released in that tick
(R234). -/
def State.descFree (s : State) (d t : Nat) : Bool :=
  let w := s.win d
  (w.state == 0 || w.state == 4) && (match w.relAt with | some r => decide (r < t) | none => true)

/-- The next free descriptor in cyclic order (R234). -/
def State.nextDesc (s : State) (t : Nat) : Option Nat :=
  let from0 := match s.hist.lastDesc with | some d => (d + 1) % 256 | none => 0
  ((List.range 256).map (fun i => (from0 + i) % 256)).find? (fun d => s.descFree d t)

/-- Last tick cut of a window (R236). -/
def Window.lastCut (w : Window) : Nat := w.lastP - 1

/-- A window closes with the pins it has (R236, R237): CLAMPED where its last requested tick is not among
them. -/
def State.clampWin (s : State) (d : Nat) : State :=
  let s1 := s.updWin d fun w => { w with state := 2, clamped := true, ready := w.readReq || !w.request }
  (s1.flag F.HST_ALERT_CLAMPED).event Ev.WIN_CLAMPED (evSource 7 d) [.h d, .t (s.win d).lastCut]

/-- The limit is told again once fewer ticks are pinned than it allows (R236). -/
def State.pinRearm (s : State) : State :=
  if s.hist.pinLimitHit && decide (s.pinCount < s.pinLimit) then { s with hist := { s.hist with pinLimitHit := false } } else s

/-- The pinned limit is met (R236): the alert, and EV_PIN_LIMIT once for as long as the limit stays met. -/
def State.pinLimitMet (s : State) : State :=
  let s1 := s.flag F.HST_ALERT_PIN_LIMIT
  if s.hist.pinLimitHit then s1
  else ({ s1 with hist := { s1.hist with pinLimitHit := true } }).event Ev.PIN_LIMIT (evSource 7 0) [.h s.pinCount]

/-- The channel mask of a source's template (R233). -/
def State.srcMask (s : State) (q : Nat) : BitVec 192 :=
  BitVec.ofNat 192 (((List.range 6).map fun w => (s.rd (R.TRG_SRCq_MASKw q w)).toNat * 2 ^ (32 * w)).sum)

/-- Whether one window comes before another in the order in which merged readouts drain (R325): cut tick, descriptor, position. -/
def Drain.before (a b : Drain) : Bool :=
  decide (a.cut < b.cut) || (a.cut == b.cut && (decide (a.desc < b.desc) || (a.desc == b.desc && decide (a.pos < b.pos))))

/-- A window put among those to be drained; one that is there already stays as it is. -/
def insertDrain (d : Drain) : List Drain → List Drain
  | [] => [d]
  | e :: r => if d.before e then d :: e :: r else if e.before d then e :: insertDrain d r else e :: r

/-- A window whose readout the ringmaster is to merge (R325). -/
def State.noteDrain (s : State) (d : Drain) : State := { s with stk := { s.stk with drains := insertDrain d s.stk.drains } }

/-- A window that this hub cuts is one to be merged with those of its members (R325). -/
def State.shareWindow (s : State) (d : Nat) (w : Window) : State :=
  if s.leads ∧ s.get F.STK_CTRL_FUNNEL = 2 then s.noteDrain { cut := w.cut, desc := d, stream := w.stream, pos := s.sys.pos } else s

/-- The window that a firing of source `q` with a stamp opens in its take-effect tick `t` (R233 to R237): its
descriptor, none where no descriptor is free, and whether it is LATE. -/
def State.openWindow (s0 : State) (q stamp t : Nat) (auto : Bool) : State × Option Nat × Bool :=
  let s := s0.pinRearm
  match s.nextDesc t with
  | none => (s, none, false)
  | some d =>
    let reqF := stamp - (s.rd (R.TRG_SRCq_PRE q)).toNat
    let reqL := stamp + (s.rd (R.TRG_SRCq_POST q)).toNat
    let edge := s.oldestAt t + 2048
    let late := decide (reqF < edge)
    let first := if edge ≤ reqF then reqF else if edge ≤ stamp then edge else if t ≤ reqL then t else reqL + 1
    let newest := match s.hist.ring.head? with | some e => e.2 + 1 | none => t
    let z := min (reqL + 1) (max t newest)
    let stop := pinReach first z (s.pinLimit - s.pinCount) s.pinSpans
    let clamped := decide (stop < z) && decide (first < z)
    let req := s.on (F.TRG_SRCq_TGT_START q)
    let shut := clamped || decide (reqL < t)
    let w : Window :=
      { src := q, stamp := stamp, cut := t, reqF := reqF, reqL := reqL, first := first, lastP := max first stop,
        mask := s.srcMask q, stream := s.get (F.TRG_SRCq_TGT_STREAM q), form := s.get (F.TRG_SRCq_TGT_FORM q),
        ratio := s.get (F.TRG_SRCq_TGT_RATIO q), request := req, ready := shut && !req, late := late,
        auto := auto, state := if shut then 2 else 1 }
    let s1 := (s.updWin d fun _ => w)
    let s2 := ({ s1 with hist := { s1.hist with lastDesc := some d } }).shareWindow d w
    let s3 := if late then (s2.flag F.HST_ALERT_LATE).event Ev.WIN_LATE (evSource 7 d) [.h d, .h (first - reqF)] else s2
    (if clamped then s3.pinLimitMet.clampWin d else s3, some d, late)

/-- The open windows that need tick `n` next, just written to RAW, pin it, or close at the pinned limit
(R236). -/
def State.pinTick (s : State) (n : Nat) : State :=
  let need := s.hist.wins.filter (fun e => e.2.state == 1 && e.2.lastP == n && decide (n ≤ e.2.reqL) && decide (e.2.first ≤ n))
  if need.isEmpty then s
  else if s.pinned n || decide (s.pinCount < s.pinLimit) then
    need.foldl (fun s e => s.updWin e.1 fun w => { w with lastP := n + 1 }) s.pinRearm
  else (need.foldl (fun s e => s.clampWin e.1) s.pinLimitMet)

/-- The slots tried by the writer from slot `i`: the first that holds no pinned tick (R220). -/
def State.nextSlot (s : State) : Nat → Nat → Option Nat
  | 0, _ => none
  | k + 1, i =>
    let held := match s.hist.ring.find? (fun e => e.1 == i) with | some e => s.pinned e.2 | none => false
    if held then s.nextSlot k ((i + 1) % s.rawTicks) else some i

/-- The stack port that borrowed slots lie behind (R318): 0 STKN, 1 STKS. -/
def State.borrowPort (s : State) : Nat := s.get F.STK_POOL_BORROW - 1

/-- A pooled write crosses the stack port through the pool buffer (R319). -/
def State.poolWrite (s : State) (n : Nat) (bytes : List Byte) : State :=
  let x := s.borrowPort
  ({ s with stk := { s.stk with poolBuf := s.stk.poolBuf ++ [(n, s.tick, (s.stk.ports.val {} x).linkSeq)] } }).stkSend x
    { seq := n } { kind := 1, cls := kindClass 1, dest := if x = 0 then s.sys.pos - 1 else s.sys.pos + 1 } (bytesWords bytes)

/-- The slot that the next tick record goes to (R220). R9 says that its position is fixed by the tick alone and R220 that a slot with a pinned tick is
passed over: the model follows R220, which names that case (DEDUCED, log 58). With the pool buffer full the ring goes on in the hub's own slots (R319, R320). -/
def State.writeSlot (s : State) : Option Nat :=
  match s.nextSlot (s.pinCount + 1) (s.hist.wr % s.rawTicks) with
  | some i => if s.slotBorrowed i ∧ 64 ≤ s.stk.poolBuf.length then s.nextSlot (s.pinCount + 1) 0 else some i
  | none => none

/-- A tick record written to RAW and entered in the ring index (R220). -/
def State.rawWrite (s : State) (n : Nat) (bytes : List Byte) : State :=
  match s.writeSlot with
  | none => s
  | some i =>
    let s1 := s.ringWrite (rawAddr i) bytes
    let s2 := if s.slotBorrowed i then s1.poolWrite n bytes else s1
    { s2 with hist := { s2.hist with ring := (i, n) :: s2.hist.ring.filter (fun e => e.1 != i), wr := (i + 1) % s.rawTicks } }

/-- WINDOW_CLOSE (R237): an open window whose last tick cut is in RAW closes, and is ready with START AUTO, or
where READ was written while it was open. -/
def execWindowClose (d : Nat) (s : State) : Host.Outcome State Fault Refusal :=
  let w := s.win d
  if w.state = 1 ∧ w.reqL < w.lastP then
    .next (s.updWin d fun w => { w with state := 2, ready := w.readReq || !w.request })
  else .next s

/-- HST_WINd_CTRL.READ (R237). -/
def State.readWindow (s : State) (d : Nat) : State :=
  let w := s.win d
  if ¬ w.request then s
  else if w.state = 1 then s.updWin d fun w => { w with readReq := true }
  else if w.state = 2 ∧ ¬ w.ready then s.updWin d fun w => { w with ready := true }
  else s

/-- A position has drained a window that the troupe merges (R325). -/
def State.drainedBy (s : State) (cut d p : Nat) : State :=
  { s with stk := { s.stk with drains := s.stk.drains.filter fun k => !(k.cut == cut && k.desc == d && k.pos == p) } }

/-- A window released in tick `t`: its pins go, its descriptor is free from the next tick (R234, R239). -/
def State.releaseWin (s : State) (d t : Nat) (state : Nat) : State :=
  (s.updWin d fun w => { w with state := state, relAt := some t, ready := false }).drainedBy (s.win d).cut d s.sys.pos

end Sys2Proof.Machine
end

