-- ==== Sys2Proof/Machine/Stream.lean ====
section
/-! DEFINITION. Stream.lean: datagrams (R274 to R284): how they are formed from placed records, the ring of a
stream, release points, what waits to be sent, and the sending order of a port (R287, R288). -/
namespace Sys2Proof.Machine

/-! Ports and modes. -/

/-- Uplink `x`. -/
def State.link (s : State) (x : Nat) : Link := s.net.links.val {} x

/-- An uplink changed. -/
def State.updLink (s : State) (x : Nat) (f : Link → Link) : State :=
  { s with net := { s.net with links := s.net.links.upd {} x f } }

/-- Whether an uplink can carry frames now (R273, R301). -/
def State.linkUp (s : State) (x : Nat) : Bool := (s.link x).up && !s.part.linkOos.contains x

/-- Whether this hub is a member that delivers through the ringmaster (R323): its uplinks are both disabled. -/
def State.funnelled (s : State) : Bool :=
  s.sys.pos != 0 && s.get F.STK_CTRL_FUNNEL != 0 && s.get (F.NSP_UPx_CFG_EN 0) == 0 && s.get (F.NSP_UPx_CFG_EN 1) == 0

/-- Whether it delivers records and not datagrams (R323 MERGE, R324). -/
def State.mergeMember (s : State) : Bool := s.funnelled && s.get F.STK_CTRL_FUNNEL == 2 && !s.stk.forward

/-- The port number of STKN among the ports of `Tx`. -/
def stknPort : Nat := 3

/-- The ports a stream's datagrams go out on (R289, R323). -/
def State.portsFor (s : State) (m : Nat) : List Nat :=
  if s.funnelled then [stknPort]
  else if s.get F.NSP_CTRL_MODE = 0 then
    let up := [0, 1].filter s.linkUp
    if up.isEmpty then [0, 1] else up
  else [(s.stream m).port]

/-- Whether a port can send now. -/
def State.portReady (s : State) (port : Nat) : Bool :=
  if port = stknPort then s.joined else s.linkUp port

/-! The ring of a stream (R281 to R284). -/

/-- Bytes that a datagram takes in its ring: header and payload (R274). -/
def Dgram.bytes (d : Dgram) : Nat := 28 + 4 * d.words.length

/-- Bytes of a ring's content. -/
def ringUsed (r : List Dgram) : Nat := (r.map Dgram.bytes).sum

/-- Bytes of stream `m`'s ring (R281). -/
def State.ringCap (s : State) (m : Nat) : Nat := s.get (F.NSP_STRm_SPACE_UNITS m) * 2 ^ 24

/-- Whether stream `m` needs acknowledgement (R282). -/
def State.ackSet (s : State) (m : Nat) : Bool := s.on (F.NSP_STRm_CFG_ACK m)

/-- The oldest datagrams that make room for `need` bytes, and those that stay. -/
def trimRing (cap need : Nat) : List Dgram → List Dgram × List Dgram
  | [] => ([], [])
  | d :: r =>
    if ringUsed (d :: r) + need ≤ cap then ([], d :: r)
    else let t := trimRing cap need r; (d :: t.1, t.2)

/-- The next SEQ of a range on a port: in MIRROR each port has its own (R285, R289). -/
def State.rangeNext (s : State) (port : Nat) (r : Range) : Nat := if s.get F.NSP_CTRL_MODE = 0 ∧ port = 1 then r.next1 else r.next

/-- Ranges and waiting datagrams of stream `m` that an overwrite of `lost` ends: the rest of a range whose
datagram has gone is dropped (R286). -/
def State.forget (s : State) (m : Nat) (lost : List Dgram) : State :=
  let gone (q : Nat) : Bool := lost.any (fun d => d.seq == q)
  let hit (r : Range) : Bool := r.stream == m && lost.any (fun d => decide ((if s.get F.NSP_CTRL_MODE = 0 then min r.next r.next1 else r.next) ≤ d.seq) && decide (d.seq ≤ r.last))
  { s with net := { s.net with
    retx := s.net.retx.filter (fun r => !hit r)
    sendq := s.net.sendq.map fun (e : Nat × List (Nat × Nat)) => (e.1, e.2.filter (fun x => !(x.1 == m && gone x.2))) } }

/-- A datagram written to its ring as formed (R281). On a live stream with ACK the writer overwrites the oldest
where it needs their space (R283); without ACK the release point follows the writer (R284). -/
def State.storeDgram (s : State) (m : Nat) (d : Dgram) : State :=
  let st := s.stream m
  let d : Dgram := { d with
    no := s.net.formed, hubId := s.memberId d.pos, v6 := s.on (F.NSP_STRm_CFG_V6 m), dst := s.streamDst m, dstPort := s.get (F.NSP_STRm_CFG_DST_PORT m) }
  let t := trimRing (s.ringCap m) d.bytes st.ring
  let lost := if s.ackSet m then t.1.filter (fun x => decide (st.rel ≤ x.seq)) else []
  let s1 := s.forget m t.1
  let s2 := s1.updStream m fun st =>
    { st with
      ring := t.2 ++ [d]
      seq := d.seq + 1
      rel := if s.ackSet m then st.rel else d.seq + 1
      lostAt := if st.lostNow.isEmpty then s.tick else st.lostAt
      lostNow := st.lostNow ++ lost }
  { s2 with net := { s2.net with
    formed := s2.net.formed + 1
    sendq := (s2.portsFor m).foldl (fun (q : Tab (List (Nat × Nat))) p => q.upd [] p fun l => l ++ [(m, d.seq)]) s2.net.sendq } }

/-- Whether a readout datagram has room: with ACK the writer waits for acknowledged space (R284). -/
def State.readoutRoom (s : State) (m need : Nat) : Bool :=
  let st := s.stream m
  !s.ackSet m || (trimRing (s.ringCap m) need st.ring).1.all (fun d => decide (d.seq < st.rel))

/-! Forming (R279, R280). -/

/-- Bytes of a record. -/
def Placed.bytes (p : Placed) : Nat := 4 * p.words.length

/-- The records from the head of a list that satisfy `p` and fit `room` bytes, and the rest. -/
def takeRecs (p : Placed → Bool) : Nat → List Placed → List Placed × List Placed
  | _, [] => ([], [])
  | room, r :: rs =>
    if p r && decide (r.bytes ≤ room) then let t := takeRecs p (room - r.bytes) rs; (r :: t.1, t.2) else ([], r :: rs)

/-- The position that a record's key names. -/
def RecKey.pos (k : RecKey) : Nat := k.ch / 512

/-- A datagram of stream `m` formed from records (R280), its position that of their key (R323); a REC_GAP OVERWRITE that waits goes ahead of them. -/
def State.formDgram (s : State) (m first : Nat) (recs : List Placed) : State :=
  match recs with
  | [] => s
  | r :: _ =>
    let st := s.stream m
    let s1 := s.updStream m fun st => { st with gapPend := [], lastKey := ((recs.getLast?).map (·.key)).getD st.lastKey }
    s1.storeDgram m { seq := st.seq, first := first, words := st.gapPend.flatten ++ (recs.map (·.words)).flatten, pos := r.key.pos }

/-- A datagram that holds the REC_GAP OVERWRITE alone, where the next record does not fit behind it (R279, R283). -/
def State.formGap (s : State) (m : Nat) (r : Placed) : State :=
  let st := s.stream m
  (s.updStream m fun st => { st with gapPend := [] }).storeDgram m { seq := st.seq, first := r.key.place, words := st.gapPend.flatten, pos := r.key.pos }

/-- Payload bytes for records of the next datagram of stream `m` (R276). -/
def State.room (s : State) (m : Nat) : Nat := s.get F.NSP_DGRAM_PAYLOAD - 4 * (s.stream m).gapPend.flatten.length

/-- The records that the next live datagram of stream `m` holds, and those that stay placed: of one epoch of
placement and of one position, as many as fit (R279, R323). -/
def State.nextLive (s : State) (m : Nat) : List Placed × List Placed :=
  let l := (s.stream m).placed
  match l with
  | [] => ([], [])
  | r :: _ =>
    takeRecs (fun q => q.key.place / Config.epoch == r.key.place / Config.epoch && q.key.pos == r.key.pos) (s.room m) l

/-- The tick that the live streams have reached: the tick in hand; in a switch-over the input tick that the replay has reached,
once it replays, so that regenerated records flow behind the mark (R339). -/
def State.streamTick (s : State) : Nat :=
  match s.red.bump with
  | some b => if s.tick < b.d + 30 then 0 else s.core.pos
  | none => s.tick

/-- Whether the next live datagram of stream `m` closes in the tick in hand (R279): its epoch is over, or the next
record in order does not fit or belongs to another position. -/
def State.closes (s : State) (m : Nat) : Bool :=
  let t := s.nextLive m
  match t.1 with
  | [] => !(s.stream m).gapPend.isEmpty && (match t.2 with | q :: _ => decide (q.key.place < s.streamTick) | [] => false)
  | r :: _ =>
    let e := r.key.place / Config.epoch
    decide (Config.epoch * (e + 1) + 1 ≤ s.streamTick)
      || (match t.2 with
          | q :: _ => q.key.place / Config.epoch == e && decide (q.key.place < s.streamTick)
          | [] => false)

/-- The positions of the troupe that the ringmaster, or a deputy that acts for it, waits for in MERGE: those above its own that are joined and not dropped
(R324, R326). -/
def State.mergePositions (s : State) : List Nat :=
  (List.range (s.get F.STK_STAT_SIZE)).filter (fun p => decide (s.sys.pos < p) && !s.stk.dropped.toNat.testBit p)

/-- Whether this hub merges its members' streams (R323). -/
def State.merges (s : State) : Bool :=
  (s.sys.pos == 0 || s.stk.deputy) && s.get F.STK_CTRL_FUNNEL == 2 && !s.mergePositions.isEmpty

/-- Whether every joined position has delivered an epoch (R324). -/
def State.epochIn (s : State) (e : Nat) : Bool :=
  !s.merges || s.mergePositions.all (fun p => s.stk.delivered.contains (p, e))

/-- A member's records of one epoch of stream `m` sent as RECORDS packets and kept until MERGE_ACK (R323). -/
def State.sendRecords (s : State) (m e : Nat) (recs : List Placed) : State :=
  let s1 := { s with stk := { s.stk with unacked := s.stk.unacked ++ [(e, m, recs)] } }
  s1.stkSend 0 { stream := m, seq := e } { kind := 5, cls := 2, dest := 0 } (recs.map (·.words)).flatten

/-- The place of an entry of a port's queue in the order in which the datagrams were closed (R288). -/
def State.entryNo (s : State) (e : Nat × Nat) : Nat :=
  if 16 ≤ e.1 then e.2 else (((s.stream e.1).ring.find? (fun d => d.seq == e.2)).map (·.no)).getD 0

/-- An entry put among those of a port's queue by that order. -/
def State.insertSend (s : State) (x : Nat × Nat) : List (Nat × Nat) → List (Nat × Nat)
  | [] => [x]
  | y :: r => if s.entryNo x < s.entryNo y then x :: y :: r else y :: s.insertSend x r

/-- The next live datagram of stream `m` closed, whatever the tick. -/
def State.closeNext (s : State) (m : Nat) : State :=
  let t := s.nextLive m
  match t.1 with
  | [] => if (s.stream m).gapPend.isEmpty then s else (match t.2 with | r :: _ => s.formGap m r | [] => s)
  | r :: _ =>
    let s1 := s.updStream m fun st => { st with placed := t.2 }
    if s.mergeMember then s1.sendRecords m (r.key.place / Config.epoch) t.1
    else s1.formDgram m r.key.place t.1

/-- Every placed record of stream `m` formed into datagrams, `k` at most: the close at the last complete record
(R339). -/
def State.closeAll (s : State) (m : Nat) : Nat → State
  | 0 => s
  | k + 1 => if (s.stream m).placed.isEmpty then s else (s.closeNext m).closeAll m k

/-- Every live stream closed at its last complete record. -/
def State.closeLive (s : State) : State :=
  (List.range 16).foldl (fun s m => if s.streamLive m then s.closeAll m ((s.stream m).placed.length + 1) else s) s

/-- Every live stream closed at key `k`, the last complete record accepted (R339, R341): the records up to it are formed into
datagrams, and what the core made beyond it is dropped, to be made again. A stream that is merged with others keeps what waits
for its place in the merge (R323). -/
def State.closeUpTo (s : State) (k : RecKey) : State :=
  let one (s : State) (m : Nat) : State :=
    let l := (s.stream m).placed.filter fun q => q.key.le k || !s.coreMade q.key
    if ¬ s.streamLive m then s
    else if s.merges || s.mergeMember then s.updStream m fun st => { st with placed := l }
    else
      let low := l.filter fun q => q.key.le k
      ((s.updStream m fun st => { st with placed := low }).closeAll m (low.length + 1)).updStream m fun st =>
        { st with placed := st.placed ++ l.filter fun q => !q.key.le k }
  (List.range 16).foldl one s

/-- DATAGRAM_CLOSE (R279): a live datagram closes when full or at the end of tick 250·e + 1. Live streams pause while a standby
loads its epoch and while no core is in service (R339, R346), and carry nothing in HOLD (R45). -/
def execDatagramClose (m : Nat) (s : State) : Host.Outcome State Fault Refusal :=
  let e := ((s.stream m).placed.headD {}).key.place / Config.epoch
  if s.streaming ∧ s.streamLive m ∧ s.red.active.isSome ∧ s.closes m ∧ s.epochIn e then
    .next (s.closeNext m)
  else .next s

/-! Overwritten datagrams (R283, R211). -/

/-- OVERWRITE_REPORT (R283): after the epoch in which the writer overwrote, the release point moves past the lost
datagrams and one REC_GAP OVERWRITE goes ahead of the next record formed. -/
def execOverwriteReport (m : Nat) (s : State) : Host.Outcome State Fault Refusal :=
  let st := s.stream m
  match st.lostNow with
  | [] => .next s
  | d :: r =>
    if s.tick / Config.epoch ≤ st.lostAt / Config.epoch then .next s
    else
      let n := r.length + 1
      let last := ((d :: r).getLastD d).seq
      let kept := match st.ring with
        | k :: _ => k.first
        | [] => ((st.placed.head?).map (·.key.place)).getD s.tick
      let gap := recGap Gap.OVERWRITE false true 0 d.first (some (kept - 1)) [wd d.seq, wd (d.seq / 2 ^ 32 % 2 ^ 16), wd n]
      let s1 := s.updStream m fun st => { st with lostNow := [], rel := max st.rel (last + 1), gapPend := st.gapPend ++ [gap] }
      let s2 := ((s1.countUp ⟨R.NSP_STRm_LOST m, 0, 32⟩ n).flag F.NSP_ALERT_OVERWRITE)
      .next (s2.event Ev.NSP_OVERWRITE (evSource 9 m) [.h m, .w d.seq, .h n])

/-! Readout (R215, R279, R284). -/

/-- Records of a window readout put behind those that wait on its stream (R215): the cut tick and descriptor stand
in the key. -/
def State.queueReadout (s : State) (m cut d : Nat) (recs : List (List Word)) : State :=
  s.updStream m fun st =>
    { st with placed := recs.foldl (fun l r => insertPlaced ⟨⟨cut, d, s.sys.pos * 512, 0⟩, r⟩ l) st.placed }

/-- Whether the readout record with a key may go now on a merged stream (R215, R216, R325): every position has delivered the epoch of its cut tick,
so that REC_TRIG has told of every window cut up to then, and every window before it has drained. -/
def State.readoutTurn (s : State) (m : Nat) (k : RecKey) : Bool :=
  !s.merges ||
    (s.mergePositions.all (fun p => s.stk.delivered.any fun e => e.1 == p && decide (k.place / Config.epoch ≤ e.2))
      && s.stk.drains.all fun d => (d.stream != m && decide (d.stream < 16)) || !d.before { cut := k.place, desc := k.rank, pos := k.pos })

/-- Readout datagrams formed from the records that wait on stream `m`, `k` at most: records of one window each, as
long as the writer has room (R279, R284). A member whose streams are merged sends the records themselves, as far as its credit
goes (R323, R325). -/
def State.fillReadout (s : State) (m : Nat) : Nat → State
  | 0 => s
  | k + 1 =>
    match (s.stream m).placed with
    | [] => s
    | r :: l =>
      if ¬ s.readoutTurn m r.key then s
      else
      let t := takeRecs (fun q => q.key.place == r.key.place && q.key.rank == r.key.rank && q.key.pos == r.key.pos) (s.room m) (r :: l)
      let bytes := (t.1.map Placed.bytes).sum
      if s.mergeMember then
        if bytes ≤ s.stk.creditBytes then
          let s1 := { s with stk := { s.stk with creditBytes := s.stk.creditBytes - bytes } }
          ((s1.updStream m fun st => { st with placed := t.2 }).stkSend 0 { stream := m, seq := r.key.place }
            { kind := 5, cls := 3, dest := 0 } (t.1.map (·.words)).flatten).fillReadout m k
        else s
      else if s.readoutRoom m (28 + bytes) then
        ((s.updStream m fun st => { st with placed := t.2 }).formDgram m r.key.place t.1).fillReadout m k
      else s

/-- The windows whose last record is in STREAM now (R239). -/
def State.noteWritten (s : State) (m : Nat) : State :=
  let waits (d : Nat) : Bool := (s.stream m).placed.any (fun p => p.key.rank == d && p.key.pos == s.sys.pos)
  (s.hist.wins.filter (fun e => e.2.stream == m && e.2.state == 3 && !e.2.ready && e.2.written.isNone && !waits e.1)).foldl
    (fun (s : State) e => (s.updWin e.1 fun w => { w with written := some s.tick }).drainedBy e.2.cut e.1 s.sys.pos) s

/-- The windows of positions that are merged no longer are not waited for (R324). -/
def State.dropDrained (s : State) : State :=
  { s with stk := { s.stk with drains := s.stk.drains.filter fun d => (s.sys.pos :: s.mergePositions).contains d.pos } }

/-- What waits on readout stream `m` written as far as it goes; a window of this hub that has drained lets the next go (R325). -/
def State.pumpReadout (s : State) (m : Nat) : State :=
  let n := (s.stream m).placed.length
  let s1 := (s.dropDrained.fillReadout m n).noteWritten m
  if s1.stk.drains.isEmpty then s1 else (s1.fillReadout m n).noteWritten m

/-! Sending (R287, R288). -/

/-- Sixteenths of a byte that a stream's bucket holds at the tick in hand: RATE Mbit/s is RATE sixteenths of a byte
a tick (R287). -/
def State.tokensNow (s : State) (m : Nat) : Nat :=
  let st := s.stream m
  min (s.get (F.NSP_STRm_BURST_KIB m) * 1024 * 16) (st.tokens + (s.tick - st.lastFill) * s.get (F.NSP_STRm_RATE_MBPS m))

/-- Sixteenths of a byte of a datagram's IP packet (R276, R287). -/
def Dgram.cost (d : Dgram) : Nat :=
  (d.bytes + 8 + (if d.v6 then 40 else 20)) * 16

/-- A datagram of stream `m` still in its ring. -/
def State.dgram (s : State) (m q : Nat) : Option Dgram := (s.stream m).ring.find? (fun d => d.seq == q)

/-- Whether the bucket of stream `m` holds the tokens of datagram `q`, which is still in the ring. -/
def State.eligible (s : State) (m q : Nat) : Bool :=
  match s.dgram m q with
  | some d => s.get (F.NSP_STRm_RATE_MBPS m) == 0 || decide (d.cost ≤ s.tokensNow m)
  | none => false

/-- The class of a datagram of stream `m` on a stack port (R323). -/
def dataClass (kind : TxKind) : Nat := if kind = .data then 2 else 3

/-- A datagram put on a port: its stream pays for it, and it counts as sent there (R287, R290). On STKN it goes as a DATAGRAM packet (R323). -/
def State.emit (s : State) (port m q : Nat) (kind : TxKind) : State :=
  match s.dgram m q with
  | none => s
  | some d =>
    let left := if s.get (F.NSP_STRm_RATE_MBPS m) = 0 then s.tokensNow m else s.tokensNow m - d.cost
    let mark (x : Dgram) : Dgram := if x.seq = q then { x with sent := true, sentAt := s.tick, sentOn := port, orig := x.orig.set port (s.origOf port d) } else x
    let s1 := s.updStream m fun st => { st with tokens := left, lastFill := s.tick, ring := st.ring.map mark }
    if port < 3 then s1.send (s.dataTx port m kind d)
    else s1.stkSend (port - 3) { stream := m, seq := q } { kind := 4, cls := dataClass kind, dest := 0 } (bytesWords ((s.dataHead m d).bytes d.words))

/-- The stream number under which a member's datagram waits among the others, its place in the order for a SEQ (R323). -/
def fwdStream : Nat := 16

/-- Of entries in order, the first of each stream: a later datagram of a stream does not overtake an earlier one. -/
def firstOfEach : List Nat → List (Nat × Nat) → List (Nat × Nat)
  | _, [] => []
  | seen, e :: r => if e.1 ≠ fwdStream ∧ seen.contains e.1 then firstOfEach seen r else e :: firstOfEach (e.1 :: seen) r

/-- Whether an entry of a port's queue is of a kind. -/
def State.entryIs (s : State) (kind : TxKind) (e : Nat × Nat) : Bool :=
  if e.1 = fwdStream then (s.net.fwd.val {} e.2).kind == kind
  else (s.get (F.NSP_STRm_CFG_KIND e.1) == 1 && kind == .data) || (s.get (F.NSP_STRm_CFG_KIND e.1) == 2 && kind == .readout)

/-- The first datagram of a kind that waits for a port and may go (R288): one whose bucket lacks tokens is passed over. -/
def State.firstWaiting (s : State) (port : Nat) (kind : TxKind) : Option (Nat × Nat) :=
  (firstOfEach [] ((s.net.sendq.val [] port).filter (s.entryIs kind))).find? (fun e => e.1 == fwdStream || s.eligible e.1 e.2)

/-- A datagram taken from a port's queue. -/
def State.unqueue (s : State) (port : Nat) (e : Nat × Nat) : State :=
  { s with net := { s.net with sendq := s.net.sendq.upd [] port fun l => l.filter (fun x => x != e) } }

/-- Whether a range has been sent: in MIRROR on every port that is up (R289). -/
def State.rangeDone (s : State) (r : Range) : Bool :=
  if s.get F.NSP_CTRL_MODE = 0 then
    let a := decide (r.last < r.next) || !s.linkUp 0
    let b := decide (r.last < r.next1) || !s.linkUp 1
    a && b && (decide (r.last < r.next) || decide (r.last < r.next1))
  else decide (r.last < r.next)

/-- One datagram of a retransmission range sent (R285): in MIRROR each port sends them all (R289). -/
def State.retransmit (s : State) (port : Nat) (r : Range) : State :=
  let s1 := s.emit port r.stream (s.rangeNext port r) .retransmit
  let r1 := if s.get F.NSP_CTRL_MODE = 0 ∧ port = 1 then { r with next1 := r.next1 + 1 } else { r with next := r.next + 1 }
  let step (x : Range) : Option Range := if x = r then (if s.rangeDone r1 then none else some r1) else some x
  { s1 with net := { s1.net with retx := s1.net.retx.filterMap step } }

/-- The retransmission range that a port serves next (R288): the first in the order in which they were accepted, but a stream whose bucket
lacks tokens is passed over. -/
def State.nextRange (s : State) (port : Nat) : Option Range :=
  let mine := s.net.retx.filter fun r => (s.portsFor r.stream).contains port && decide (s.rangeNext port r ≤ r.last)
  mine.find? fun r => s.eligible r.stream (s.rangeNext port r) && (mine.find? (fun q => q.stream == r.stream)) == some r

/-- A member's datagram sent out unchanged (R323). -/
def State.forwardOut (s : State) (port : Nat) (e : Nat × Nat) : State :=
  let s1 := s.unqueue port e
  let t := s.net.fwd.val {} e.2
  let s2 := s1.send { t with port := port, udp := t.udp.map (fun u => { u with src := s.ipOf port u.v6 }), tag := s.vlanTag port }
  if [0, 1].any (fun x => (s1.net.sendq.val [] x).contains e) then s2
  else { s2 with net := { s2.net with fwd := s2.net.fwd.drop e.2 } }

/-- An entry of a port's queue sent. -/
def State.sendEntry (s : State) (port : Nat) (kind : TxKind) (e : Nat × Nat) : State :=
  if e.1 = fwdStream then s.forwardOut port e else (s.unqueue port e).emit port e.1 e.2 kind

/-- DATAGRAM_SEND (R288): the port sends the next eligible datagram: live, then retransmitted, then readout. -/
def execDatagramSend (port : Nat) (s : State) : Host.Outcome State Fault Refusal :=
  if ¬ s.portReady port ∨ s.sys.mode = .load then .next s
  else match s.firstWaiting port .data with
    | some e => .next (s.sendEntry port .data e)
    | none =>
      match s.nextRange port with
      | some r => .next (s.retransmit port r)
      | none =>
        match s.firstWaiting port .retransmit with
        | some e => .next (s.sendEntry port .retransmit e)
        | none =>
          match s.firstWaiting port .readout with
          | some e => .next (s.sendEntry port .readout e)
          | none => .next s

end Sys2Proof.Machine
end

