-- ==== Sys2Proof/Machine/Link.lean ====
section
/-! DEFINITION. Link.lean: the uplinks (R270 to R273, R289, R290): link up and lost, hub-side failure, echo and
address resolution, and datagrams discarded on arrival (R275). -/
namespace Sys2Proof.Machine

/-- The status bits of uplink `x` (NSP_STAT, NSP_UPx_STAT). -/
def State.showLink (s : State) (x : Nat) (up : Bool) : State :=
  (s.put (if x = 0 then F.NSP_STAT_LINK_A else F.NSP_STAT_LINK_B) (b2n up)).put (F.NSP_UPx_STAT_LINK x) (b2n up)

/-- Whether uplink `x` is in use: in DORMANT both run (R272). -/
def State.portUsed (s : State) (x : Nat) : Bool :=
  decide (x < 2) && !s.part.linkOos.contains x && (s.sys.mode == .dormant || s.on (F.NSP_UPx_CFG_EN x))

/-- FEC in use on a port at a speed (R270, R272): clause 108 is for 25GBASE-R only. -/
def State.fecFor (s : State) (x : Nat) (rate10 : Bool) : Nat :=
  if s.sys.mode = .dormant then 0
  else let f := s.get (F.NSP_UPx_CFG_FEC x); if f = 2 ∧ rate10 then 0 else f

/-- Whether a port tries a speed (R270): AUTO tries both. -/
def State.triesSpeed (s : State) (x : Nat) (rate10 : Bool) : Bool :=
  let c := if s.sys.mode = .dormant then 0 else s.get (F.NSP_UPx_CFG_SPEED x)
  c == 0 || (c == 1 && !rate10) || (c == 2 && rate10)

/-- Nominal port latencies at a speed, TX and RX, in 2⁻¹⁶ ns (TIM_PORT_CAL). -/
def nominalCal (rate10 : Bool) : Nat × Nat := if rate10 then (0x00BA8000, 0x012A4000) else (0x00542000, 0x0083C000)

/-- Address of TIM_PORT_CAL0 to 3 (R88). -/
def portCal (i : Nat) : Nat := R.TIM_PORT_CAL0 + 4 * i

/-- In MIRROR a port that comes up takes what no port has sent yet (R289), in the order in which it was closed. -/
def State.mirrorBack (s : State) (port : Nat) : State :=
  if s.get F.NSP_CTRL_MODE ≠ 0 then s
  else
    let unsent (e : Nat × Nat) : Bool := match s.dgram e.1 e.2 with | some d => !d.sent | none => false
    let mine := s.net.sendq.val [] port
    let more := (s.net.sendq.val [] (1 - port)).filter (fun e => unsent e && !mine.contains e)
    { s with net := { s.net with sendq := s.net.sendq.set port (more.foldl (fun l e => s.insertSend e l) mine) } }

/-- LINK_UP (R301): the port's link comes up at a speed, with its gearbox position measured (R65). -/
def execLinkUp (port : Nat) (rate10 : Bool) (gearTx gearRx : Nat) (s : State) : Host.Outcome State Fault Refusal :=
  if ¬ s.portUsed port ∨ (s.link port).up ∨ ¬ s.triesSpeed port rate10 then .next s
  else
    let s0 := s.mirrorBack port
    let s1 := (s0.updLink port fun l => { l with up := true, tested := false }).showLink port true
    let s2 := (s1.put (F.NSP_UPx_STAT_SPEED port) (b2n (!rate10))).put (F.NSP_UPx_STAT_FEC port) (s.fecFor port rate10)
    let cal := nominalCal rate10
    let s3 := (s2.wr (portCal (2 * port)) (wd (cal.1 + gearTx))).wr (portCal (2 * port + 1)) (wd (cal.2 + gearRx))
    .next (s3.event Ev.LINK_UP (evSource 9 port) [.h port, .h (b2n (!rate10)), .h (s.fecFor port rate10)])

/-! Ranges (R285). -/

/-- A retransmission range queued: one that overlaps a range of its stream is merged into it (R285). -/
def addRange (r : Range) : List Range → List Range
  | [] => [r]
  | q :: t =>
    if q.stream = r.stream ∧ r.next ≤ q.last ∧ q.next ≤ r.last then { q with next := min q.next r.next, last := max q.last r.last, next1 := min q.next1 r.next1 } :: t
    else q :: addRange r t

/-- The datagrams of an ACK stream that a lost port sent within the last 4,000 ticks and that are not acknowledged
(R290). -/
def State.resendable (s : State) (m port : Nat) : List Range :=
  if ¬ s.ackSet m then []
  else
    let st := s.stream m
    (st.ring.filter (fun d => d.sent && d.sentOn == port && decide (s.tick ≤ d.sentAt + 4000) && decide (st.rel ≤ d.seq))).map
      fun d => { stream := m, next := d.seq, last := d.seq, next1 := d.seq }

/-- The streams of a lost port move to the other port (R290): in FAILOVER and SPLIT, with what waited, in the order in which it was
closed (R288), and the datagrams to be sent again: each is a range of its own, and the limit of 1,024 ranges, which is one on what NACKs ask for (R285),
does not bind them (DESIGN CHOICE, log 33). In MIRROR the other port, where it is up, carries on alone, with what
neither has sent. -/
def State.moveStreams (s : State) (port : Nat) : State :=
  let other := 1 - port
  if s.get F.NSP_CTRL_MODE = 0 then
    if s.linkUp other then let s1 := s.mirrorBack other; { s1 with net := { s1.net with sendq := s1.net.sendq.set port [] } } else s
  else if ¬ s.portUsed other then s
  else
    let ms := (List.range 16).filter (fun m => (s.stream m).port == port && s.get (F.NSP_STRm_CFG_KIND m) != 0 && s.get (F.NSP_STRm_SPACE_UNITS m) != 0)
    let s0 := if s.get F.NSP_CTRL_MODE = 2 ∧ s.get F.NSP_STAT_ACTIVE = port then s.put F.NSP_STAT_ACTIVE other else s
    if ms.isEmpty then s0
    else
    let again := ms.flatMap (fun m => s.resendable m port)
    let s1 := ms.foldl (fun s m => s.updStream m fun st => { st with port := other }) s0
    let mine := s.net.sendq.val [] port
    let q := (s1.net.sendq.set port []).upd [] other fun l => mine.foldl (fun l e => s.insertSend e l) l
    let s2 := { s1 with net := { s1.net with sendq := q, retx := again.foldl (fun (l : List Range) r => addRange r l) s1.net.retx } }
    (s2.flag F.NSP_ALERT_FAILOVER).event Ev.NSP_FAILOVER (evSource 9 port) [.h port, .h other, .h ms.length]

/-- A port is lost (R290). -/
def State.losePort (s : State) (port cause : Nat) : State :=
  let s1 := (s.updLink port fun l => { l with up := false, downAt := s.tick, tested := false }).showLink port false
  ((s1.flag F.NSP_ALERT_LINK_LOSS).event Ev.LINK_DOWN (evSource 9 port) [.h port, .h cause]).moveStreams port

/-- PORT_LOSS (R290). A port in use that has not come up, or not come back, loses the streams that it has. -/
def execPortLoss (port cause : Nat) (s : State) : Host.Outcome State Fault Refusal :=
  if 2 ≤ port then .next s
  else if (s.link port).up then .next (s.losePort port cause)
  else if s.portUsed port ∧ s.live then .next (s.moveStreams port)
  else .next s

/-- A hub-side failure of an uplink (R273): out of service for the life of the part, LIMP under R18. Detectors told
apart (their codes are open, log 29): 1 the loopback test, 2 the parity check. -/
def State.uplinkFail (s : State) (port detector : Nat) : State :=
  if s.part.linkOos.contains port then s
  else
    let s0 := if (s.link port).up then s.losePort port (Config.eventCode Ev.LINK_DOWN detector) else s.moveStreams port
    let s1 := { s0 with part := { s0.part with linkOos := port :: s0.part.linkOos } }
    let s2 := (s1.put (if port = 0 then F.NSP_STAT_OOS_A else F.NSP_STAT_OOS_B) 1).put (F.NSP_UPx_STAT_OOS port) 1
    ((s2.event Ev.UPLINK_FAIL (evSource 9 port) [.h port, .h (Config.eventCode Ev.UPLINK_FAIL detector)]).useSpare 3).exhaust 3

/-- LINK_LOOPBACK_TEST (R273): after 10 s of link down the near-end test decides between the far end and a hub-side
failure. -/
def execLinkLoopbackTest (port : Nat) (pass : Bool) (s : State) : Host.Outcome State Fault Refusal :=
  let l := s.link port
  if ¬ s.portUsed port ∨ l.up ∨ l.tested ∨ s.tick < l.downAt + 10 * Config.second then .next s
  else if pass then .next (s.updLink port fun l => { l with tested := true })
  else .next (s.uplinkFail port 1)

/-- LINK_RETRY (R273): an attempt at link-up on a port whose far end is absent. The attempt changes nothing that the
hub shows; a success is LINK_UP. -/
def execLinkRetry (_port : Nat) (s : State) : Host.Outcome State Fault Refusal := .next s

/-- MAC_QUEUE_PARITY_ERROR (R273). -/
def execMacQueueParityError (port : Nat) (s : State) : Host.Outcome State Fault Refusal :=
  if port < 2 then .next (s.uplinkFail port 2) else .next s

/-! Addresses (R270 to R272). -/

/-- ICMP_ECHO_REQUEST (R270): answered, at most 100 times a second on each port. -/
def execIcmpEchoRequest (port : Nat) (v6 : Bool) (src : Nat) (echo : List Word) (s : State) : Host.Outcome State Fault Refusal :=
  let l := s.link port
  let sec := s.tick / Config.second
  let n := if l.echoAt = sec then l.echoN else 0
  if ¬ s.linkUp port ∨ s.ipOf port v6 = 0 ∨ 100 ≤ n then .next s
  else
    let s1 := s.updLink port fun l => { l with echoAt := sec, echoN := n + 1 }
    .next (s1.uplinkSend { port := port, kind := .echo, seq := src, words := echo })

/-- ARP_NDP_REQUEST (R270): a request for the port's own address is answered with its MAC address. -/
def execArpNdpRequest (port : Nat) (v6 : Bool) (addr : BitVec 128) (s : State) : Host.Outcome State Fault Refusal :=
  if ¬ s.linkUp port ∨ s.ipOf port v6 = 0 ∨ s.ipOf port v6 ≠ addr.toNat then .next s
  else
    let m := (s.mac port).toNat
    .next (s.uplinkSend { port := port, kind := .echo, words := [wd m, wd (m / 2 ^ 32)] })

/-- INVALID_DATAGRAM_RX (R270, R275, R302): discarded without an answer. A datagram that R275 discards counts in NSP_MGMT_CNT.DROPPED, a frame
received with errors in RX_ERR. -/
def execInvalidDatagramRx (rx : Nat × RxFault) (s : State) : Host.Outcome State Fault Refusal :=
  if ¬ s.linkUp rx.1 then .next s
  else
    match rx.2 with
    | .header => .next (s.countUp F.NSP_MGMT_CNT_DROPPED)
    | .frame => .next (s.countUp (F.NSP_UPx_STAT_RX_ERR rx.1))
    | .other => .next s

end Sys2Proof.Machine
end

