-- ==== Sys2Proof/Machine/TrimSums.lean ====
section
/-! DEFINITION. TrimSums.lean: what a full trim sums up tick by tick over the codes of the fast slices (R360, R361): the histograms of
the offset step, the reference values of the gain step and the products of the skew step. -/
namespace Sys2Proof.Machine

/-- Full scale of range `r` in normalised LSB (R92). -/
def fullScale (r : Nat) : Int := ([8388608, 2097152, 524288, 131072].getD r 131072)

/-- Samples that each fast step discards at its start (R360). -/
def trimSettle : Nat := 1000

/-- A step of a full trim: the ranges ascend, and in the gain step the positive reference comes first (R360, R361). -/
inductive TrimStep where
  | offset (r : Nat)
  | gain (r pol : Nat)
  | skew (k : Nat)
  deriving DecidableEq, Repr

/-- The step whose samples are used in the tick `k` ticks after S, none in a tick whose samples are discarded (R360). -/
def trimStep (k : Nat) : Option TrimStep :=
  if k < 10000 then none
  else if k < 74000 then (if (k - 10000) % 16000 < trimSettle then none else some (.offset ((k - 10000) / 16000)))
  else if k < 202000 then (if (k - 74000) % 16000 < trimSettle then none else some (.gain ((k - 74000) / 32000) ((k - 74000) / 16000 % 2)))
  else if k < 202000 + trimSettle ∨ 266000 ≤ k then none
  else some (.skew (k - 202000 - trimSettle))

/-- The value of a code of range `r` (R95). -/
def codeValue (r : Nat) (c : Int) : Int := c * 4 ^ (3 - r)

/-- One tick of the skew step: with m slices, xbar is S / m, so u − xbar is (m u − S) / m and v is ΔS / 2m, which leaves tau as
twice the sum of (m u − S) ΔS over that of ΔS². A tick is used when both its neighbours belong to the step and the same slices deliver in
all three (log 55). -/
def TrimSums.skewTick (t : TrimSums) (k : Nat) (us : List (Nat × Int)) : TrimSums :=
  let sum (l : List (Nat × Int)) : Int := (l.map (·.2)).foldl (· + ·) 0
  let m : Int := us.length
  let dS := sum us - sum t.before
  let slices (l : List (Nat × Int)) : List Nat := l.map (·.1)
  let t1 : TrimSums := { t with last := us, before := t.last }
  if k < 2 ∨ slices us ≠ slices t.last ∨ slices us ≠ slices t.before then t1
  else
    { t1 with
      den := t1.den + dS * dS
      skew := t.last.foldl (fun a e => a.upd 0 e.1 fun x => x + 2 * (m * e.2 - sum t.last) * dS) t1.skew }

/-- One tick of a full trim: `cs` are the codes of the slices in service (R361). -/
def TrimSums.tick (t : TrimSums) (step : TrimStep) (cs : List (Nat × Int)) : TrimSums :=
  match step with
  | .offset r => { t with hist := cs.foldl (fun h e => h.upd [] (e.1 * 4 + r) fun c => c.upd 0 (e.2 + 131072).toNat (· + 1)) t.hist }
  | .gain r p => { t with refs := cs.foldl (fun h e => h.upd (0, 0) (e.1 * 8 + r * 2 + p) fun a => (a.1 + codeValue r e.2, a.2 + 1)) t.refs }
  | .skew k => t.skewTick k (cs.map fun e => (e.1, codeValue 1 e.2))

/-- The codes of one tick added to what the full trim in progress has summed. -/
def State.trimTick (s : State) (codes : List (BitVec 18)) : State :=
  match s.cal.trimStart with
  | some f =>
    let cs := ((List.range 200).filter fun i => !s.part.slices.contains i).map fun i => (i, sx 18 (codes.getD i 0).toNat)
    match trimStep (s.tick - f) with
    | some st => { s with cal := { s.cal with trim := s.cal.trim.tick st cs } }
    | none => s
  | none => s

end Sys2Proof.Machine
end

