-- ==== Sys2Proof/Machine/FrontEnd.lean ====
section
/-! DEFINITION. FrontEnd.lean: the fast front end below the redundancy boundary (04): conversion and
auto-ranging, raw20 words and the tick record, normalisation, the substitution journal, slice and spare
failures. -/
namespace Sys2Proof.Machine

/-! Slices, banks and slots (R89, R105). -/

/-- The marker of a slot that holds no sample (R93, R105): 0 IDLE, 1 FAILED, 2 TRIM. -/
def marker (reason : Nat) : BitVec 20 := BitVec.ofNat 20 (reason * 2 ^ 18 + 0x20000)

/-- A raw20 word (R94). -/
def raw20 (code : BitVec 18) (r : Nat) : BitVec 20 := BitVec.ofNat 20 (r % 4 * 2 ^ 18 + code.toNat)

/-- Whether a raw20 word is a marker. -/
def isMarker (w : BitVec 20) : Bool := w.toNat % 2 ^ 18 == 0x20000

/-- The reason of a marker. -/
def markerReason (w : BitVec 20) : Nat := w.toNat / 2 ^ 18

/-- The code of a raw20 word. -/
def rawCode (w : BitVec 20) : Int := sx 18 w.toNat

/-- The fast channel wired to slice `i` of 200, none for a spare (R89). -/
def sliceChannel (i : Nat) : Option Nat := if i % 25 < 24 then some (24 * (i / 25) + i % 25) else none

/-- The slice permanently wired to a fast channel (R89). -/
def ownSlice (ch : Nat) : Nat := 25 * (ch / 24) + ch % 24

/-- The spare slice of a bank (R89). -/
def spareSlice (b : Nat) : Nat := 25 * b + 24

/-- SRD_K of a channel: its slice converts at every tick that is a multiple of 2^k (R91). -/
def State.srdK (s : State) (ch : Nat) : Nat := s.get (F.CH_AFE_CTRL_SRD_K ch)

/-- Whether a channel's input converts in tick `n` (R91). -/
def State.convertsAt (s : State) (ch n : Nat) : Bool := n % 2 ^ s.srdK ch == 0

/-- M of STK_MUL (R321, R328). -/
def State.mulM (s : State) : Nat := 2 ^ s.get F.STK_MUL_M

/-- Whether the channel's bank is multiplied (R321): positions 0 to M − 1 are grouped. -/
def State.multiplied (s : State) (ch : Nat) : Bool :=
  s.get F.STK_MUL_M != 0 && decide (s.sys.pos < s.mulM) && bitOf (s.get F.STK_MUL_BANKS) (ch / 24)

/-- The offset of the sampling instant of a multiplied bank from the tick start (R321), in ns: j × 500 / M. -/
def State.mulOffset (s : State) (ch : Nat) : Nat := if s.multiplied ch then s.sys.pos * 500 / s.mulM else 0

/-! Auto-ranging (R97 to R101). -/

/-- The range a converted sample is taken in: RNG_INIT when fixed or at a fresh start, otherwise the
decision on the sample before (R98, R100, R101). -/
def State.rangeFor (s : State) (ch : Nat) (st : SliceSt) : Nat :=
  if s.get (F.CH_AFE_CTRL_RNG_MODE ch) = 1 ∨ st.reinit then s.get (F.CH_AFE_CTRL_RNG_INIT ch) else st.range

/-- The range decision on a converted sample `u` taken at range `r` (R97): next range and quiet count. -/
def rangeDecision (rngL : Nat) (rmin rmax r quiet : Nat) (u du : Int) : Nat × Nat :=
  let fs := fullScale r
  let up := decide (9 * fs ≤ 10 * (u.natAbs : Int)) || decide (19 * fs ≤ 20 * ((u.natAbs : Int) + rngL * du.natAbs))
  if up && decide (rmin < r) then (r - 1, 0)
  else if 5 * (u.natAbs : Int) < fs then
    if 64 ≤ quiet + 1 ∧ r < rmax then (r + 1, 0) else (r, quiet + 1)
  else (r, 0)

/-- The range logic of the slices that may feed a channel changed: its own, and its bank's spare where that stands in. -/
def State.updRange (s : State) (ch : Nat) (f : SliceSt → SliceSt) : State :=
  let bank := s.fe.banks.val {} (ch / 24)
  let t := s.fe.slices.upd {} (ownSlice ch) f
  { s with fe := { s.fe with slices := if bank.standing && bank.input == some (ch % 24) then t.upd {} (spareSlice (ch / 24)) f else t } }

/-- Every slice starts afresh after a full trim (R97, R101): RNG_INIT, quiet count 0 and no previous sample. -/
def State.rangesAfresh (s : State) : State :=
  { s with fe := { s.fe with slices := s.fe.slices.map fun (e : Nat × SliceSt) => (e.1, { e.2 with uPrev := none, reinit := true }) } }

/-- The state of a slice's range logic after a converted code (R97, R100, R101). -/
def State.rangeStep (s : State) (ch : Nat) (st : SliceSt) (code : Int) : SliceSt :=
  let r := s.rangeFor ch st
  let u : Int := code * 4 ^ (3 - r)
  if s.get (F.CH_AFE_CTRL_RNG_MODE ch) = 1 then ⟨r, 0, some u, false⟩
  else
    let d := rangeDecision (s.getWas F.AFF_CTRL_RNG_L) (s.get (F.CH_AFE_CTRL_RNG_MIN ch))
      (s.get (F.CH_AFE_CTRL_RNG_MAX ch)) r (if st.reinit then 0 else st.quiet) u (match st.uPrev with | some p => u - p | none => 0)
    ⟨d.1, d.2, some u, false⟩

/-! Conversion (R91, R105, R108, R366). -/

/-- A code as the converter delivers it: −131,072 never comes from conversion (R93). -/
def clipCode (c : BitVec 18) : BitVec 18 := if c.toNat = 0x20000 then BitVec.ofNat 18 0x20001 else c

/-- The input a bank's crossbar connects the spare to in tick `n` (R90): where it stands, or from 4 ticks
before the boundary at which the spare takes over from a gradual failure (R109). -/
def State.crossbar (s : State) (b n : Nat) : Option Nat :=
  let bank := s.fe.banks.val {} b
  if bank.standing then bank.input
  else match bank.gradual.find? (fun e => decide (e.2 ≤ n + 4)) with
    | some e => some e.1
    | none => bank.input

/-- The raw20 word of slice `i` in tick `n`, and its range logic after it. -/
def State.convertSlice (s : State) (n i : Nat) (code : BitVec 18) : BitVec 20 × SliceSt :=
  let st := s.fe.slices.val {} i
  let c := clipCode code
  if s.part.slices.contains i then (marker 1, st)
  else if s.sys.mode = .trim then (marker 2, st)
  else match sliceChannel i with
    | some ch =>
      if s.convertsAt ch n then (raw20 c (s.rangeFor ch st), s.rangeStep ch st (sx 18 c.toNat)) else (marker 0, st)
    | none =>
      let b := i / 25
      let bank := s.fe.banks.val {} b
      match s.crossbar b n with
      | none => (marker 0, st)
      | some inp =>
        let ch := 24 * b + inp
        if ¬ s.convertsAt ch n then (marker 0, st)
        else if bank.standing then
          if n + 1 < bank.liveFrom then (marker 0, st)
          else if n < bank.liveFrom then (raw20 c (s.rangeFor ch st), st)
          else (raw20 c (s.rangeFor ch st), s.rangeStep ch st (sx 18 c.toNat))
        else (raw20 c (s.rangeFor ch (s.fe.slices.val {} (ownSlice ch))), st)

/-- SLICE_CONVERSION (R91): every slice converts, or its slot carries the marker of R105; a full trim sums up the codes (R361). In LOAD and
DORMANT no tick number runs and nothing converts. -/
def execSliceConversion (codes : List (BitVec 18)) (s : State) : Host.Outcome State Fault Refusal :=
  if ¬ s.live then .next s else
  let both := (List.range 200).map fun i => s.convertSlice s.tick i (codes.getD i 0)
  let t := s.trimTick (codes.map clipCode)
  .next { t with fe := { s.fe with
    slices := (List.range 200).zip (both.map (·.2))
    conv := s.fe.conv ++ [⟨s.tick, both.map (·.1)⟩] } }

/-! The tick record (R105) and normalisation (R95, R96). -/

/-- The 500 bytes of a tick record: one little-endian bit string, two words to five bytes. -/
def tickRecord : List (BitVec 20) → List Byte
  | a :: b :: r => leBytes 5 (a.toNat + b.toNat * 2 ^ 20) ++ tickRecord r
  | [a] => leBytes 5 a.toNat
  | [] => []

/-- The raw20 word of slice `i` in a tick record held in memory at `base`. -/
def recordSlot (d : Byte) (m : List Host.Cell) (base i : Nat) : BitVec 20 :=
  let v := leVal (Mem.bytes d m (base + i / 2 * 5) 5)
  BitVec.ofNat 20 (v / 2 ^ (20 * (i % 2)))

/-- The coefficient set in force at a tick (R10, R95). -/
def State.coefAt (s : State) (t : Nat) : CoefSet :=
  ((s.cal.hist.find? (fun e => decide (e.1 ≤ t))).map (·.2)).getD s.cal.cur

/-- The normalised sample of a code (R95): value and OVR. -/
def normalise (code : Int) (r : Nat) (o g : Int) : Int × Bool :=
  let u : Int := code * 4 ^ (3 - r)
  let x := rhe ((u - o) * (2 ^ 31 + g)) (2 ^ 31)
  (clampI (-8388607) 8388607 x, decide (x < -8388607) || decide (8388607 < x) || code.natAbs == 131071)

/-- O_r as the sum of its two parts (R359); a sum that 16 bits cannot hold is open. -/
def offsetSum (v : Int) : Int := if satI 16 v = v then v else sx 16 (Config.freeSum v).toNat

/-- Offset and gain of a slice for a channel and range under a set (R95, R357, R359): none under TAPS. -/
def CoefSet.offGain (c : CoefSet) (slice ch r : Nat) : Int × Int :=
  if c.digital then
    let e := c.slices.val {} slice
    (offsetSum (e.o.getD r 0 + c.fz.val 0 ch), e.g.getD r 0)
  else (0, 0)

/-- The slice that feeds a channel at a tick, by the substitution journal (R106); none without a converter. -/
def State.feeder (s : State) (ch t : Nat) : Option Nat :=
  if 192 ≤ ch then none else
  match s.fe.journal.find? (fun e => e.ch == ch && decide (e.tick ≤ t)) with
  | some e => e.slice
  | none => some (ownSlice ch)

/-- Whether a tick lies in a DIP span (R52, R53). -/
def State.dipAt (s : State) (t : Nat) : Bool :=
  (match s.pwr.dipFrom with | some f => decide (f ≤ t) && decide (t ≤ s.pwr.lastLow + 64) | none => false)
    || s.pwr.dips.any (fun d => decide (d.1 ≤ t) && decide (t ≤ d.2))

/-- The normalised sample of a channel at a tick, from the raw20 word of the slice that feeds it; none for
a marker (R95, R96). -/
def State.normSample (s : State) (ch slice t : Nat) (w : BitVec 20) : Option FSample :=
  if isMarker w then none
  else
    let r := w.toNat / 2 ^ 18
    let og := (s.coefAt t).offGain slice ch r
    let v := normalise (rawCode w) r og.1 og.2
    some ⟨v.1, r, v.2, s.dipAt t, slice % 25 == 24⟩

/-- What the collector delivers for one tick (R9, R112). -/
def State.deliver (s : State) (c : ConvTick) : Delivered :=
  let one (ch : Nat) : Option FSample :=
    match s.feeder ch c.tick with
    | some sl => s.normSample ch sl c.tick (c.words.getD sl (marker 0))
    | none => none
  let bad (ch : Nat) : Bool :=
    match s.feeder ch c.tick with
    | some sl => let w := c.words.getD sl (marker 0); isMarker w && markerReason w == 1
    | none => true
  ⟨c.tick, (List.range 192).filterMap (fun ch => (one ch).map (fun x => (ch, x))), (List.range 192).filter bad⟩

/-! Banks and spares (R108 to R111). -/

/-- A bank's crossbar and spare changed. -/
def State.updBank (s : State) (b : Nat) (f : BankSt → BankSt) : State :=
  { s with fe := { s.fe with banks := s.fe.banks.upd {} b f } }

/-- The spare's state and input as AFF_BANKb_STAT shows them (R122). -/
def State.showSpare (s : State) (b st : Nat) (input : Option Nat) : State :=
  (s.put (F.AFF_BANKb_STAT_SPARE_STATE b) st).put (F.AFF_BANKb_STAT_SPARE_INPUT b) (input.getD 31)

/-- Whether a bank's spare can be brought in: free, parked, or held by rolling trim. -/
def State.spareFree (s : State) (b : Nat) : Bool :=
  !(s.part.slices.contains (spareSlice b)) && !(s.fe.banks.val {} b).standing

/-- A slot of rolling trim in a bank is discarded: RESULT 7 on the visited channel, no estimate (R376). The visits and slots on its two sides
are not consecutive (R371). -/
def State.discardSlot (s : State) (b : Nat) : State :=
  match (s.cal.rt.val {} b).input with
  | none => s
  | some i =>
    let rt := s.cal.rt.upd {} b fun r => { r with
      input := none, pairs := 0, outliers := 0, p1 := none, p2 := none, sums := [], stuck := {}, plaus := r.plaus.set i false, limitRun := [] }
    (({ s with cal := { s.cal with rt := rt } }).put (F.CH_CAL_RUN_RESULT (24 * b + i)) 7).put (F.CAL_BANKb_STAT_SPARE_PLAUS b) 0

/-- A slice leaves service for the life of the part (R110). -/
def State.sliceOut (s : State) (i : Nat) : State :=
  let b := i / 25
  let s1 := { s with part := { s.part with slices := i :: s.part.slices } }
  (s1.put (F.AFF_BANKb_FAIL_SLICE b) (s.get (F.AFF_BANKb_FAIL_SLICE b) ||| 2 ^ (i % 25))).countUp
    (F.AFF_BANKb_STAT_FAILED b)

/-- A change of the slice that feeds a channel enters the substitution journal (R106). -/
def State.journalSlice (s : State) (t ch : Nat) (slice : Option Nat) : State :=
  { s with fe := { s.fe with journal := ⟨t, ch, slice⟩ :: s.fe.journal } }

/-- A channel is left without a converter from tick `t` (R109, R111): open SLICE_LOST gap, EV_BANK_EXHAUSTED,
LIMP. -/
def State.loseChannel (s : State) (b i t what : Nat) : State :=
  let ch := 24 * b + i
  let s1 := { s with part := { s.part with lostCh := ch :: s.part.lostCh } }
  let s2 := (s1.journalSlice t ch none).put F.AFF_STAT_BANK_LOST (s1.get F.AFF_STAT_BANK_LOST ||| 2 ^ b)
  let s3 := s2.event Ev.BANK_EXHAUSTED (evSource 2 ch) [.h b, .h i]
  (s3.gapOpen ch Gap.SLICE_LOST t what).exhaust 0

/-- The bank's spare is brought in for input `i`, serving it from tick `from` (R108, R109). The range logic
of the spare starts in the range the failed slice had, quiet count and Δu at 0. -/
def State.takeSpare (s : State) (b i tick : Nat) (pend : Bool) : State :=
  let s1 := s.discardSlot b
  let own := s1.fe.slices.val {} (25 * b + i)
  let s2 := { s1 with fe := { s1.fe with slices := s1.fe.slices.set (spareSlice b) ⟨own.range, 0, none, own.reinit⟩ } }
  let s3 := s2.updBank b fun k => { k with input := some i, standing := true, liveFrom := tick, was := s.tick, pend := pend }
  let s4 := { s3 with part := { s3.part with spares := (b, i) :: s3.part.spares } }
  ((s4.showSpare b 2 (some i)).put F.AFF_STAT_SPARE_USED (s4.get F.AFF_STAT_SPARE_USED ||| 2 ^ b)).useSpare 0

/-- The spare's substitution as recorded when it begins to serve the channel (R108, R109). -/
def State.noteSubst (s : State) (b i tick : Nat) : State :=
  ((s.journalSlice tick (24 * b + i) (some (spareSlice b))).countUp F.AFF_STAT_SUBJ_CNT).event
    Ev.SLICE_SUBST (evSource 2 (24 * b + i)) [.h b, .h i, .t tick]

/-- The sample of slice `i` in the tick in hand never converted (R108): where its code has been taken, its slot carries FAILED and the
range in force for that tick stands again. -/
def State.unconvert (s : State) (i : Nat) : State :=
  let fail (c : ConvTick) : ConvTick := if c.tick = s.tick then { c with words := c.words.set i (marker 1) } else c
  match s.fe.conv.find? (fun c => c.tick == s.tick) with
  | none => s
  | some c =>
    let w := c.words.getD i (marker 1)
    let slices := if isMarker w then s.fe.slices else s.fe.slices.upd {} i fun k => { k with range := markerReason w }
    { s with fe := { s.fe with conv := s.fe.conv.map fail, slices := slices } }

/-- An abrupt failure of a slice that is wired to an input, in the tick in hand (R49, R108, R111). -/
def State.abruptFailure (s0 : State) (i detector : Nat) : State :=
  let s := s0.unconvert i
  let b := i / 25
  let inp := i % 25
  let n := s.tick
  let s1 := ((s.sliceOut i).flag F.AFF_ALERT_SLICE_FAIL).event Ev.SLICE_FAIL (evSource 2 (24 * b + inp)) [.h i, .h detector]
  let bank := s.fe.banks.val {} b
  if s.spareFree b then
    if s.sys.mode = .trim then (s1.takeSpare b inp n false).noteSubst b inp n
    else s1.takeSpare b inp (n + 3) true
  else
    -- R111: two failures of one tick give the spare to the lower-numbered input
    match bank.input with
    | some j =>
      if bank.pend ∧ bank.was = n ∧ inp < j then
        let s2 := { s1 with part := { s1.part with spares := s1.part.spares.filter (fun e => e != (b, j)) } }
        let own := s2.fe.slices.val {} i
        let s3 := { s2 with fe := { s2.fe with slices := s2.fe.slices.set (spareSlice b) ⟨own.range, 0, none, own.reinit⟩ } }
        let s4 := s3.updBank b fun k => { k with input := some inp }
        ({ s4 with part := { s4.part with spares := (b, inp) :: s4.part.spares } }).showSpare b 2 (some inp)
          |>.loseChannel b j n (25 * b + j)
      else s1.loseChannel b inp n i
    | none => s1.loseChannel b inp n i

/-- The spare slice of a bank fails (R110, R111). One that fails while its own substitution still waits leaves the channel without a converter from
the tick of that failure on, and the gap of the substitution is not placed: the spec does not say how the two combine (log 60). -/
def State.spareFailure (s : State) (b : Nat) : State :=
  if s.part.slices.contains (spareSlice b) then s else
  let bank := s.fe.banks.val {} b
  let s1 := ((s.discardSlot b).sliceOut (spareSlice b)).flag F.AFF_ALERT_SPARE_FAIL
  let used := s1.get F.AFF_STAT_SPARE_USED
  let s2 := ((s1.event Ev.SPARE_FAIL (evSource 2 b) [.h b]).showSpare b 3 bank.input).put F.AFF_STAT_SPARE_USED (used - (used &&& 2 ^ b))
  if bank.standing then
    match bank.input with
    | some i => (s2.updBank b fun k => { k with standing := false, pend := false, input := none }).loseChannel b i s.tick (spareSlice b)
    | none => (s2.updBank b fun k => { k with standing := false }).exhaust 0
  else (s2.updBank b fun k => { k with input := none }).exhaust 0

/-- SLICE_ABRUPT_FAILURE (R108): a conversion misses its deadline. A slice already out of service has none. -/
def execSliceAbruptFailure (slice : Nat) (s : State) : Host.Outcome State Fault Refusal :=
  if ¬ s.live ∨ 200 ≤ slice ∨ s.part.slices.contains slice then .next s
  else if slice % 25 = 24 then .next ((s.unconvert slice).spareFailure (slice / 25))
  else .next (s.abruptFailure slice 1)

/-- SLICE_SUBSTITUTION (R108): from tick n + 3 the spare feeds the channel, and the gap n to n + 2 is placed. -/
def execSliceSubstitution (bank : Nat) (s : State) : Host.Outcome State Fault Refusal :=
  let k := s.fe.banks.val {} bank
  match k.input with
  | some i =>
    if k.pend ∧ k.liveFrom ≤ s.tick then
      let s1 := (s.updBank bank fun k => { k with pend := false }).noteSubst bank i k.liveFrom
      .next (s1.gapWhole (24 * bank + i) Gap.SLICE_LOST k.was (k.was + 2) (25 * bank + i))
    else .next s
  | none => .next s

/-- A gradual failure found in the tick in hand (R107, R109): the change waits for the next frame boundary; a
bank without a spare puts the hub in LIMP at once. -/
def State.gradualFailure (s : State) (slice detector : Nat) : State :=
  let b := slice / 25
  let i := slice % 25
  let s1 := (s.flag F.AFF_ALERT_SLICE_FAIL).event Ev.SLICE_FAIL (evSource 2 (24 * b + i)) [.h slice, .h detector]
  let s2 := s1.updBank b fun k => { k with gradual := k.gradual ++ [(i, nextFrame s.tick)] }
  if s.spareFree b then
    (if (s.cal.rt.val {} b).input = some i then s2 else s2.discardSlot b)
  else s2.exhaust 0

/-- A run of codes whose slice counts as failed (R107): 2,048 or more identical codes, while the codes of the spare in the run show a standard
deviation of more than 16 LSB, taken as that of the population, with divisor n: the spec does not say which (log 60). -/
def StuckRun.failed (k : StuckRun) : Bool :=
  decide (2048 ≤ k.n) && decide (256 * (k.n : Int) * k.n < k.n * k.sq - k.sum * k.sum)

/-- Whether the third detector of R107 finds a slice failed: rolling trim visits its input, and no change of its input waits already. -/
def State.stuck (s : State) (slice : Nat) : Bool :=
  let b := slice / 25
  let i := slice % 25
  let k := s.cal.rt.val {} b
  k.input == some i && k.stuck.failed && !((s.fe.banks.val {} b).gradual.any fun e => e.1 == i)

/-- SLICE_GRADUAL_FAILURE (R107, R109): a slice is found stuck (log 60). A failure that rolling trim's plausibility finds is RT_SLOT_END's. -/
def execSliceGradualFailure (bank input : Nat) (s : State) : Host.Outcome State Fault Refusal :=
  let slice := 25 * bank + input
  if ¬ s.live ∨ 8 ≤ bank ∨ 24 ≤ input ∨ s.part.slices.contains slice ∨ ¬ s.stuck slice then .next s
  else .next (s.gradualFailure slice 3)

/-- One gradual failure of a bank takes effect at its boundary (R109). -/
def State.gradualEffect (s : State) (b i bound : Nat) : State :=
  let s1 := (s.sliceOut (25 * b + i)).updBank b fun k => { k with gradual := k.gradual.filter (fun e => e != (i, bound)) }
  if s.part.slices.contains (25 * b + i) then s.updBank b fun k => { k with gradual := k.gradual.filter (fun e => e != (i, bound)) }
  else if s.spareFree b then (s1.takeSpare b i bound false).noteSubst b i bound
  else s1.loseChannel b i bound (25 * b + i)

/-- GRADUAL_SUBSTITUTION (R109): at the boundary the channel switches to the spare, or loses its converter. -/
def execGradualSubstitution (bank : Nat) (s : State) : Host.Outcome State Fault Refusal :=
  let due := (s.fe.banks.val {} bank).gradual.filter (fun e => decide (e.2 ≤ s.tick))
  .next (due.foldl (fun s e => s.gradualEffect bank e.1 e.2) s)

/-- SPARE_FAIL (R110). -/
def execSpareFail (bank : Nat) (s : State) : Host.Outcome State Fault Refusal :=
  if ¬ s.live ∨ 8 ≤ bank then .next s else .next (s.spareFailure bank)

/-- The parking of a spare that a write of AFF_BANKb_CTRL orders (R111, R366). -/
def State.parkSpare (s : State) (b : Nat) : State :=
  let man := s.get (F.AFF_BANKb_CTRL_SPARE_MAN b) == 1
  let inp := s.get (F.AFF_BANKb_CTRL_MAN_INPUT b)
  let s1 := s.discardSlot b
  if man then (s1.updBank b fun k => { k with input := some inp }).showSpare b 0 (some inp)
  else (s1.updBank b fun k => { k with input := none }).showSpare b 0 none

end Sys2Proof.Machine
end

