-- ==== Sys2Proof/Machine/Frb.lean ====
section
/-! DEFINITION. Frb.lean: FRB-64, the fixed-ratio block codec (R246 to R262), as pure functions. -/
namespace Sys2Proof.Machine

/-- A sample of a block: value and flag byte (R246). -/
abbrev FrbSample := Int × Nat

/-- B, the words of a block, by RATIO code (R247). -/
def frbWords (ratio : Nat) : Nat := [51, 27, 19, 15, 11, 9].getD ratio 9

/-- Blocks in a segment (R248). -/
def frbSegment : Nat := 16

/-- The sample of a processed sample word (R246). -/
def frbOfWord (w : Word) : FrbSample := (sx 24 (w.toNat / 256), w.toNat % 256)

/-- The sample of a raw20 word in the form of R201 (R246). -/
def frbOfRaw (w : Word) : FrbSample :=
  let c : BitVec 20 := BitVec.ofNat 20 w.toNat
  let f := b2n (w.getLsbD 20) * 4 + b2n (w.getLsbD 21) * 8
  if isMarker c then (-8388608, markerReason c + f + 16)
  else (rawCode c * 4 ^ (3 - c.toNat / 2 ^ 18), c.toNat / 2 ^ 18 + f)

/-- The raw20 word in the form of R201 that a decoded sample gives (R262). -/
def frbToRaw (merged : Bool) (x : FrbSample) : Word :=
  let r := x.2 % 4
  let ns := if merged then x.1 == -8388608 && bitOf x.2 4 else bitOf x.2 4
  let top := b2n (bitOf x.2 2) * 2 ^ 20 + b2n (bitOf x.2 3) * 2 ^ 21
  if ns then wd (0x20000 + (if merged then 0 else r * 2 ^ 18) + top)
  else wd (tw 18 (clampI (-131071) 131071 (x.1 / 4 ^ (3 - r))) + r * 2 ^ 18 + top)

/-- A processed sample word from a decoded sample (R262). -/
def frbToWord (x : FrbSample) : Word := wd (tw 24 x.1 * 256 + x.2 % 256)

/-! Encoding (R250 to R255). -/

/-- A value reduced to 24-bit two's complement (R252). -/
def wrap24 (x : Int) : Int := sx 24 (tw 24 x)

/-- The residuals of quantised values under a predictor, given the two values before (R252): `i` tells whether
the value in hand is the second of the block. -/
def residuals (p : Nat) : Bool → Int → Int → List Int → List Int
  | _, _, _, [] => []
  | first, q1, q2, q :: r =>
    let pr := if p = 0 then 0 else if p = 1 ∨ first then q1 else wrap24 (2 * q1 - q2)
    wrap24 (q - pr) :: residuals p false q q1 r

/-- Whether a residual fits a width in bits. -/
def fitsWidth (w : Nat) (r : Int) : Bool := decide (-(2 ^ (w - 1) : Nat) ≤ r) && decide (r ≤ (2 ^ (w - 1) : Nat) - 1)

/-- The smallest width that holds every residual (R252). -/
def widthOf (rs : List Int) : Nat :=
  (((List.range 24).map (· + 1)).find? (fun w => rs.all (fitsWidth w))).getD 24

/-- The best predictor at a shift: width, order and residuals (R253). -/
def bestPred (qs : List Int) : Nat × Nat × List Int :=
  let rs (p : Nat) : List Int := residuals p true (qs.headD 0) 0 qs.tail
  let w (p : Nat) : Nat := widthOf (rs p)
  let m := min (w 0) (min (w 1) (w 2))
  let p := if w 0 = m then 0 else if w 1 = m then 1 else 2
  (m, p, rs p)

/-- The merged flag byte of R251. -/
def mergedFlag (raw : Bool) (fs : List Nat) : Nat :=
  let ors := fs.foldl (· ||| ·) 0
  if raw then
    let live := fs.filter (fun f => !bitOf f 4)
    (ors &&& 0x1C) + (if live.isEmpty then 0 else live.foldl (fun m f => min m (f % 4)) 3)
  else (ors &&& 0x1F) + (fs.foldl (fun m f => min m (f / 32)) 7) * 32

/-- The word of a block header's first word (R249). -/
def frbHead (kind k w pred d fm flags : Nat) : Nat :=
  kind + k * 4 + w * 2 ^ 7 + pred * 2 ^ 12 + d * 2 ^ 14 + fm * 2 ^ 18 + flags * 2 ^ 20

/-- A residual string as a number (R250). -/
def packBits (w : Nat) : List Int → Nat
  | [] => 0
  | r :: rs => tw w r + packBits w rs * 2 ^ w

/-- The CRC-16 of a block's original values (R256). -/
def frbCrc (xs : List FrbSample) : Nat := crc16 (xs.flatMap (fun x => leBytes 3 (tw 24 x.1)))

/-- What a block leaves for the blocks after it in its segment (R253, R260): its values and flags, and whether
it is lossless in both. -/
structure FrbPast where
  xs : List FrbSample
  lossless : Bool
  deriving DecidableEq, Repr

/-- An encoded block: its words, K, and whether its flags were merged. -/
structure FrbBlock where
  words : List Word
  k : Nat
  merged : Bool
  deriving DecidableEq, Repr

/-- One block of 64 samples encoded at B words, with the earlier blocks of its segment, newest first (R251,
R253). -/
def frbEncode (b : Nat) (raw : Bool) (past : List FrbPast) (xs : List FrbSample) : FrbBlock × FrbPast :=
  let fs := xs.map (·.2)
  let f0 := fs.headD 0
  let uniform := fs.all (· == f0)
  let fm := if uniform then 0 else if 96 + 512 + 63 ≤ 32 * b then 1 else 2
  let flags := if uniform then f0 else if fm = 1 then 0 else mergedFlag raw fs
  let crc := wd (frbCrc xs)
  let side : List Word := if fm = 1 then bytesWords (fs.map (fun f => BitVec.ofNat 8 f)) else []
  let fill (ws : List Word) : List Word := ws ++ List.replicate (b - ws.length) 0
  match (List.range (min 15 past.length)).find? (fun i =>
      match past[i]? with | some p => p.lossless && p.xs == xs | none => false) with
  | some i => (⟨fill [wd (frbHead 1 0 0 0 (i + 1) 0 0), crc, 0], 0, false⟩, ⟨xs, true⟩)
  | none =>
    let x0 := (xs.headD (0, 0)).1
    if uniform && xs.all (fun x => x.1 == x0) then
      (⟨fill [wd (frbHead 3 0 0 0 0 0 flags), crc, wd (tw 24 x0)], 0, false⟩, ⟨xs, true⟩)
    else
      let s := if fm = 1 then 512 else 0
      let at_ (k : Nat) : List Int := xs.map (fun x => x.1 / 2 ^ k)
      let k := ((List.range 24).find? (fun k => decide (63 * (bestPred (at_ k)).1 + 96 + s ≤ 32 * b))).getD 23
      let bp := bestPred (at_ k)
      let isRaw := decide (k = 0) && decide (bp.1 = 24)
      let rs := if isRaw then residuals 0 true 0 0 (at_ 0).tail else bp.2.2
      let head := if isRaw then frbHead 2 0 24 0 0 fm flags else frbHead 0 k bp.1 bp.2.1 0 fm flags
      let body := numWords (b - 3 - side.length) (packBits bp.1 rs)
      (⟨[wd head, crc, wd (tw 24 ((at_ k).headD 0))] ++ side ++ body, k, fm == 2⟩, ⟨xs, k == 0 && fm != 2⟩)

/-- Samples cut into blocks of 64, the last filled with copies of the last sample (R254). -/
def frbBlocks : Nat → List FrbSample → List (List FrbSample)
  | 0, _ => []
  | n + 1, xs =>
    match xs with
    | [] => []
    | x :: _ =>
      let head := xs.take 64
      (head ++ List.replicate (64 - head.length) (head.getLastD x)) :: frbBlocks n (xs.drop 64)

/-- The blocks of one channel encoded in order, `i` the index of the next (R248, R253). -/
def frbStream (b : Nat) (raw : Bool) : Nat → List FrbPast → List (List FrbSample) → List FrbBlock
  | _, _, [] => []
  | i, past, x :: r =>
    let o := frbEncode b raw (if i % frbSegment = 0 then [] else past) x
    o.1 :: frbStream b raw (i + 1) (o.2 :: (if i % frbSegment = 0 then [] else past)) r

/-- The encoded blocks of one channel's sample words. -/
def frbChannel (b : Nat) (raw : Bool) (ws : List Word) : List FrbBlock :=
  let xs := ws.map (if raw then frbOfRaw else frbOfWord)
  frbStream b raw 0 [] (frbBlocks (cdiv xs.length 64) xs)

/-! Decoding (R259 to R262). -/

/-- What a decoded block gives: its samples, K, MERGED, and whether it was verified (R261). -/
structure FrbDecoded where
  xs : List FrbSample
  k : Nat
  merged : Bool
  verified : Bool
  deriving DecidableEq, Repr

/-- Bits of a list of words as a number. -/
def wordsNum : List Word → Nat
  | [] => 0
  | w :: r => w.toNat + wordsNum r * 2 ^ 32

/-- The quantised values rebuilt from residuals (R259), given the two values before. -/
def rebuild (p : Nat) : Bool → Int → Int → List Int → List Int
  | _, _, _, [] => []
  | first, q1, q2, r :: rs =>
    let pr := if p = 0 then 0 else if p = 1 ∨ first then q1 else wrap24 (2 * q1 - q2)
    let q := wrap24 (pr + r)
    q :: rebuild p false q q1 rs

/-- Whether a block's header or flag bytes break a rule of ERR_ILLEGAL_CODE (R260). -/
def frbIllegal (raw : Bool) (ws : List Word) : Bool :=
  let w0 := (ws.getD 0 0).toNat
  let kind := w0 % 4; let k := w0 / 4 % 32; let w := w0 / 2 ^ 7 % 32; let pred := w0 / 2 ^ 12 % 4
  let d := w0 / 2 ^ 14 % 16; let fm := w0 / 2 ^ 18 % 4; let flags := w0 / 2 ^ 20 % 256
  let side := (wordBytes ((ws.drop 3).take 16))
  decide (23 < k) || (kind == 0 && (w == 0 || decide (24 < w)))
    || (kind == 2 && (w != 24 || k != 0 || pred != 0))
    || ((kind == 1 || kind == 3) && (k != 0 || w != 0 || pred != 0))
    || pred == 3 || (kind != 1 && d != 0) || fm == 3
    || ((fm == 1 || kind == 1) && flags != 0) || (kind == 1 && fm != 0) || (kind == 3 && fm != 0)
    || decide (2 ^ 28 ≤ w0) || decide (2 ^ 16 ≤ (ws.getD 1 0).toNat) || decide (2 ^ 24 ≤ (ws.getD 2 0).toNat)
    || (raw && decide (32 ≤ flags))
    || (raw && fm == 1 && side.any (fun b => decide (32 ≤ b.toNat)))

/-- One block decoded (R259, R260): the error that comes first, or what it holds. `past` holds the earlier
blocks of the segment, newest first. -/
def frbDecode (b : Nat) (raw : Bool) (past : List FrbPast) (ws : List Word) : Nat ⊕ FrbDecoded :=
  let w0 := (ws.getD 0 0).toNat
  let kind := w0 % 4; let k := w0 / 4 % 32; let w := w0 / 2 ^ 7 % 32; let pred := w0 / 2 ^ 12 % 4
  let d := w0 / 2 ^ 14 % 16; let fm := w0 / 2 ^ 18 % 4; let flags := w0 / 2 ^ 20 % 256
  let s := if fm = 1 then 512 else 0
  if frbIllegal raw ws then .inl 1
  else if kind == 1 && (d == 0 || decide (past.length < d) || !((past[d - 1]?.map (·.lossless)).getD false)) then .inl 2
  else if (kind == 0 || kind == 2) && (decide (32 * b < 63 * w + 96 + s)) || (fm == 1 && decide (b < 21)) then .inl 3
  else
    let seed := sx 24 (ws.getD 2 0).toNat
    let body := ws.drop (if fm = 1 then 19 else 3)
    let bits := wordsNum body
    let vals : List Int :=
      if kind == 3 then List.replicate 64 seed
      else
        let rs := (List.range 63).map (fun i => sx w (bits / 2 ^ (i * w)))
        (seed :: rebuild pred true seed 0 rs).map (fun q => wrap24 (q * 2 ^ k))
    let fls : List Nat := if fm = 1 then ((wordBytes ((ws.drop 3).take 16)).map BitVec.toNat) else List.replicate 64 flags
    let xs := if kind == 1 then ((past[d - 1]?.map (·.xs)).getD []) else vals.zip fls
    if k = 0 ∧ fm ≠ 2 then
      if frbCrc xs = (ws.getD 1 0).toNat then .inr ⟨xs, k, false, true⟩ else .inl 4
    else .inr ⟨xs, k, fm == 2, false⟩

end Sys2Proof.Machine
end

