-- ==== Sys2Proof/Machine/Jobs.lean ====
section
/-! DEFINITION. Jobs.lean: compression jobs (R263 to R269): image checks, encoding and decoding of memory images,
window jobs and the window pool, and the reading of raw20 slots for window readout (R201, R265). -/
namespace Sys2Proof.Machine

/-! Slots read back for a window (R106, R201, R238). -/

/-- The raw20 word at a tick of RAW by the substitution journal (R106): a channel without a converter reads its own
slice's slot, which carries FAILED. -/
def State.historySlot (s : State) (ch t : Nat) : BitVec 20 × Nat :=
  let sl := (s.feeder ch t).getD (ownSlice ch)
  (match s.slotOf t with | some k => s.ringWord k sl | none => marker 0, sl)

/-- A slot in the form of R201: SUB and DIP belong to samples, and a marker has neither. -/
def State.slotWord (s : State) (ch t : Nat) : Word :=
  let e := s.historySlot ch t
  wd (e.1.toNat + (if isMarker e.1 then 0 else b2n (e.2 % 25 == 24) * 2 ^ 20 + b2n (s.dipAt t) * 2 ^ 21))

/-- The first slot position of a channel in a window (R238). -/
def State.firstPos (s : State) (w : Window) (ch : Nat) : Nat := cdiv w.first (2 ^ s.srdK ch) * 2 ^ s.srdK ch

/-- The slot positions of a channel in a window's cut span, at spacing 2^SRD_K (R238, R265). -/
def State.positions (s : State) (w : Window) (ch : Nat) : List Nat :=
  let f := s.firstPos w ch
  let sp := 2 ^ s.srdK ch
  (List.range (if w.lastP ≤ f then 0 else cdiv (w.lastP - f) sp)).map (fun i => f + i * sp)

/-- The masked channels of a window, ascending. -/
def Window.chans (w : Window) : List Nat := (List.range 192).filter (fun ch => w.mask.toNat.testBit ch)

/-! Memory of JOB (R217, R257, R264). -/

/-- Bytes of JOB (R217). -/
def State.jobBytes (s : State) : Nat := s.get F.HST_REGIONS_JOB * 2 ^ 28

/-- Bytes of the window pool (R264). -/
def State.poolBytes (s : State) : Nat := s.get F.CMP_WIN_POOL_MIB * 2 ^ 20

/-- Words of JOB from a byte offset. -/
def State.jobWords (s : State) (ofs n : Nat) : List Word := bytesWords (Mem.bytes 0 s.dram (s.jobBase + ofs) (4 * n))

/-- Words written to JOB. -/
def State.jobWrite (s : State) (ofs : Nat) (ws : List Word) : State :=
  { s with dram := Mem.write 0 s.dram (s.jobBase + ofs) (wordBytes ws) }

/-- Free bytes written to JOB: what a failed job leaves behind (R267). -/
def State.jobScramble (s : State) (ofs words : Nat) : State :=
  let d := s.draw
  { d.2 with dram := Mem.write 0 s.dram (s.jobBase + ofs) (freeBytes d.1 (4 * words)) }

/-- Whether a region leaves JOB or touches the pool (R264). -/
def State.rangeBad (s : State) (ofs words : Nat) : Bool :=
  decide (s.jobBytes < ofs + 4 * words) || (decide (0 < words) && decide (ofs < s.poolBytes))

/-- Whether two regions overlap: one of length 0 overlaps none. -/
def regionsMeet (a n b m : Nat) : Bool := decide (0 < n) && decide (0 < m) && decide (a < b + 4 * m) && decide (b < a + 4 * n)

/-! What an operation gives. -/

/-- A block that a job completed: directory position, channel, K, MERGED and the words it gave. -/
structure BlockRun where
  pos : Nat := 0
  ch : Nat := 0
  k : Nat := 0
  merged : Bool := false
  words : Nat := 0
  deriving DecidableEq, Repr

/-- The result of a job that ran: error, the blocks completed in image order, directory position in hand, RESULT, and
the output words it wrote, the first `hdr` of them ahead of the blocks. -/
structure JobRun where
  err : Nat := 0
  done : List BlockRun := []
  failCh : Nat := 0
  result : Nat := 0
  hdr : Nat := 0
  out : List Word := []
  deriving DecidableEq, Repr

/-- The highest K of each channel among blocks. -/
def highestK : List BlockRun → List (Nat × Nat)
  | [] => []
  | b :: r =>
    match highestK r with
    | (c, m) :: t => if c = b.ch then (b.ch, max b.k m) :: t else (b.ch, b.k) :: (c, m) :: t
    | [] => [(b.ch, b.k)]

/-- What a job leaves that stops after `n` of its blocks (R267): their K and MERGED, the output up to there, and the channel then in
hand. -/
def JobRun.stopped (r : JobRun) (err n : Nat) : JobRun :=
  let d := r.done.take n
  { err := err, done := d, hdr := r.hdr, out := r.out.take (r.hdr + (d.map (·.words)).sum)
    failCh := match r.done.drop n with
      | b :: _ => b.pos
      | [] => if r.err = 0 then (match d.getLast? with | some b => b.pos | none => 0) else r.failCh }

/-- The directory of an image: channels and sample counts (R257). -/
def imageDir (ws : List Word) (n : Nat) : List (Word × Nat) :=
  (List.range n).map fun i => (ws.getD (2 + 2 * i) 0, (ws.getD (3 + 2 * i) 0).toNat)

/-- Whether word 0 of an image breaks a rule of R260, for the KIND of image the operation needs. -/
def headIllegal (kind : Nat) (w : Word) : Bool :=
  let v := w.toNat
  let n := v / 256 % 512
  v / 16 % 2 != kind || decide (6 ≤ v % 8) || n == 0 || decide (448 < n) || (v.testBit 3 && decide (192 < n))
    || v / 32 % 8 != 0 || decide (2 ^ 17 ≤ v)

/-- Whether directory entries break a rule of R260, given the channel before. -/
def dirIllegal (raw : Bool) : Option Nat → List (Word × Nat) → Bool
  | _, [] => false
  | prev, (w, _) :: r =>
    let ch := w.toNat
    decide (512 ≤ ch) || (decide (192 ≤ ch) && decide (ch < 256)) || (raw && decide (192 ≤ ch))
      || (match prev with | some p => decide (ch ≤ p) | none => false) || dirIllegal raw (some ch) r

/-- The sample words of each channel of a sample image. -/
def splitSamples : List (Word × Nat) → List Word → List (Nat × List Word)
  | [], _ => []
  | (w, n) :: r, ws => (w.toNat, ws.take n) :: splitSamples r (ws.drop n)

/-- Word 0 of an image (R257). -/
def imageHead (ratio : Nat) (raw : Bool) (kind n : Nat) : Word := wd (ratio + b2n raw * 8 + kind * 16 + n * 256)

/-- The blocks of a job in image order: directory position, channel and block. -/
def encodeAll (b : Nat) (raw : Bool) : Nat → List (Nat × List Word) → List (Nat × Nat × FrbBlock)
  | _, [] => []
  | i, (ch, ws) :: r => (frbChannel b raw ws).map (fun k => (i, ch, k)) ++ encodeAll b raw (i + 1) r

/-- An encoding of channels into an output of `room` words (R259 order, R267): header and directory, then block by
block while they fit. -/
def encodeRun (ratio : Nat) (raw : Bool) (chans : List (Nat × List Word)) (room : Nat) : JobRun :=
  let b := frbWords ratio
  let hdr := 2 + 2 * chans.length
  if room < hdr then { err := 5 }
  else
    let all := encodeAll b raw 0 chans
    let fit := (room - hdr) / b
    let done := all.take fit
    let crc := crc32cWords (chans.flatMap (·.2))
    let dir := chans.flatMap (fun (c : Nat × List Word) => [wd c.1, wd c.2.length])
    let out := [imageHead ratio raw 1 chans.length, wd crc] ++ dir ++ done.flatMap (fun e => e.2.2.words)
    { err := if fit < all.length then 5 else 0
      done := done.map fun e => ⟨e.1, e.2.1, e.2.2.k, e.2.2.merged, b⟩
      failCh := match all.drop fit with | e :: _ => e.1 | [] => 0
      hdr := hdr
      out := out }

/-- ENCODE_MEM on an input image (R263, R264). -/
def encodeMem (ratio : Nat) (ws : List Word) (room : Nat) : JobRun :=
  match ws with
  | [] => { err := 3 }
  | w0 :: _ =>
    if headIllegal 0 w0 then { err := 1 }
    else
      let n := w0.toNat / 256 % 512
      let raw := w0.toNat.testBit 3
      let dir := imageDir ws n
      if ws.length < 2 + 2 * n then { err := 3 }
      else if dirIllegal raw none dir then { err := 1 }
      else if ws.length ≠ 2 + 2 * n + (dir.map (·.2)).sum then { err := 3 }
      else encodeRun ratio raw (splitSamples dir (ws.drop (2 + 2 * n))) room

/-- A decoding in progress: where the output stands, what the segment holds, and the result so far. -/
structure DecState where
  past : List FrbPast := []
  out : List (List Word) := []
  words : Nat := 0
  done : List BlockRun := []
  verified : Bool := true
  err : Nat := 0
  failCh : Nat := 0
  deriving DecidableEq, Repr

/-- One block of a channel decoded (R259): `i` its index, `left` the samples still to come. -/
def decodeBlock (b room : Nat) (raw : Bool) (pos ch i left : Nat) (ws : List Word) (d : DecState) : DecState :=
  if d.err ≠ 0 then d
  else if room < d.words + 64 then { d with err := 5, failCh := pos }
  else
    let past := if i % frbSegment = 0 then [] else d.past
    match frbDecode b raw past ws with
    | .inl e => { d with err := e, failCh := pos }
    | .inr r =>
      let o := (r.xs.take left).map (if raw then frbToRaw r.merged else frbToWord)
      { d with
        past := ⟨r.xs, r.k == 0 && !r.merged⟩ :: past
        out := o :: d.out
        words := d.words + o.length
        done := ⟨pos, ch, r.k, r.merged, o.length⟩ :: d.done
        verified := d.verified && r.verified }

/-- The blocks of one channel decoded in order. -/
def decodeChan (b room : Nat) (raw : Bool) (pos ch n : Nat) (ws : List Word) (d : DecState) : DecState :=
  (List.range (cdiv n 64)).foldl (fun (d : DecState) i => decodeBlock b room raw pos ch i (n - 64 * i) ((ws.drop (i * b)).take b) d) d

/-- The channels of a block image decoded in order. -/
def decodeAll (b room : Nat) (raw : Bool) : Nat → List (Word × Nat) → List Word → DecState → DecState
  | _, [], _, d => d
  | pos, (w, n) :: r, ws, d =>
    decodeAll b room raw (pos + 1) r (ws.drop (cdiv n 64 * b)) (decodeChan b room raw pos w.toNat n ws d)

/-- DECODE on a block image (R259 to R262). -/
def decodeMem (ws : List Word) (room : Nat) : JobRun :=
  match ws with
  | [] => { err := 3 }
  | w0 :: _ =>
    if headIllegal 1 w0 then { err := 1 }
    else
      let n := w0.toNat / 256 % 512
      let raw := w0.toNat.testBit 3
      let b := frbWords (w0.toNat % 8)
      let dir := imageDir ws n
      let hdr := 2 + 2 * n
      let total := (dir.map (fun e => cdiv e.2 64)).sum
      if ws.length < hdr then { err := 3 }
      else if dirIllegal raw none dir then { err := 1 }
      else if (ws.length - hdr) % b ≠ 0 ∨ (ws.length - hdr) / b ≠ total then { err := 3 }
      else if room < hdr then { err := 5 }
      else
        let d := decodeAll b room raw 0 dir (ws.drop hdr) { words := hdr }
        let samples := d.out.reverse.flatten
        let crc := wd (crc32cWords samples)
        let bad := decide (d.err = 0) && d.verified && crc != ws.getD 1 0
        let head := [imageHead 0 raw 0 n, crc] ++ dir.flatMap (fun (e : Word × Nat) => [e.1, wd e.2])
        { err := if bad then 4 else d.err
          done := d.done.reverse, failCh := d.failCh, hdr := hdr
          result := if d.err ≠ 0 ∨ bad then 0 else if d.verified then 1 else 2
          out := head ++ samples }

/-! Jobs. -/

/-- Job `j`. -/
def State.job (s : State) (j : Nat) : Job := s.jobs.val {} j

/-- A job changed. -/
def State.updJob (s : State) (j : Nat) (f : Job → Job) : State := { s with jobs := s.jobs.upd {} j f }

/-- Whether START and writes of job `j`'s registers are refused (R263). -/
def State.jobHeld (s : State) (j : Nat) : Bool :=
  let k := s.job j
  k.state == 1 || k.state == 2 || k.win.isSome

/-- Whether a job waits for an encoder (and not for the decoder). -/
def State.jobEncodes (s : State) (j : Nat) : Bool := (s.job j).win.isSome || s.get (F.CMP_JOBj_CTRL_OP j) == 0

/-- Words of a window job's output (R265). -/
def State.winImageWords (s : State) (w : Window) : Nat :=
  2 + 2 * w.chans.length + frbWords w.ratio * (w.chans.map (fun ch => cdiv (s.positions w ch).length 64)).sum

/-- The extents of the pool that window jobs hold: first byte and byte after, ordered. -/
def State.extents (s : State) : List (Nat × Nat) :=
  (s.jobs.filterMap (fun e => e.2.ext.map (fun x => (x.1, x.1 + x.2)))).foldr insertSpan []

/-- The lowest free extent of `n` bytes among ordered extents, from byte `a` on (R265). -/
def firstFit (n z : Nat) : Nat → List (Nat × Nat) → Option Nat
  | a, [] => if a + n ≤ z then some a else none
  | a, (f, l) :: r => if a + n ≤ f then some a else firstFit n z (max a l) r

/-- Bytes of the largest free extent of the pool (CMP_POOL_FREE). -/
def largestFree (z : Nat) : Nat → List (Nat × Nat) → Nat
  | a, [] => z - a
  | a, (f, l) :: r => max (f - a) (largestFree z (max a l) r)

/-- A window job that waits for pool space takes its extent where one is free (R265), and can start from the tick in
hand (R266). -/
def State.placeJob (s : State) (j : Nat) : State :=
  let k := s.job j
  match k.win with
  | some d =>
    if k.state = 1 ∧ k.ext.isNone then
      let n := 4 * s.winImageWords (s.win d)
      match firstFit n s.poolBytes 0 s.extents with
      | some a => s.updJob j fun k => { k with ext := some (a, n), able := s.tick }
      | none => s
    else s
  | none => s

/-- Two jobs in the order in which they became able to start, then of their number (R266). -/
def jobBefore (s : State) (a b : Nat) : Bool :=
  if (s.job a).able != (s.job b).able then decide ((s.job a).able < (s.job b).able) else decide (a < b)

/-- A number put into a list ordered by `jobBefore`. -/
def insertJob (s : State) (j : Nat) : List Nat → List Nat
  | [] => [j]
  | i :: r => if jobBefore s i j then i :: insertJob s j r else j :: i :: r

/-- The queued jobs in order. -/
def State.queued (s : State) : List Nat :=
  ((s.jobs.filter (fun e => e.2.state == 1)).map (·.1)).foldl (fun l j => insertJob s j l) []

/-- The window jobs that wait take extents in their order. -/
def State.placeJobs (s : State) : State := s.queued.foldl (fun s j => s.placeJob j) s

/-- Window `d` leaves without a readout: released, its STATE shows FAILED, EV_WIN_JOB_FAIL (R239). -/
def State.winJobFail (s : State) (d : Nat) : State :=
  let s1 := (s.releaseWin d s.tick 4).flag F.HST_ALERT_JOB_FAIL
  s1.event Ev.WIN_JOB_FAIL (evSource 7 d) [.h d, .h d]

/-- What every failed job shows (R267): FAILED, its error, COMMIT 0, the alert and one EV_CMP_FAIL. -/
def State.jobFailed (s : State) (j : Nat) (r : JobRun) : State :=
  let s1 := s.updJob j fun k =>
    { k with
      state := 4, err := r.err, blocks := r.done.length, failCh := r.failCh, commit := 0, result := 0, ext := none
      kseen := (r.done.map (·.k)).foldl max k.kseen, merged := r.done.any (·.merged), recs := [] }
  ((s1.countUp F.CMP_STAT_FAILS).flag F.CMP_ALERT_FAIL).event Ev.CMP_FAIL (evSource 8 j) [.h j, .h r.err, .h r.done.length]

/-- A window job of window `d` enters the queue (R265): with a pool too small it fails before its first block. -/
def State.queueWinJob (s : State) (d : Nat) : State :=
  let w := s.win d
  let s1 := s.updJob d fun _ => { state := 1, win := some d, able := s.tick }
  if s.poolBytes < 4 * s.winImageWords w then
    (((s1.jobFailed d { err := 5 }).updJob d fun k => { k with win := none })).winJobFail d
  else s1.placeJobs

/-- A ready FORM 2 window's job (R265): it waits while a job that was started by register holds the descriptor. -/
def State.wantWinJob (s : State) (d : Nat) : State :=
  let k := s.job d
  if k.state = 1 ∨ k.state = 2 then s.updJob d fun k => { k with waiting := true } else s.queueWinJob d

/-- What follows the end of job `j`: a window job that waited for the descriptor enters the queue, but not in HOLD (R267), and others
may find space. -/
def State.afterJob (s : State) (j : Nat) : State :=
  let s1 := if (s.job j).waiting ∧ s.sys.mode ≠ .hold then (s.updJob j fun k => { k with waiting := false }).queueWinJob j else s
  s1.placeJobs

/-- A job fails (R267): the output up to the failing point is unspecified, and a window goes with its job. -/
def State.failJob (s : State) (j : Nat) (r : JobRun) : State :=
  let k := s.job j
  let ofs := match k.ext with | some e => e.1 | none => (s.rd (R.CMP_JOBj_OUT j)).toNat
  let s1 := if r.out.isEmpty then s else s.jobScramble ofs r.out.length
  let s2 := s1.jobFailed j r
  match k.win with
  | some d => ((s2.updJob j fun k => { k with win := none }).winJobFail d).afterJob j
  | none => s2.afterJob j

/-! Running (R266, R267). -/

/-- What job `j` computes. -/
def State.jobRun (s : State) (j : Nat) : JobRun :=
  match (s.job j).win with
  | some d =>
    let w := s.win d
    encodeRun w.ratio true (w.chans.map fun ch => (ch, (s.positions w ch).map (s.slotWord ch))) (s.winImageWords w)
  | none =>
    let ws := s.jobWords (s.rd (R.CMP_JOBj_IN j)).toNat (s.rd (R.CMP_JOBj_IN_LEN j)).toNat
    let room := (s.rd (R.CMP_JOBj_OUT_LEN j)).toNat
    if s.get (F.CMP_JOBj_CTRL_OP j) = 0 then encodeMem (s.get (F.CMP_JOBj_CTRL_RATIO j)) ws room else decodeMem ws room

/-- K above KMAX (R255): the alert, and one EV_CMP_KMAX per job and channel. -/
def State.warnK (s : State) (j : Nat) (ks : List (Nat × Nat)) : State :=
  (ks.filter (fun e => decide (s.get F.CMP_CTRL_KMAX < e.2))).foldl (fun (s : State) e =>
    (s.flag F.CMP_ALERT_KMAX).event Ev.CMP_KMAX (evSource 8 j) [.h j, .h e.1, .h e.2]) s

/-- The REC_FRB records of one channel (R206, R265): a record per segment, `i` the index of its first block. -/
def State.frbSegments (s : State) (w : Window) (j ch b : Nat) (blocks : List (List Word)) : List (Option Word → List Word) :=
  let sp := 2 ^ s.srdK ch
  (List.range (cdiv blocks.length frbSegment)).map fun g =>
    recFrb w.ratio true j (s.chanWord ch 0) (s.firstPos w ch + 64 * (frbSegment * g) * sp) (frbSegment * g) sp
      ((blocks.drop (frbSegment * g)).take frbSegment |>.map (fun k => k.take b))

/-- The records of a finished window job (R265): channels and blocks ascending, the last FINAL with the CRC. -/
def State.frbRecords (s : State) (j : Nat) (w : Window) (r : JobRun) : List (List Word) :=
  let b := frbWords w.ratio
  let body := r.out.drop (2 + 2 * w.chans.length)
  let cut := w.chans.foldl (fun (a : List Word × List (Option Word → List Word)) ch =>
    let n := cdiv (s.positions w ch).length 64
    let blocks := (List.range n).map (fun i => (a.1.drop (i * b)).take b)
    (a.1.drop (n * b), a.2 ++ s.frbSegments w j ch b blocks)) (body, [])
  let last := cut.2.length - 1
  cut.2.mapIdx (fun i f => f (if i = last then some (r.out.getD 1 0) else none))

/-- A job completes (R267): its output is written and committed. -/
def State.finishJob (s : State) (j : Nat) (r : JobRun) : State :=
  let k := s.job j
  let ofs := match k.ext with | some e => e.1 | none => (s.rd (R.CMP_JOBj_OUT j)).toNat
  let recs := match k.win with | some d => s.frbRecords j (s.win d) r | none => []
  ((s.jobWrite ofs r.out).updJob j fun k =>
    { k with
      state := 3, err := 0, result := r.result, blocks := r.done.length, commit := r.out.length, failCh := 0
      kseen := (r.done.map (·.k)).foldl max 0, merged := r.done.any (·.merged), recs := recs }).afterJob j

/-- CMP_JOBj_CTRL.START (R263, R264): refused while the job is held; ERR_RANGE at once for a region outside. Regions
that overlap are case 5 of R434. -/
def State.jobStart (s : State) (j : Nat) : State :=
  if s.jobHeld j then s.flag F.CMP_ALERT_WR_REFUSED
  else
    let i := (s.rd (R.CMP_JOBj_IN j)).toNat; let n := (s.rd (R.CMP_JOBj_IN_LEN j)).toNat
    let o := (s.rd (R.CMP_JOBj_OUT j)).toNat; let m := (s.rd (R.CMP_JOBj_OUT_LEN j)).toNat
    let s1 := s.updJob j fun _ => { state := 1, able := s.tick }
    if s.rangeBad i n || s.rangeBad o m then s1.jobFailed j { err := 8 }
    else if regionsMeet i n o m then s1.unchecked 5
    else s1

/-- A running job stopped from outside after a number of blocks that the spec leaves open (R267). An encoder has counted the K of the
blocks it wrote (R255). -/
def State.stopJob (s : State) (j err : Nat) : State :=
  let k := s.job j
  if k.state = 2 then
    let r := s.jobRun j
    let d := s.draw
    let q := r.stopped err (Config.freeNat d.1 % (r.done.length + 1))
    (if s.jobEncodes j then d.2.warnK j (highestK q.done) else d.2).failJob j q
  else s.failJob j { err := err }

/-- CMP_JOBj_CTRL.ABORT (R267): ends a queued or running job of the register's own; ignored on others but for a
window's, where it is refused. -/
def State.jobAbort (s : State) (j : Nat) : State :=
  let k := s.job j
  if k.win.isSome then s.flag F.CMP_ALERT_WR_REFUSED
  else if k.state = 1 ∨ k.state = 2 then s.stopJob j 7
  else s

/-- A job unit that is free: an encoder, or the decoder, unit 2 (R266). -/
def State.freeUnit (s : State) (encodes : Bool) : Option Nat :=
  (if encodes then [0, 1] else [2]).find? (fun u => !s.jobs.any (fun e => e.2.state == 2 && e.2.unit == u))

/-- Whether a job can start: a window job has its extent (R266). -/
def Job.canStart (k : Job) : Bool := k.state == 1 && (k.win.isNone || k.ext.isSome)

/-- CMP_JOB_START (R263). -/
def execCmpJobStart (j : Nat) (s : State) : Host.Outcome State Fault Refusal :=
  if j < 256 ∧ s.liveMode then (s.jobStart j).finish else .next s

/-- CMP_JOB_ABORT (R267). -/
def execCmpJobAbort (j : Nat) (s : State) : Host.Outcome State Fault Refusal := .next (if j < 256 ∧ s.liveMode then s.jobAbort j else s)

/-- CMP_JOB_RUN (R266): the job starts when it is the first of its kind in order and a unit is free. -/
def execCmpJobRun (j : Nat) (s : State) : Host.Outcome State Fault Refusal :=
  let enc := s.jobEncodes j
  let first := s.queued.find? (fun i => (s.job i).canStart && s.jobEncodes i == enc)
  match first, s.freeUnit enc with
  | some i, some u => if i = j then .next (s.updJob j fun k => { k with state := 2, unit := u }) else .next s
  | _, _ => .next s

/-- CMP_JOB_END (R267): a running job completes, or fails at its first error. -/
def execCmpJobEnd (j : Nat) (s : State) : Host.Outcome State Fault Refusal :=
  if (s.job j).state = 2 then
    let r := s.jobRun j
    let s1 := s.warnK j (if s.jobEncodes j then highestK r.done else [])
    .next (if r.err = 0 then s1.finishJob j r else s1.failJob j r)
  else .next s

/-- The engine is at fault in job `j` (R8, R267): a running one fails with ERR_PARITY. -/
def State.jobParity (s : State) (j : Nat) : State := if (s.job j).state = 2 then (s.stopJob j 6).flag F.CMP_ALERT_PARITY else s

/-- CMP_PARITY_ERROR (R267). -/
def execCmpParityError (j : Nat) (s : State) : Host.Outcome State Fault Refusal := .next (s.jobParity j)

end Sys2Proof.Machine
end

