-- ==== Sys2Proof/Machine/Readout.lean ====
section
/-! DEFINITION. Readout.lean: capture windows from ready to released (R237 to R239): readout in the order of R215,
FORM 0, 1 and 2, cancelling, and what HOLD and a reset leave of them. -/
namespace Sys2Proof.Machine

/-- A word of FORM 1 at a tick of RAW (R238): the raw-normalised sample word, none for a slot with no sample. -/
def State.sampleWord (s : State) (ch t : Nat) : Option Word :=
  let e := s.historySlot ch t
  (s.normSample ch e.2 t e.1).map fun x => ({ x := x.x, r := x.r, ovr := x.ovr, dip := x.dip, sub := x.sub } : OSample).word

/-- A word of a window's data at a position. -/
def State.dataWord (s : State) (w : Window) (ch t : Nat) : Option Word :=
  if w.form = 0 then some (s.slotWord ch t) else s.sampleWord ch t

/-- The words from the head of a list of positions up to the first with none. -/
def runWords (f : Nat → Option Word) : List Nat → List Word
  | [] => []
  | t :: r => match f t with
    | some w => w :: runWords f r
    | none => []

/-- The data record that begins at tick `t` on a channel, where one does (R201, R238): the first of a run of samples of
one epoch. -/
def State.dataRecord (s : State) (w : Window) (ch t : Nat) : Option (List Word) :=
  let sp := 2 ^ s.srdK ch
  let begins := decide (t < w.first + sp) || decide ((t - sp) / Config.epoch ≠ t / Config.epoch) || (s.dataWord w ch (t - sp)).isNone
  if t % sp = 0 ∧ begins ∧ (s.dataWord w ch t).isSome then
    let rest := (List.range Config.epoch).map (fun i => t + i * sp)
    let mine := rest.filter (fun u => decide (u / Config.epoch = t / Config.epoch) && decide (u < w.lastP))
    some (recFast (s.atSrcAt t) (w.form == 0) (s.chanWord ch 0) t sp (runWords (s.dataWord w ch) mine))
  else none

/-- The data records of a FORM 0 or FORM 1 window in ascending first tag and channel (R215). -/
def State.dataRecords (s : State) (w : Window) : List (List Word) :=
  (List.range (w.lastP - w.first)).flatMap fun i => w.chans.filterMap fun ch => s.dataRecord w ch (w.first + i)

/-- What heads the readout of window `d` (R205, R238): REC_WINDOW, and REC_GAP LATE over the ticks that had left RAW. -/
def State.windowHead (s : State) (d : Nat) : List (List Word) :=
  let w := s.win d
  [recWindow d w w.lastCut d] ++
    (if w.late then [recGap Gap.LATE false true 0 w.reqF (some (min (w.first - 1) w.reqL)) [wd (d % 256)]] else [])

/-- The window that is next on its stream in the order of R215: none may precede it that is cut and not read out. -/
def State.nextOnStream (s : State) (d : Nat) : Bool :=
  let w := s.win d
  !s.hist.wins.any (fun e =>
    e.1 != d && e.2.stream == w.stream && decide (1 ≤ e.2.state) && decide (e.2.state ≤ 3) && e.2.written.isNone
      && (decide (e.2.cut < w.cut) || (e.2.cut == w.cut && decide (e.1 < d))))

/-- The records of a window put on its stream; with that stream not READOUT they are discarded and NO_STREAM is set
(R278). -/
def State.sendWindow (s : State) (d : Nat) (recs : List (List Word)) : State :=
  let w := s.win d
  let s1 := s.updWin d fun w => { w with state := 3, ready := false }
  if s.streamReadout w.stream then (s1.queueReadout w.stream w.cut d recs).pumpReadout w.stream
  else (s1.updWin d fun w => { w with written := some s.tick }).flag F.NSP_ALERT_NO_STREAM

/-- Reads of borrowed slots that are to be answered in this order. -/
def State.expectReads (s : State) (l : List (Nat × Nat)) : State := { s with stk := { s.stk with rdq := s.stk.rdq ++ l } }

/-- Reads of borrowed slots travel as P3 (R319): the first time, the slots that hold the window's ticks are asked for, in order. -/
def State.askBorrowed (s : State) (d : Nat) : State :=
  let w := s.win d
  let x := s.borrowPort
  let slots := (s.hist.ring.filter (fun e => s.slotBorrowed e.1 && decide (w.first ≤ e.2) && decide (e.2 < w.lastP))).reverse.map (·.1)
  let s1 := slots.foldl (fun (s : State) i => s.stkSend x { seq := i } { kind := 2, cls := kindClass 2, dest := if x = 0 then s.sys.pos - 1 else s.sys.pos + 1 } []) s
  (s1.updWin d fun w => { w with asked := true }).expectReads (slots.map fun i => (d, i))

/-- Whether a window waits for borrowed slots (R319). -/
def State.readsWait (s : State) (d : Nat) : Bool := s.stk.rdq.any (fun e => e.1 == d)

/-- WINDOW_READOUT (R238, R319): the ticks of a ready window that lie in borrowed slots are read first. A ready FORM 2 window queues its job; a window whose turn it is goes to its stream. In HOLD
no new window job starts (R268 table). -/
def execWindowReadout (d : Nat) (s0 : State) : Host.Outcome State Fault Refusal :=
  let s := if (s0.win d).ready ∧ (s0.win d).state = 2 ∧ ¬ (s0.win d).asked ∧ s0.stk.poolOn ∧ s0.live then s0.askBorrowed d else s0
  let w := s.win d
  if ¬ w.ready ∨ s.sys.mode = .load ∨ s.sys.mode = .dormant ∨ s.readsWait d then .next s
  else if w.form = 2 then
    let k := s.job d
    if w.state = 2 then
      if s.sys.mode = .hold then .next s
      else .next ((s.updWin d fun w => { w with state := 3 }).wantWinJob d)
    else if k.win = some d ∧ k.state = 3 ∧ s.nextOnStream d then .next (s.sendWindow d (s.windowHead d ++ k.recs))
    else .next s
  else if w.state = 2 ∧ s.nextOnStream d then .next (s.sendWindow d (s.windowHead d ++ s.dataRecords w))
  else .next s

/-- WINDOW_READ (R237): HST_WINd_CTRL.READ. -/
def execWindowRead (d : Nat) (s : State) : Host.Outcome State Fault Refusal := .next (if s.liveMode then s.readWindow d else s)

/-- What a window's release does to its job (R265): the extent is free, and the descriptor is the register's again. -/
def State.freeWinJob (s : State) (d : Nat) : State :=
  if (s.job d).win = some d then (s.updJob d fun k => { k with win := none, ext := none, recs := [] }).placeJobs
  else s.updJob d fun k => { k with waiting := false }

/-- HST_WINd_CTRL.CANCEL (R239): the window goes in whatever state, without records; a job that has not ended fails
with ERR_ABORTED (R267). Its pins go from the next tick on. What the stream holds already stays. -/
def State.cancelWindow (s : State) (d : Nat) : State :=
  let w := s.win d
  if w.state = 0 ∨ w.state = 4 then s
  else
    let k := s.job d
    let s1 := s.updStream w.stream fun st => { st with placed := st.placed.filter (fun p => !(p.key.rank == d && p.key.pos == s.sys.pos && p.key.place == w.cut && s.streamReadout w.stream)) }
    let s2 := s1.updWin d fun w => { w with keepTo := s.tick + 1 }
    if k.win = some d ∧ (k.state = 1 ∨ k.state = 2) then s2.stopJob d 7
    else (s2.freeWinJob d).releaseWin d s.tick 0

/-- WINDOW_CANCEL (R239). -/
def execWindowCancel (d : Nat) (s : State) : Host.Outcome State Fault Refusal := .next (if s.liveMode then s.cancelWindow d else s)

/-- WINDOW_RELEASE (R239): in the tick after its last record reached STREAM the window, its pins, its descriptor and its
pool extent are free. -/
def execWindowRelease (d : Nat) (s : State) : Host.Outcome State Fault Refusal :=
  let w := s.win d
  match w.written with
  | some t => if w.state = 3 ∧ t < s.tick then .next ((s.freeWinJob d).releaseWin d s.tick 0) else .next s
  | none => .next s

/-- RAW freezes (R236, R349): the open windows close with what they have. -/
def State.freezeWindows (s : State) : State :=
  (s.hist.wins.filter (fun e => e.2.state == 1)).foldl (fun (s : State) e =>
    if e.2.reqL < e.2.lastP then s.updWin e.1 fun w => { w with state := 2, ready := w.readReq || !w.request }
    else s.clampWin e.1) s

end Sys2Proof.Machine
end

