-- ==== Sys2Proof/Machine/Interlock.lean ====
section
/-! DEFINITION. Interlock.lean: the backup trip units and the interlock output stage (R111 to R120). -/
namespace Sys2Proof.Machine

/-! Votes and pins (R115). -/

/-- The core votes that reach the pins: frozen in a bump, held in HOLD or with no core (R339, R346). -/
def State.coreVotes (s : State) : BitVec 16 := s.red.heldVotes.getD s.core.votes

/-- Whether backup trip unit `p` permits. -/
def State.backupVote (s : State) (p : Nat) : Bool := !(s.fe.btu.val {} p).tripped

/-- The backup votes of all units, 1 permit. -/
def State.backupVotes (s : State) : BitVec 16 :=
  BitVec.ofNat 16 (((List.range 16).map fun p => if s.backupVote p then 2 ^ p else 0).sum)

/-- The levels driven at ILK0 to ILK15, 1 permit (R11, R115): low in LOAD, DORMANT and TRIM and while PORST_N
is asserted, otherwise enable, core vote and backup vote, with the pins taken out low (R119). -/
def State.ilkPins (s : State) : BitVec 16 :=
  if s.sys.porst then 0 else
  match s.sys.mode with
  | .load | .dormant | .trim => 0
  | .run | .limp | .hold =>
    BitVec.ofNat 16 (s.get F.AFF_ILK_EN_EN) &&& s.coreVotes &&& s.backupVotes &&& ~~~s.part.ilkOut

/-- A backup trip unit changed. -/
def State.updBtu (s : State) (p : Nat) (f : BtuSt → BtuSt) : State :=
  { s with fe := { s.fe with btu := s.fe.btu.upd {} p f } }

/-- EV_ILK_TRIP (R120, R121). -/
def State.noteTrip (s : State) (p votes source sample : Nat) : State :=
  (s.flag F.AFF_ALERT_ILK_TRIP).event Ev.ILK_TRIP (evSource 2 p) [.h p, .h votes, .h source, .t sample]

/-! Backup trip units (R112, R113). -/

/-- Source `k` of unit `p`. -/
def State.btuSource (s : State) (p k : Nat) : Nat := (s.rd (R.AFF_BTUp_SRC p)).toNat / 2 ^ (8 * k) % 256

/-- One source of a unit judged on the samples of a tick (R112): none where the tick is not evaluated for it,
otherwise the cause of the violation, if it violates: 0 HI, 1 LO, 2 OVR, 3 FAILED. -/
def State.btuJudge (s : State) (p k : Nat) (d : Delivered) : Option (Option Nat) :=
  let ch := s.btuSource p k
  if 192 ≤ ch ∨ d.failed.contains ch then
    if s.on (F.AFF_BTUp_CFG_FAILSAFE p) then some (some 3) else none
  else match d.samples.find? (fun e => e.1 == ch) with
    | none => none
    | some (_, x) =>
      if s.getI (F.AFF_BTUp_HI_VALUE p) < x.x then some (some 0)
      else if x.x < s.getI (F.AFF_BTUp_LO_VALUE p) then some (some 1)
      else if x.ovr && s.on (F.AFF_BTUp_CFG_OVR_TRIP p) then some (some 2)
      else some none

/-- A unit evaluated on the samples of a tick (R112, R113, BTU_TRIP). Where several sources reach PERSIST in one tick the lowest is recorded, and a
sample that meets several limits records HI before LO before OVR: the spec gives no order (log 60). -/
def State.btuEval (s : State) (d : Delivered) (p : Nat) : State :=
  if ¬ s.on (F.AFF_BTUp_CFG_EN p) then s else
  let u := s.fe.btu.val {} p
  let n := s.get (F.AFF_BTUp_CFG_NSRC p) + 1
  let persist := s.get (F.AFF_BTUp_CFG_PERSIST p) + 1
  let js := (List.range n).map (fun k => s.btuJudge p k d)
  let viol := (List.range 4).map fun k =>
    match js.getD k none with
    | none => u.viol.getD k 0
    | some none => 0
    | some (some _) => min 4 (u.viol.getD k 0 + 1)
  let anyViol := js.any (fun j => match j with | some (some _) => true | _ => false)
  let anyEval := js.any Option.isSome
  let hit := (List.range n).find? fun k =>
    (match js.getD k none with | some (some _) => true | _ => false) && decide (persist ≤ viol.getD k 0)
  let count := if anyViol then 0 else if anyEval then min 64 (u.count + 1) else u.count
  let s1 := s.updBtu p fun u => { u with viol := viol, count := count, evalTick := some d.tick, violNow := anyViol }
  match hit with
  | some k =>
    if u.tripped then s1
    else
      let cause := match js.getD k none with | some (some c) => c | _ => 0
      let s2 := s1.updBtu p fun u => { u with tripped := true, tripAt := some s.tick }
      let s3 := (((s2.put (F.AFF_BTUp_STAT_CAUSE p) cause).put (F.AFF_BTUp_STAT_SRC p) k).put
        (F.AFF_BTUp_STAT_TRIPPED p) 1).countUp (F.AFF_BTUp_STAT_TRIPS p)
      s3.noteTrip p 2 (s.btuSource p k) d.tick
  | none => s1

/-- BTU_EVALUATE (R112): each enabled unit compares the samples delivered and not yet evaluated. -/
def execBtuEvaluate (s : State) : Host.Outcome State Fault Refusal :=
  match s.fe.dlv with
  | none => .next s
  | some d =>
    .next ((List.range 16).foldl (fun s p =>
      if (s.fe.btu.val {} p).evalTick = some d.tick then s else s.btuEval d p) s)

/-- A unit back at permit. -/
def State.btuPermit (s : State) (p : Nat) : State :=
  (s.updBtu p fun u => { u with tripped := false, viol := [0, 0, 0, 0], count := 0 }).put (F.AFF_BTUp_STAT_TRIPPED p) 0

/-- BTU_AUTO_PERMIT (R113): a unit with LATCH 0 returns to permit after 64 consecutive counted ticks. -/
def execBtuAutoPermit (p : Nat) (s : State) : Host.Outcome State Fault Refusal :=
  let u := s.fe.btu.val {} p
  if u.tripped ∧ s.on (F.AFF_BTUp_CFG_EN p) ∧ ¬ s.on (F.AFF_BTUp_CFG_LATCH p) ∧ 64 ≤ u.count then
    .next ((s.updBtu p fun u => { u with tripped := false, count := 0 }).put (F.AFF_BTUp_STAT_TRIPPED p) 0)
  else .next s

/-! Core votes (R116, R117). -/

/-- A change of the core votes. -/
def State.setVotes (s : State) (v : BitVec 16) : State := { s with core := { s.core with votes := v } }

/-- EV_ILK_TRIP for a core vote that drops in tick `t`: where the unit's backup vote dropped in the same tick,
one record carries both votes and keeps the backup's source and sample (R120). -/
def State.noteCoreTrip (s : State) (p q t sample : Nat) : State :=
  if (s.fe.btu.val {} p).tripAt = some t then
    let amend (r : LogRec) : LogRec :=
      if r.code = Ev.ILK_TRIP ∧ r.source = evSource 2 p then { r with data := r.data.set 2 3 } else r
    match s.log.staged.findIdx? (fun r => r.code == Ev.ILK_TRIP && r.source == evSource 2 p) with
    | some i => { s with log := { s.log with staged := s.log.staged.modify i amend } }
    | none => s
  else s.noteTrip p 1 (0x8000 + q) sample

/-- The core votes of the pins that name trigger source `q` drop (R116); a vote already at trip stays. -/
def State.coreDrop (s : State) (q t sample : Nat) : State :=
  (List.range 16).foldl (fun s p =>
    if bitOf (s.get (F.AFF_ILKp_TSRC_MASK p)) q && s.core.votes.getLsbD p then
      (s.setVotes (s.core.votes &&& ~~~(BitVec.ofNat 16 (2 ^ p)))).noteCoreTrip p q t sample
    else s) s

/-- Every core and backup vote is set to trip on entry to RUN or LIMP from TRIM, and each trip is logged (R117, R120). A unit with EN clear is
set to trip with the others and stays there until a re-arm; AFF_BTUp_STAT.TRIPS counts the trips of its sources, not this one (log 51). -/
def State.tripAll (s : State) : State :=
  let s1 := { (s.setVotes 0) with red := { s.red with heldVotes := s.red.heldVotes.map fun _ => 0 } }
  let s2 := (List.range 16).foldl (fun s p =>
    ((s.updBtu p fun u => { u with tripped := true, viol := [0, 0, 0, 0], count := 0 }).put (F.AFF_BTUp_STAT_CAUSE p) 4).put
      (F.AFF_BTUp_STAT_TRIPPED p) 1) s1
  (List.range 16).foldl (fun s p => s.noteTrip p 3 0xFFFF s.tick) s2

/-! Re-arm (R118). -/

/-- The conditions a trigger source names (R228). -/
def State.srcConds (s : State) (q : Nat) : List Nat :=
  let w0 := (s.rd (R.TRG_SRCq_CND0 q)).toNat
  let w1 := (s.rd (R.TRG_SRCq_CND1 q)).toNat
  (List.range (s.get (F.TRG_SRCq_CTRL_NCND q) + 1)).map fun i =>
    (if i < 4 then w0 / 2 ^ (8 * i) else w1 / 2 ^ (8 * (i - 4))) % 64

/-- Whether a channel's enable is in effect (R186, R148). -/
def State.chanOn (s : State) (ch : Nat) : Bool :=
  if ch < 192 then (s.core.fast.val {} ch).on else (s.slow.en.val {} ch).eff

/-- Whether condition `c` watches the outputs of a channel that is disabled: it is then never true (R225). -/
def State.condDead (s : State) (c : Nat) : Bool :=
  s.on (F.TRG_CNDc_CFG_SRC c) && !(s.chanOn (s.get (F.TRG_CNDc_CFG_CH c)))

/-- Whether a condition is true now: a state condition in state true, or an event condition with its event
(R225, R227). -/
def State.condTrue (s : State) (c : Nat) : Bool :=
  let k := s.core.conds.val {} c
  (k.state && !(s.condDead c)) || k.evStamp.isSome

/-- Whether the core side of a re-arm of pin `p` is clear: no condition of any source named in AFF_ILKp_TSRC
is true (R118). -/
def State.coreClear (s : State) (p : Nat) : Bool :=
  (List.range 16).all fun q =>
    !(bitOf (s.get (F.AFF_ILKp_TSRC_MASK p)) q) || (s.srcConds q).all (fun c => !(s.condTrue c))

/-- Whether the backup side is clear: no source of the unit violates. -/
def State.backupClear (s : State) (p : Nat) : Bool :=
  !(s.on (F.AFF_BTUp_CFG_EN p) && (s.fe.btu.val {} p).violNow)

/-- The pins of a mask that pass a test. -/
def maskWhere (pins : BitVec 16) (f : Nat → Bool) : BitVec 16 :=
  BitVec.ofNat 16 (((List.range 16).map fun p => if pins.getLsbD p && f p then 2 ^ p else 0).sum)

/-- Re-arms refused (R118). -/
def State.rearmRefused (s : State) (pins : BitVec 16) : State :=
  if pins = 0 then s
  else (s.flag F.AFF_ALERT_REARM_REFUSED).event Ev.ILK_REARM (evSource 2 0) [.h pins.toNat, .h 1]

/-- Re-arms that succeed (R118): both votes return to permit, the counts of R112 and R113 to 0. -/
def State.rearmDone (s : State) (pins : BitVec 16) : State :=
  if pins = 0 then s
  else
    let s1 := (List.range 16).foldl (fun s p => if pins.getLsbD p then s.btuPermit p else s)
      (s.setVotes (s.core.votes ||| pins))
    s1.event Ev.ILK_REARM (evSource 2 0) [.h pins.toNat, .h 0]

/-- Whether a journaled command arms or disarms a source, which carries over a trim (R461). -/
def CoreCmd.arms : CoreCmd → Bool
  | .srcArm _ | .srcDisarm _ => true
  | _ => false

/-- A command that the cores act on enters the command journal (R342). -/
def State.journalCmd (s : State) (t : Nat) (c : CoreCmd) : State :=
  { s with red := { s.red with journal := s.red.journal ++ [(t, c)] } }

/-- Whether a journaled command is one that was written or sent to the hub; what the hardware reports is replayed with them but takes no
entry of the journal (R342). -/
def CoreCmd.written : CoreCmd → Bool
  | .slowRestart _ enable => enable
  | .sync source => source < 2 || source == 18
  | .takeover _ | .tcmp _ _ | .edge _ _ _ | .bus _ _ => false
  | _ => true

/-- The fast channels whose enable waits for a unit (R186). -/
def State.acqWaiting (s : State) : Nat :=
  s.regs.countP fun e => decide (0x100000 ≤ e.1) && decide (e.1 < 0x160000) && e.1 % 0x800 == 0 && e.2.toNat.testBit 21

/-- Journal entries in use (RED_JOURNAL.USED, R342): commands and writes from their acceptance until the newest committed boundary
has passed the tick in which they took effect. -/
def State.journalUsed (s : State) : Nat :=
  s.red.journal.countP (fun e => e.2.written) + s.sys.fastPend.length + s.acqWaiting + s.slow.en.countP (fun e => e.2.pend == some !e.2.eff)
    + s.hist.syncs.countP (fun e => CoreCmd.written (.sync e.2)) + s.hist.held.length + s.net.timed.length

/-- Whether the command journal takes no further entry (R342). -/
def State.journalFull (s : State) : Bool := s.liveMode && decide (1024 ≤ s.journalUsed)

/-- A write or command refused because the journal is full (R342); `f` is the WR_REFUSED bit of its block. -/
def State.journalRefuse (s : State) (f : Fld) : State :=
  ((s.countUp F.RED_JOURNAL_REFUSED).flag F.RED_ALERT_JOURNAL_FULL).flag f

/-- A re-arm judged in the tick in hand (R118). With no core in the active role it is refused. In a bump an
untimed one is refused, and the core side of a timed one is judged by the replaying core at that tick. -/
def State.rearm (s : State) (pins : BitVec 16) (timed : Bool) : State :=
  if s.sys.mode = .hold ∨ s.red.active = none ∧ s.red.bump = none then s.rearmRefused pins
  else if s.red.bump.isSome then
    if timed then
      let ok := maskWhere pins s.backupClear
      ((s.rearmRefused (pins &&& ~~~ok)).journalCmd s.tick (.rearmTest ok))
    else s.rearmRefused pins
  else
    let ok := maskWhere pins (fun p => s.backupClear p && s.coreClear p)
    ((s.rearmDone ok).rearmRefused (pins &&& ~~~ok)).journalCmd s.tick (.rearm ok)

/-- ILK_REARM (R118): the re-arm of the pins is judged in this tick, and their REARM bits return to 0. In TRIM
the pins are low whatever the votes, and re-arming is judged alike; LOAD and DORMANT take none (R429). -/
def execIlkRearm (pins : BitVec 16) (s : State) : Host.Outcome State Fault Refusal :=
  if ¬ s.live then .next s
  else if s.journalFull then .next (s.journalRefuse F.AFF_ALERT_WR_REFUSED)
  else .next ((s.rearm pins false).put F.AFF_ILK_CTRL_REARM (s.get F.AFF_ILK_CTRL_REARM &&& (~~~pins).toNat))

/-- ILK_READBACK_FAIL (R119): a pin read back wrong in 2 consecutive ticks is driven low for good. -/
def execIlkReadbackFail (pin : Nat) (s : State) : Host.Outcome State Fault Refusal :=
  if 16 ≤ pin ∨ s.part.ilkOut.getLsbD pin ∨ s.sys.porst then .next s
  else
    let level := 1 - b2n (s.ilkPins.getLsbD pin)
    let s1 := { s with part := { s.part with ilkOut := s.part.ilkOut ||| BitVec.ofNat 16 (2 ^ pin) } }
    .next (((s1.flag F.AFF_ALERT_ILK_READBACK).event Ev.ILK_READBACK (evSource 2 pin) [.h pin, .h level]).raiseLimp 11)

end Sys2Proof.Machine
end

