-- ==== Sys2Proof/Machine/Filter.lean ====
section
/-! DEFINITION. Filter.lean: the fast filter and decimation chain (R170 to R188): its stages as plain
integer functions, its grid, and what one input tick does to one channel. -/
namespace Sys2Proof.Machine

/-! Configuration (R171, R174, R178, R179, R184). -/

/-- W (R172). -/
def State.fltW (s : State) (ch : Nat) : Nat := s.get (F.CH_FLT_CFG_W ch)
/-- N (R174). -/
def State.fltN (s : State) (ch : Nat) : Nat := s.get (F.CH_FLT_CFG_N ch)
/-- D_cic (R174). -/
def State.fltD (s : State) (ch : Nat) : Nat := s.get (F.CH_FLT_DCIC_D ch)
/-- L (R175). -/
def State.fltL (s : State) (ch : Nat) : Nat := s.get (F.CH_FLT_CFG_L ch)
/-- D_fir (R175). -/
def State.fltDfir (s : State) (ch : Nat) : Nat := s.get (F.CH_FLT_CFG_DFIR ch) + 1
/-- SKEW_EN (R171). -/
def State.fltSkew (s : State) (ch : Nat) : Bool := s.on (F.CH_FLT_CFG_SKEW_EN ch)

/-- The CIC shift S: the smallest integer with 2^S no less than D_cic^N (R174). -/
def cicShift (n d : Nat) : Nat := if d ^ n ≤ 1 then 0 else Nat.log2 (d ^ n - 1) + 1

/-- P, the output period (R171, R178). -/
def State.fltP (s : State) (ch : Nat) : Nat := 2 ^ s.srdK ch * s.fltD ch * s.fltDfir ch

/-- Ticks between two CIC outputs (R179). -/
def State.fltPcic (s : State) (ch : Nat) : Nat := 2 ^ s.srdK ch * s.fltD ch

/-- 2G in ticks (R179). -/
def State.fltGd2 (s : State) (ch : Nat) : Nat :=
  let n := s.fltN ch; let d := s.fltD ch
  2 ^ s.srdK ch * ((s.fltW ch - 1) + n * (d - 1) + d * (s.fltL ch - 1)) + 8 * b2n (s.fltSkew ch)

/-- G_r: the smallest multiple of 2^k ticks no less than G (R179). -/
def State.fltGr (s : State) (ch : Nat) : Nat := cdiv (s.fltGd2 ch) (2 * 2 ^ s.srdK ch) * 2 ^ s.srdK ch

/-- δ in half ticks (R179). -/
def State.fltDelta2 (s : State) (ch : Nat) : Nat := 2 * s.fltGr ch - s.fltGd2 ch

/-- SUBTICK of every tag of the channel (R179), with the offset of a multiplied bank (R322). -/
def State.fltSub (s : State) (ch : Nat) : Nat := (s.fltDelta2 ch % 2 * 32768 + s.mulOffset ch * 65536 / 500) % 65536

/-- S_sup − 1 (R181). -/
def State.fltSpan (s : State) (ch : Nat) : Nat :=
  let n := s.fltN ch; let d := s.fltD ch
  2 ^ s.srdK ch * ((s.fltW ch - 1) + n * (d - 1) + (s.fltL ch - 1) * d) + 7 * b2n (s.fltSkew ch)

/-- U, the outputs that carry UNSET after a restart (R184). -/
def State.fltU (s : State) (ch : Nat) : Nat :=
  cdiv (s.fltSpan ch) (s.fltP ch)
    + (if s.get (F.CH_FLT_CFG_NNOTCH ch) = 0 then 0 else s.get (F.CH_FLT_NSET_NSET ch))

/-- Whether the period keeps the rule that the hub does not check (R178, case 2 of R434). -/
def State.fltPeriodOk (s : State) (ch : Nat) : Bool :=
  let p := s.fltP ch
  p != 0 && (2000 % p == 0 || p % 2000 == 0) && decide (p ≤ 2000000)

/-! The stages. -/

/-- A value put into its place in a rising list. -/
def insertI (x : Int) : List Int → List Int
  | [] => [x]
  | y :: r => if x ≤ y then x :: y :: r else y :: insertI x r

/-- The k-th smallest of a window, from 1 (R172). -/
def kthSmallest (xs : List Int) (k : Nat) : Int := (xs.foldr insertI []).getD (k - 1) 0

/-- A zero-state delay line of `n` values, newest first, with one value put in. -/
def pushLine (n : Nat) (x : Int) (line : List Int) : List Int :=
  let l := (x :: line).take n
  l ++ List.replicate (n - l.length) 0

/-- The rank filter's output on its window (R172). -/
def rankOut (w rank : Nat) (win : List Int) : Int := kthSmallest win (if rank = 0 then (w + 1) / 2 else rank)

/-- The Farrow ROM F[m][i], in units of 2⁻¹⁸ (R173). -/
def farrowRom : List (List Int) :=
  [[0, 0, 0, 0, 262144, 0, 0, 0],
   [0, 0, 0, -87381, -131072, 262144, -43691, 0],
   [0, 0, 0, 131072, -262144, 131072, 0, 0],
   [0, 0, 0, -43691, 131072, -131072, 43691, 0]]

/-- Sum of products of two lists. -/
def dotI (a b : List Int) : Int := ((a.zip b).map (fun p => p.1 * p.2)).sum

/-- A value held to ±lim, and whether that changed it. -/
def limitTo (lim x : Int) : Int × Bool := (clampI (-lim) lim x, decide (x < -lim) || decide (lim < x))

/-- The skew corrector on its eight newest rank outputs (R173): value and clip. -/
def farrow (q : List Int) (mu : Int) : Int × Bool :=
  let v := farrowRom.map (fun row => dotI row q)
  let y2 := rhe (v.getD 3 0 * mu) 65536 + v.getD 2 0
  let y1 := rhe (y2 * mu) 65536 + v.getD 1 0
  let y0 := rhe (y1 * mu) 65536 + v.getD 0 0
  limitTo 8388607 (rhe y0 (2 ^ 18))

/-- A value wrapped to 72-bit two's complement (R174). -/
def wrap72 (x : Int) : Int := sx 72 (tw 72 x)

/-- The integrators with one input added: each takes the new value of the one before it (R174). -/
def cicIntegrate : Int → List Int → List Int
  | _, [] => []
  | x, i :: r => let y := wrap72 (i + x); y :: cicIntegrate y r

/-- The combs at a CIC output: the value that leaves them, and their new states (R174). -/
def cicComb : Int → List Int → Int × List Int
  | v, [] => (v, [])
  | v, c :: r => let o := cicComb (wrap72 (v - c)) r; (o.1, v :: o.2)

/-- The FIR's output on its line (R175): h is stored to the middle tap and mirrored. -/
def firOut (h : Nat → Int) (l : Nat) (z : List Int) : Int × Bool :=
  limitTo (2 ^ 27 - 1) (rhe (dotI ((List.range l).map (fun i => h (min i (l - 1 - i)))) z) (2 ^ 18))

/-- sat56 (R176). -/
def sat56 (x : Int) : Int × Bool := limitTo (2 ^ 55 - 1) x

/-- One notch (R176): output, new states and whether anything clipped. -/
def notchStep (b0 b1 b2 a1 a2 : Int) (st : Int × Int) (x : Int) : Int × (Int × Int) × Bool :=
  let y := limitTo (2 ^ 27 - 1) (rhe (b0 * x + st.1) (2 ^ 26))
  let s1 := sat56 (b1 * x - a1 * y.1 + st.2)
  let s2 := sat56 (b2 * x - a2 * y.1)
  (y.1, (s1.1, s2.1), y.2 || s1.2 || s2.2)

/-- The notches in series (R176). -/
def notchRun : List (Int × Int × Int × Int × Int) → List (Int × Int) → Int → Int × List (Int × Int) × Bool
  | [], _, x => (x, [], false)
  | (b0, b1, b2, a1, a2) :: cs, sts, x =>
    let o := notchStep b0 b1 b2 a1 a2 (sts.headD (0, 0)) x
    let r := notchRun cs sts.tail o.1
    (r.1, o.2.1 :: r.2.1, o.2.2 || r.2.2)

/-- The final rounding (R180). -/
def finalRound (v : Int) : Int × Bool := limitTo 8388607 (rhe v 16)

/-- h[c] of a channel (R175). -/
def State.firH (s : State) (ch c : Nat) : Int := sx 20 (s.rd (R.CH_FLT_FIRc ch c)).toNat

/-- The coefficients of the notches in use (R176). -/
def State.notchCoefs (s : State) (ch : Nat) : List (Int × Int × Int × Int × Int) :=
  (List.range (s.get (F.CH_FLT_CFG_NNOTCH ch))).map fun q =>
    (sx 28 (s.rd (R.CH_FLT_Nq_B0 ch q)).toNat, sx 28 (s.rd (R.CH_FLT_Nq_B1 ch q)).toNat,
      sx 28 (s.rd (R.CH_FLT_Nq_B2 ch q)).toNat, sx 28 (s.rd (R.CH_FLT_Nq_A1 ch q)).toNat,
      sx 28 (s.rd (R.CH_FLT_Nq_A2 ch q)).toNat)

/-! One channel, one input tick. -/

/-- A chain put into zero state at Ts (R182, R184): every stage, the reducer and the UNSET count. -/
def State.zeroChain (s : State) (ch ts : Nat) : FastCh :=
  { on := true, ts := ts, left := s.fltU ch }

/-- μ of the slice that feeds a channel at a tick (R173). -/
def State.skewAt (s : State) (ch t : Nat) : Int :=
  match s.feeder ch t with
  | some sl => let c := s.coefAt t; if c.digital then (c.slices.val {} sl).mu else 0
  | none => 0

/-- The lowest range code in the support (R181). -/
def lowestRange (sup : List (Nat × FSample)) : Nat :=
  if sup.isEmpty then 0 else sup.foldl (fun m e => min m e.2.r) 3

/-- What an input sample of tick `n` does to a chain up to the CIC integrators (R172 to R174). -/
def State.chainIn (s : State) (ch n : Nat) (c : FastCh) (x : FSample) : FastCh :=
  let w := s.fltW ch
  let span := s.fltSpan ch
  let win := pushLine w x.x c.win
  let y := rankOut w (s.get (F.CH_FLT_CFG_RANK ch)) win
  let sk := if s.fltSkew ch then pushLine 8 y c.sk else []
  let z := if s.fltSkew ch then farrow sk (s.skewAt ch n) else (y, false)
  let nn := s.fltN ch
  let integ := cicIntegrate z.1 (c.integ.take nn ++ List.replicate (nn - c.integ.length) 0)
  { c with
    win := win, sk := sk, integ := integ
    sup := ((n, x) :: c.sup).filter (fun e => decide (n ≤ e.1 + span))
    clips := (if z.2 then n :: c.clips else c.clips).filter (fun t => decide (n ≤ t + span)) }

/-- The ticks, back from the release tick, whose skew-corrector outputs an output is made of (R174, R175). -/
def State.fltCore (s : State) (ch : Nat) : Nat :=
  2 ^ s.srdK ch * (s.fltN ch * (s.fltD ch - 1) + (s.fltL ch - 1) * s.fltD ch)

/-- What an input tick `n` does to the chain of a channel that has a sample (R170 to R184): the chain after
it and the output released in it, with its grid tick and whether a stage clipped. -/
def State.chainStep (s : State) (ch n : Nat) (c : FastCh) (x : FSample) : FastCh × Option (Nat × OSample × Bool) :=
  let c1 := s.chainIn ch n c x
  let gr := s.fltGr ch
  let phase (p : Nat) : Bool := (n + p * (gr / p + 1) - gr) % p == 0
  if !(phase (s.fltPcic ch)) then (c1, none)
  else
    let nn := s.fltN ch
    let o := cicComb (c1.integ.getD (nn - 1) 0) (c1.comb.take nn ++ List.replicate (nn - c1.comb.length) 0)
    let cic := rhe (o.1 * 16) (2 ^ cicShift nn (s.fltD ch))
    let c2 := { c1 with comb := o.2, fir := pushLine (s.fltL ch) cic c1.fir }
    if !(phase (s.fltP ch)) || decide (n < gr) || decide (n - gr < c.ts) then (c2, none)
    else
      let f := firOut (s.firH ch) (s.fltL ch) c2.fir
      let nt := notchRun (s.notchCoefs ch) c2.notch f.1
      let v := finalRound nt.1
      let clip := f.2 || nt.2.2 || v.2 || c2.clips.any (fun t => decide (n ≤ t + s.fltCore ch))
      let out : OSample :=
        ⟨v.1, lowestRange c2.sup, c2.left != 0, clip || c2.sup.any (·.2.ovr), false, c2.sup.any (·.2.dip),
          c2.sup.any (·.2.sub)⟩
      ({ c2 with notch := nt.2.1, left := c2.left - 1 }, some (n - gr, out, clip))

/-! The change-only reducer (R188). -/

/-- The flags a reducer compares (R188). -/
def OSample.flags (o : OSample) : List Bool := [o.unset, o.ovr, o.opn, o.dip, o.sub]

/-- Whether a reducer emits an output (R188). -/
def reducerEmits (fresh : Bool) (ref : Option OSample) (db m silent : Nat) (y : OSample) : Bool :=
  match ref with
  | none => true
  | some r => fresh || y.flags != r.flags || decide ((db : Int) < (y.x - r.x).natAbs) || (m != 0 && silent == m)

end Sys2Proof.Machine
end

