-- ==== Sys2Proof/Machine/Float32.lean ====
section
/-! DEFINITION. Float32.lean: IEEE 754 binary32 as the linearisation of R141 and R142 uses it: correct
rounding to nearest even with subnormals kept, fused multiply-add, and the quiet NaN 0x7FC0_0000. -/
namespace Sys2Proof.Machine

/-- The quiet NaN of R142. -/
def qnan : Word := 0x7FC00000

/-- Whether a binary32 word is a NaN. -/
def f32Nan (w : Word) : Bool := decide (0x7F800000 < w.toNat % 2 ^ 31)
/-- Whether a binary32 word is an infinity. -/
def f32Inf (w : Word) : Bool := w.toNat % 2 ^ 31 == 0x7F800000
/-- Its sign. -/
def f32Neg (w : Word) : Bool := w.getLsbD 31
/-- Whether it is subnormal (non-zero with the lowest exponent). -/
def f32Sub (w : Word) : Bool := decide (0 < w.toNat % 2 ^ 31) && decide (w.toNat % 2 ^ 31 < 2 ^ 23)

/-- The magnitude of a finite word in units of 2⁻¹⁴⁹. -/
def f32Mag (w : Word) : Nat :=
  let e := w.toNat / 2 ^ 23 % 256
  let m := w.toNat % 2 ^ 23
  if e = 0 then m else (2 ^ 23 + m) * 2 ^ (e - 1)

/-- The value of a finite word in units of 2⁻¹⁴⁹. -/
def f32Val (w : Word) : Int := if f32Neg w then -(f32Mag w : Int) else f32Mag w

/-- A sign and a magnitude in units of 2⁻²⁹⁸ rounded to binary32, nearest even (R141). -/
def f32Round (neg : Bool) (mag : Nat) : Word :=
  let u := max (Nat.log2 mag - 23) 149
  let q := (rhe (mag : Int) (2 ^ u)).toNat
  let bits := min ((u - 149) * 2 ^ 23 + q) 0x7F800000
  wd (bits + b2n neg * 2 ^ 31)

/-- fma(a, x, c) with one rounding (R141). -/
def f32Fma (a x c : Word) : Word :=
  if f32Nan a || f32Nan x || f32Nan c then qnan
  else
    let sp := f32Neg a != f32Neg x
    if f32Inf a || f32Inf x then
      if f32Mag a = 0 ∨ f32Mag x = 0 then qnan
      else if f32Inf c && f32Neg c != sp then qnan
      else wd (0x7F800000 + b2n sp * 2 ^ 31)
    else if f32Inf c then c
    else
      let v : Int := f32Val a * f32Val x + f32Val c * 2 ^ 149
      if v = 0 then
        (if f32Mag a * f32Mag x = 0 ∧ f32Mag c = 0 ∧ sp && f32Neg c then 0x80000000 else 0)
      else f32Round (decide (v < 0)) v.natAbs

/-- x of R141: the sample value × K × 2^(−23−r), correctly rounded; K is 2.5 for the internal reference,
otherwise 1. -/
def f32OfSample (value : Int) (ref r : Nat) : Word :=
  let v : Int := if ref = 0 then value * 5 * 2 ^ (298 - 24 - r) else value * 2 ^ (298 - 23 - r)
  if v = 0 then 0 else f32Round (decide (v < 0)) v.natAbs

/-- The polynomial of R141 over the coefficients c[i][j]. -/
def f32Poly (c : Nat → Nat → Word) (x t : Word) : Word :=
  let inner (j : Nat) : Word :=
    [6, 5, 4, 3, 2, 1, 0].foldl (fun a i => f32Fma a x (c i j)) (c 7 j)
  [2, 1, 0].foldl (fun y j => f32Fma y t (inner j)) (inner 3)

/-- Whether one binary32 number is above another; never with a NaN. -/
def f32Gt (a b : Word) : Bool :=
  if f32Nan a || f32Nan b then false
  else
    let ord (w : Word) : Int := if f32Neg w then -((w.toNat % 2 ^ 31 : Nat) : Int) else (w.toNat % 2 ^ 31 : Nat)
    decide (ord b < ord a)

end Sys2Proof.Machine
end

