-- ==== Sys2Proof/Machine/SlowChain.lean ====
section
/-! DEFINITION. SlowChain.lean: what the active core does with a released slow sample (R138 to R143, R189,
R190): from its slot record to the sample word, the engineering value, the scan median and the reducer. -/
namespace Sys2Proof.Machine

/-! Windows and slots (R128, R129, R137). -/

/-- Length of the convert step by WIN (R137). -/
def winTicks (w : Nat) : Nat := [256, 2000, 10000, 40000, 33334, 200000].getD w 256

/-- The convert step of a channel, ticks. -/
def State.sinWin (s : State) (ch : Nat) : Nat := winTicks (s.get (F.CH_SIN_CFG_WIN ch))

/-- The slot length: the sum of the steps, at least 500 ticks (R129). -/
def State.slotTicks (s : State) (ch : Nat) : Nat :=
  max 500 (4 + s.get (F.CH_SIN_SLOT_DSCH ch) + 2 * s.get (F.CH_SIN_BO_BO_T ch) + s.get (F.CH_SIN_SLOT_SETTLE ch)
    + s.sinWin ch)

/-! The slot record (R149). -/

/-- The slot record of a release. -/
def slotRecord (code : Int) (r : Nat) (before after exc dip sub noConv : Bool) (ch conv tick : Nat) : List Word :=
  [wd (tw 24 code + r % 8 * 2 ^ 24 + b2n before * 2 ^ 27 + b2n after * 2 ^ 28 + b2n exc * 2 ^ 29 + b2n dip * 2 ^ 30
      + b2n sub * 2 ^ 31),
    wd (ch % 512 + conv % 32 * 2 ^ 9 + b2n noConv * 2 ^ 14)] ++ tickWords tick

/-- What `AuxSlot.sensor` holds of a slot that released no sample (R151). -/
def noSample : Nat := 3

/-- The release tick that a slot record carries. -/
def slotTick (rc : List Word) : Nat := (rc.getD 2 0).toNat + (rc.getD 3 0).toNat * 2 ^ 32

/-! Code to value and engineering value (R138 to R143). -/

/-- A slow code normalised (R139): value and OVR. -/
def slowNormalise (code o g : Int) : Int × Bool :=
  let v := rhe ((code - o) * (2 ^ 31 + g)) (2 ^ 31)
  (clampI (-8388607) 8388607 v, decide (v < -8388607) || decide (8388607 < v) || code.natAbs == 8388607)

/-- The coefficient c[i][j] in force for a channel: the highest-numbered valid slot that names the pair, else
+0.0 (R141). -/
def CoefSet.poly (c : CoefSet) (ch i j : Nat) : Word :=
  ((((c.polys.val [] ch).reverse).find?
    (fun e => e.1.toNat % 8 == i && e.1.toNat / 16 % 4 == j)).map (·.2)).getD 0

/-- Whether a channel has a coefficient for which R142 gives undefined behaviour (case 3 of R434). -/
def CoefSet.polyBad (c : CoefSet) (ch : Nat) : Bool :=
  (c.polys.val [] ch).any (fun e => f32Nan e.2 || f32Inf e.2 || f32Sub e.2)

/-- Whether an input is a temperature input of some enabled channel (R143). The rule does not say which CH_SIN_TSRC registers make one of an
input; those of the channels that are enabled and take their t from there do here (DESIGN CHOICE, log 63). -/
def State.isTempInput (s : State) (ch : Nat) : Bool :=
  s.slowEnabled.any (fun k => s.on (F.CH_SIN_CFG_TSRC_EN k) && s.get (F.CH_SIN_TSRC_CH k) == ch)

/-- t of R143 for a sample released in `tick`, and whether it had to come from CH_SIN_TDEF in place of a temperature input: T_INV shows that
case alone, not a channel that takes CH_SIN_TDEF by its settings (DESIGN CHOICE, log 63). `ext` is TSRC_EN. -/
def State.tempFor (s : State) (ext : Bool) (ch tick : Nat) : Word × Bool :=
  let dflt := s.rd (R.CH_SIN_TDEF ch)
  if ext && !(s.isTempInput ch) then
    match (s.core.slow.val {} (s.get (F.CH_SIN_TSRC_CH ch))).tHist.find? (fun h => decide (h.tick < tick)) with
    | some h => if h.w.opn || h.w.ovr || h.w.unset then (dflt, true) else (h.eng, false)
    | none => (dflt, true)
  else (dflt, false)

/-- The sample of a slot record (R130, R134, R136, R139 to R143, R164, R166), whether it took t from
CH_SIN_TDEF under R143, and whether a coefficient of R142 makes case 3 of R434 arise. Whether an OPEN sample, whose engineering value is the quiet
NaN (R134), also carries OVR for an infinite or NaN y is open: it does not (DESIGN CHOICE, log 63). -/
def State.slowSample (s : State) (rc : List Word) (side : AuxSlot) : SlowS × Bool × Bool :=
  let w0 := (rc.getD 0 0).toNat
  let w1 := (rc.getD 1 0).toNat
  let tick := slotTick rc
  let ch := w1 % 512
  let r := w0 / 2 ^ 24 % 8
  let noConv := bitOf w1 14
  let opn := bitOf w0 27 || bitOf w0 28 || bitOf w0 29
  let set := s.coefAt tick
  let cv := set.convs.val {} (w1 / 512 % 32)
  let v := if noConv then (0, false) else slowNormalise (sx 24 w0) (cv.o.getD r 0) (cv.g.getD r 0)
  let x := f32OfSample v.1 ((F.CH_SIN_CFG_REF ch).ofWord side.cfg) r
  let src1 := (F.CH_SIN_CFG_POLY_SRC ch).ofWord side.cfg == 1
  let lin := (F.CH_SIN_CFG_POLY_EN ch).ofWord side.cfg == 1 && !(src1 && side.sensor == 2)
  let t := s.tempFor ((F.CH_SIN_CFG_TSRC_EN ch).ofWord side.cfg == 1) ch tick
  let y := if lin then f32Poly (set.poly ch) x t.1 else x
  let odd := !opn && (f32Nan y || f32Inf y)
  let eng := if opn || f32Nan y then qnan else y
  let w : OSample := ⟨v.1, r, (src1 && side.sensor != 0) || t.2, v.2 || odd, opn, bitOf w0 30, bitOf w0 31⟩
  (⟨tick, side.tag, w, noConv, eng⟩, t.2, lin && !opn && set.polyBad ch)

/-! The scan median (R189). -/

/-- W_s of a channel. -/
def State.slwW (s : State) (ch : Nat) : Nat := 2 * s.get (F.CH_SLW_CFG_MED ch) + 1

/-- Whether a sample is valid for the median. -/
def SlowS.valid (x : SlowS) : Bool := !x.w.opn && !x.noConv

/-- The scan median over a window, newest first, of `w` samples at most (R189): output word, engineering
value and tag. -/
def scanMedian (w : Nat) (win : List SlowS) : OSample × Word × Nat :=
  let h := (w - 1) / 2
  let j := win.headD {}
  let ok := win.filter SlowS.valid
  let vals := (ok.map (·.w.x)).foldr insertI []
  let value := if ok.isEmpty then j.w.x else vals.getD ((vals.length - 1) / 2) 0
  let eng := if ok.isEmpty then j.eng else ((ok.find? (fun x => x.w.x == value)).map (·.eng)).getD 0
  let unset := win.any (·.w.unset) || (w != 1 && decide (ok.length < w))
  (⟨value, j.w.r, unset, win.any (·.w.ovr), win.any (·.w.opn), win.any (·.w.dip), win.any (·.w.sub)⟩, eng,
    (win.getD h j).tag)

/-- A slow chain at its restart (R189); an enable also forgets what it held as a temperature input (R143). -/
def SlowCh.restart (c : SlowCh) (enable : Bool) : SlowCh := { tHist := if enable then [] else c.tHist }

/-- A slow chain of the core changed. -/
def State.updSlow (s : State) (ch : Nat) (f : SlowCh → SlowCh) : State :=
  { s with core := { s.core with slow := s.core.slow.upd {} ch f } }

/-- The registers that show the last released sample (R153). -/
def State.showSlow (s : State) (ch : Nat) (x : SlowS) (tInv : Bool) : State :=
  ((((s.wr (R.CH_SIN_LAST ch) x.w.word).wr (R.CH_SIN_ENG ch) x.eng).wr64 (R.CH_SIN_TAG_LO ch) x.tag).put
    (F.CH_SIN_STAT_OPEN ch) (b2n x.w.opn)).put (F.CH_SIN_STAT_T_INV ch) (b2n tInv)

/-- A released sample processed by the core that holds the active role (R130, R189, R190): the output it
makes, with its release tick and tag, waits for its evaluation and becomes a record. `ext` says that what it
shows outside the core has not been shown before a switch-over. -/
def State.slowProcess (s : State) (ext : Bool) (rc : List Word) (side : AuxSlot) : State :=
  let ch := (rc.getD 1 0).toNat % 512
  let p := s.slowSample rc side
  let x := p.1
  let s0 := if p.2.2 then s.unchecked 3 else s
  let s1 := if ext then s0.showSlow ch x p.2.1 else s0
  let w := s1.slwW ch
  let c0 := s1.core.slow.val {} ch
  let win := (x :: c0.hist).take w
  let c1 : SlowCh := { c0 with hist := (x :: c0.hist).take 5, count := c0.count + 1, tHist := (x :: c0.tHist).take 2 }
  if c0.count < (w - 1) / 2 then s1.updSlow ch fun _ => c1
  else
    let o := scanMedian w win
    let s2 := { s1 with core := { s1.core with evals := s1.core.evals ++ [({ ch := ch, stamp := o.2.2, take := x.tick + 2, w := o.1 } : Eval)] } }
    let src := s2.atSrcAt o.2.2
    if s2.on (F.CH_SLW_CFG_RED_EN ch) then
      if reducerEmits c0.fresh c0.ref (s2.get (F.CH_SLW_DB_DB ch)) (s2.get (F.CH_SLW_M_M ch)) c0.silent o.1 then
        (s2.updSlow ch fun _ => { c1 with fresh := false, ref := some o.1, silent := 0 }).placeChan ch 7 x.tick o.2.2
          (recChange src (s2.chanWord ch 0) o.2.2 o.1.word c0.silent (some o.2.1))
      else s2.updSlow ch fun _ => { c1 with fresh := false, silent := c0.silent + 1 }
    else
      (s2.updSlow ch fun _ => { c1 with fresh := false }).placeChan ch 8 x.tick o.2.2
        (recSlow src (s2.chanWord ch 0) o.2.2 o.1.word o.2.1)

end Sys2Proof.Machine
end

