-- ==== Sys2Proof/Machine/Life.lean ====
section
/-! DEFINITION. Life.lean: sensor life accounting (R135, R159 to R163, R167): the Larwimor template, the four
counters, the thresholds and REC_LIFE. -/
namespace Sys2Proof.Machine

/-! The template (R159, R160). -/

/-- A little-endian word of a template. -/
def tmplWord (tm : List Byte) (off : Nat) : Nat := leVal ((tm.drop off).take 4)

/-- A template whose ID and version match and whose static CRC is right (R160). -/
def tmplValid (tm : List Byte) : Bool :=
  leVal (tm.take 2) == 0x4C31 && leVal ((tm.drop 2).take 1) == 1
    && crc16 (tm.take 0x9E) == leVal ((tm.drop 0x9E).take 2)

/-- Counter copy `k` of a template, where its CRC is right (R159). -/
def tmplCopy (tm : List Byte) (k : Nat) : Option (Nat × List Nat) :=
  let c := (tm.drop (0xA0 + 32 * k)).take 32
  if c.length = 32 ∧ crc16 (c.take 30) = leVal (c.drop 30) then
    some (tmplWord c 0, [tmplWord c 4, tmplWord c 8, tmplWord c 12, tmplWord c 16])
  else none

/-- The copy in force (R160): the right one with the higher sequence number. -/
def tmplCounters (tm : List Byte) : Option (Nat × List Nat) :=
  match tmplCopy tm 0, tmplCopy tm 1 with
  | some a, some b => if a.1 < b.1 then some b else some a
  | some a, none => some a
  | none, b => b

/-- The copy that a write-back writes (R163): the one with the lower sequence number; one whose CRC is wrong
counts as lower. -/
def tmplTarget (tm : List Byte) : Nat :=
  match tmplCopy tm 0, tmplCopy tm 1 with
  | some a, some b => if a.1 < b.1 then 0 else 1
  | some _, none => 1
  | none, _ => 0

/-- The bytes of a counter copy (R159). -/
def copyBytes (seq : Nat) (cs : List Nat) : List Byte :=
  let b := leBytes 4 seq ++ cs.flatMap (leBytes 4) ++ List.replicate 10 0
  b ++ leBytes 2 (crc16 b)

/-- The polynomial slots of a template (R159, R144): the valid ones, as a coefficient set holds them. -/
def tmplSlots (tm : List Byte) : List (Word × Word) :=
  (List.range 16).filterMap fun k =>
    let idx := leVal ((tm.drop (8 + 8 * k)).take 1)
    if idx.testBit 7 then some (wd idx, wd (tmplWord tm (12 + 8 * k))) else none

/-! Counters (R161, R162). -/

/-- One input's identity and life changed. -/
def State.updSid (s : State) (ch : Nat) (f : Sid → Sid) : State := { s with sid := s.sid.upd {} ch f }

/-- Whether the hub counts for an input: LIFE_EN and a valid template (R161). -/
def State.tracked (s : State) (ch : Nat) : Bool := s.on (F.CH_SID_CFG_LIFE_EN ch) && (s.sid.val {} ch).valid

/-- The life fraction, 0.1 % units, rounded down (R162). -/
def Sid.fraction (e : Sid) : Nat :=
  let f (c r : Nat) : Nat := if r = 0 then 0 else c * 1000 / r
  let ovl := leVal ((e.tmpl.drop 0x9C).take 2)
  max (max (f e.time (tmplWord e.tmpl 0x90)) (f e.cycles (tmplWord e.tmpl 0x94)))
    (max (f e.charge (tmplWord e.tmpl 0x98)) (f e.ovr ovl))

/-- The registers that show an input's identity and life (R169). -/
def State.showSid (s : State) (ch : Nat) : State :=
  let e := s.sid.val {} ch
  let on := s.tracked ch
  let s1 := ((s.put (F.CH_SID_STAT_TEMPLATE ch) (b2n e.valid)).put (F.CH_SID_STAT_STATE ch) (if on then max 1 e.life else 0)).put
    (F.CH_SID_STAT_LIFE ch) (if on then min 65535 e.fraction else 0)
  (((((s1.wr64 (R.CH_SID_ROM_LO ch) (e.rom.getD 0)).wr (R.CH_SID_TIME ch) (wd e.time)).wr (R.CH_SID_CYCLES ch)
    (wd e.cycles)).wr (R.CH_SID_CHARGE ch) (wd e.charge)).wr (R.CH_SID_OVR ch) (wd e.ovr))

/-- REC_LIFE (R167): its word 1 holds no position, although R197 has one in every record that concerns one channel (log 53). -/
def State.recLife (s : State) (ch reason : Nat) : List Word :=
  let e := s.sid.val {} ch
  mkRec 10 reason ([wd (ch % 512 + min 65535 e.fraction * 2 ^ 16), wd (e.rom.getD 0), wd (e.rom.getD 0 / 2 ^ 32)]
    ++ tickWords s.tick ++ [wd e.time, wd e.cycles, wd e.charge, wd e.ovr])

/-- REC_LIFE on the channel's live stream. -/
def State.placeLife (s : State) (ch reason : Nat) : State := s.placeChan ch 9 s.tick s.tick (s.recLife ch reason)

/-- The thresholds of R162 after a change of the counters. -/
def State.lifeCheck (s : State) (ch : Nat) : State :=
  if ¬ s.tracked ch then s.showSid ch
  else
    let f := (s.sid.val {} ch).fraction
    let s1 := s.updSid ch fun e => { e with life := max 1 e.life }
    let s2 :=
      if 900 ≤ f ∧ (s1.sid.val {} ch).life < 2 then
        (((s1.updSid ch fun e => { e with life := 2 }).flag F.SID_ALERT_WARN).event Ev.LIFE_WARN (evSource 15 ch) [.h ch, .h f]).placeLife ch 1
      else s1
    let s3 :=
      if 1000 ≤ f ∧ (s2.sid.val {} ch).life < 3 then
        (((s2.updSid ch fun e => { e with life := 3 }).flag F.SID_ALERT_END).event Ev.LIFE_END (evSource 15 ch) [.h ch, .h f]).placeLife ch 2
      else s2
    s3.showSid ch

/-- A 32-bit counter counted up, saturating. -/
def sat32 (n : Nat) : Nat := min 0xFFFFFFFF n

/-- Over-range events and thermal cycles as a sample is released (R161). -/
def State.lifeSample (s : State) (ch : Nat) (x : SlowS) : State :=
  let was := (s.sid.val {} ch).lastOvr
  let s0 := if was = x.w.ovr then s else s.updSid ch fun e => { e with lastOvr := x.w.ovr }
  let s1 := if s.tracked ch && x.w.ovr && !was then (s0.updSid ch fun e => { e with ovr := sat32 (e.ovr + 1) }).lifeCheck ch else s0
  if x.w.opn || x.w.ovr || x.w.unset then s1
  else
    (s1.sid.map (·.1)).foldl (fun s k =>
      if s.tracked k && s.get (F.CH_SID_CFG_TCH k) == ch then
        let e := s.sid.val {} k
        if f32Gt (wd (tmplWord e.tmpl 0x88)) x.eng then s.updSid k fun e => { e with below := true }
        else if f32Gt x.eng (wd (tmplWord e.tmpl 0x8C)) && e.below then
          (s.updSid k fun e => { e with below := false, cycles := sat32 (e.cycles + 1) }).lifeCheck k
        else s
      else s) s1

/-! Excitation (R135). -/

/-- A slow group's sequencer. -/
def State.grp (s : State) (g : Nat) : Grp := s.slow.grp.val {} g

/-- Whether an input declares source `k` (0 IEXCgA, 1 IEXCgB, 2 VEXCg). -/
def State.usesExc (s : State) (ch k : Nat) : Bool := bitOf (s.rd (R.CH_SIN_EXC ch)).toNat k

/-- The setting of source `k` of a group, 0 for off. -/
def State.excLevel (s : State) (g k : Nat) : Nat :=
  if k = 0 then s.get (F.AFS_GRPg_IEXCA_CODE g) else if k = 1 then s.get (F.AFS_GRPg_IEXCB_CODE g)
  else s.get (F.AFS_GRPg_VEXC_MV g)

/-- Whether the slot in progress drives the switched sources of an input in tick `t` (R135): from the first
tick of check-before to the last of check-after. -/
def State.slotDrives (s : State) (g ch t : Nat) : Bool :=
  match (s.grp g).scan with
  | some sc =>
    (match sc.slot with
    | some sl => 256 + 16 * g + sl.input == ch && decide (sl.drive ≤ t) && decide (t < sl.start + sl.len)
    | none => false)
  | none => false

/-- Length of an identity slot by its transaction (R155). -/
def idTicks (kind : Nat) : Nat := [8000, 12000, 24000].getD kind 8000

/-- Whether an identity slot keeps the excitation of a group off in tick `t` (R155): while the pair is switched to the identity
interface, between the break and discharge steps and the last break of 4 ticks. -/
def State.idOff (s : State) (g t : Nat) : Bool :=
  match (s.grp g).idRun with
  | some r => decide (r.start + 4 + s.get (F.CH_SIN_SLOT_DSCH r.ch) ≤ t) && decide (t + 4 < r.start + idTicks r.kind)
  | none => false

/-- Whether source `k` runs for an input in tick `t` (R135, R161): in continuous mode while the group is enabled, in switched mode in the
slots of the input, those of a scan that completes after EN was cleared included; never in an identity slot (R155). -/
def State.excRunsFor (s : State) (ch k t : Nat) : Bool :=
  let g := (ch - 256) / 16
  s.usesExc ch k && s.excLevel g k != 0 && !s.idOff g t
    && (if s.on (F.AFS_GRPg_CFG_EXC_MODE g) then s.slotDrives g ch t else s.on (F.AFS_GRPg_CFG_EN g))

/-- Whether source `k` of a group runs in tick `t` (R135). -/
def State.excRuns (s : State) (g k t : Nat) : Bool :=
  s.excLevel g k != 0 && !s.idOff g t
    && (if s.on (F.AFS_GRPg_CFG_EXC_MODE g) then (List.range 16).any (fun i => s.excRunsFor (256 + 16 * g + i) k t)
        else s.on (F.AFS_GRPg_CFG_EN g))

/-- 1 µA·h in units of 10 µA · tick. -/
def chargeUnit : Nat := 720000000

/-- Operating time and charge of one input over tick `t` (R161): VEXCg has no set current, so the charge is
that of the current sources. -/
def State.lifeTickFor (s : State) (t ch : Nat) : State :=
  let g := (ch - 256) / 16
  if ¬ s.tracked ch ∨ ¬ (List.range 3).any (fun k => s.excRunsFor ch k t) then s
  else
    let e := s.sid.val {} ch
    let cur := (if s.excRunsFor ch 0 t then s.excLevel g 0 else 0) + (if s.excRunsFor ch 1 t then s.excLevel g 1 else 0)
    let sec := decide (2000000 ≤ e.runTicks + 1)
    let frac := e.chFrac + cur
    let e1 := { e with
      runTicks := if sec then 0 else e.runTicks + 1
      time := if sec then sat32 (e.time + 1) else e.time
      chFrac := frac % chargeUnit
      charge := sat32 (e.charge + frac / chargeUnit) }
    let s1 := s.updSid ch fun _ => e1
    if sec || decide (chargeUnit ≤ frac) then s1.lifeCheck ch else s1

/-- Life accounting over tick `t` (R161). -/
def State.lifeTick (s : State) (t : Nat) : State := (s.sid.map (·.1)).foldl (fun s ch => s.lifeTickFor t ch) s

end Sys2Proof.Machine
end

