-- ==== Sys2Proof/Machine/Trigger.lean ====
section
/-! DEFINITION. Trigger.lean: trigger conditions and sources in the active core (R224 to R232, R461, R462),
and the commands that the core acts on at their ticks (R342). -/
namespace Sys2Proof.Machine

/-! The command journal (R342). -/

/-- Whether an address holds settings of a channel that the core reads at its ticks (R25, R342): those of the filter chain, of the slow inputs but for
the polynomials, which a coefficient set holds, of the channel's stream and of CH_AFE_CTRL. -/
def coreChan (a : Nat) : Bool :=
  let ofs := a % 0x800
  (decide (0x100000 ≤ a) && decide (a < 0x160000) && (ofs == 0 || ofs == 0x40 || (decide (0x100 ≤ ofs) && decide (ofs < 0x260))))
    || (decide (0x180000 ≤ a) && decide (a < 0x200000) && (decide (ofs < 0x40) || (decide (0xE0 ≤ ofs) && decide (ofs < 0xF4))))

/-- The word of a register as the core sees it at tick `t`: a write that the core acts on takes effect at the
tick its journal entry names, and the entry keeps the word it replaced. -/
def State.coreRd (s : State) (t a : Nat) : Word :=
  match s.red.journal.find? (fun e => decide (t < e.1) &&
      (match e.2 with | .regWrite b _ => b == a | _ => false)) with
  | some (_, .regWrite _ v) => v
  | _ => s.rd a

/-- The configuration word of condition `c` at tick `t`. -/
def State.cndCfg (s : State) (t c : Nat) : Nat := (s.coreRd t (R.TRG_CNDc_CFG c)).toNat
/-- TYPE. -/
def cndType (w : Nat) : Nat := w % 16
/-- SRC: watches outputs. -/
def cndSrc (w : Nat) : Bool := w.testBit 4
/-- DIR. -/
def cndDir (w : Nat) : Nat := w / 2 ^ 5 % 4
/-- CH. -/
def cndCh (w : Nat) : Nat := w / 2 ^ 8 % 512
/-- FLAGS. -/
def cndFlags (w : Nat) : Nat := w / 2 ^ 17 % 32
/-- SEL. -/
def cndSel (w : Nat) : Nat := w / 2 ^ 24 % 256

/-- Whether a type watches the samples or outputs of a channel (R225). -/
def cndSignal (w : Nat) : Bool := decide (1 ≤ cndType w) && decide (cndType w ≤ 6)

/-! One evaluation (R224, R225, R461). -/

/-- The flag bits of a sample word (R196), as TRG_CNDc_CFG.FLAGS names them. -/
def OSample.flagBits (o : OSample) : Nat :=
  b2n o.sub + 2 * b2n o.dip + 4 * b2n o.opn + 8 * b2n o.ovr + 16 * b2n o.unset

/-- A fast sample as a sample word: UNSET and OPEN clear (R96). -/
def FSample.out (x : FSample) : OSample := ⟨x.x, x.r, false, x.ovr, false, x.dip, x.sub⟩

/-- What an evaluation finds for a state condition (R224, R461), with the values before it, newest first. -/
def cndTruth (cfg : Nat) (a b : Int) (d count : Nat) (hist : List (Int × Bool)) (x : Int) (ok : Bool) : Bool :=
  let lo := cndDir cfg == 0
  ok && (match cndType cfg with
    | 1 => if lo then decide (a ≤ x) else decide (x ≤ a)
    | 2 => if lo then decide (a < x) || decide (x < b) else decide (b ≤ x) && decide (x ≤ a)
    | 3 =>
      match hist[d - 1]? with
      | some (y, k) => k && (if lo then decide (a ≤ x - y) else decide (x - y ≤ -a))
      | none => false
    | 4 => decide (count ≤ ((((x, ok) :: hist).take d).countP (fun e => e.2 && decide (a ≤ (e.1.natAbs : Int)))))
    | _ => false)

/-- A condition whose event is true with a stamp (R227); of several events in one tick the latest stamp counts (R228). -/
def CondSt.raise (k : CondSt) (stamp : Nat) : CondSt :=
  let m := max stamp (k.evStamp.getD stamp)
  { k with evStamp := some m, stamp := m, changed := true, evs := stamp :: k.evs }

/-- A condition after one evaluation of a sample with its stamp. -/
def CondSt.eval (k : CondSt) (cfg : Nat) (a b : Int) (d count : Nat) (o : OSample) (stamp : Nat) : CondSt :=
  let ok := !(o.unset || o.opn)
  let k1 := { k with prev := some o, hist := ((o.x, ok) :: k.hist).take 255 }
  if cndType cfg ≤ 4 then
    let v := cndTruth cfg a b d count k.hist o.x ok
    if v = k.state then k1
    else if v then { k1 with state := true, stamp := stamp, changed := true, chg := (stamp, true) :: k.chg }
    else { k1 with state := false, changed := false, chg := (stamp, false) :: k.chg }
  else
    match k.prev with
    | none => k1
    | some p =>
      let hit := if cndType cfg = 5 then
          (match cndDir cfg with
            | 0 => o.r != p.r
            | 1 => decide (o.r < p.r)
            | 2 => decide (p.r < o.r)
            | _ => false)
        else o.flagBits &&& cndFlags cfg &&& (31 - p.flagBits) != 0
      if hit then k1.raise stamp else k1

/-- The conditions changed. -/
def State.updCnd (s : State) (c : Nat) (f : CondSt → CondSt) : State :=
  { s with core := { s.core with conds := s.core.conds.upd {} c f } }

/-- TRG_CNDc_STAT as a condition leaves the tick (R244). -/
def State.showCnd (s : State) (c : Nat) (was : CondSt) : State :=
  let k := s.core.conds.val {} c
  let s1 := s.put (F.TRG_CNDc_STAT_STATE c) (b2n (s.condTrue c))
  if k.changed && !was.changed then s1.countUp (F.TRG_CNDc_STAT_TRUES c) else s1

/-- A condition evaluated in tick `t` on a sample with its stamp. -/
def State.evalCnd (s : State) (t c : Nat) (o : OSample) (stamp : Nat) : State :=
  let cfg := s.cndCfg t c
  let dw := (s.coreRd t (R.TRG_CNDc_D c)).toNat
  s.updCnd c fun k => k.eval cfg (sx 24 (s.coreRd t (R.TRG_CNDc_A c)).toNat) (sx 24 (s.coreRd t (R.TRG_CNDc_B c)).toNat)
    (dw % 256) (dw / 256 % 256) o stamp

/-- A condition starts afresh: state false, history cleared (R461). -/
def State.clearCnd (s : State) (c : Nat) : State := s.updCnd c fun _ => {}

/-- The conditions that watch a channel start afresh; a SYNC clears only those on outputs (R461). -/
def State.clearWatch (s : State) (t ch : Nat) (sync : Bool) : State :=
  (List.range 64).foldl (fun s c =>
    let w := s.cndCfg t c
    if cndSignal w && cndCh w == ch && (cndSrc w || !sync) then s.clearCnd c else s) s

/-- The conditions of a type that match raise their event (R227). -/
def State.raiseCnds (s : State) (t stamp : Nat) (hit : Nat → Bool) : State :=
  (List.range 64).foldl (fun s c => if hit (s.cndCfg t c) then s.updCnd c (·.raise stamp) else s) s

/-! Sources (R228 to R231). -/

/-- A source changed. -/
def State.updSrc (s : State) (q : Nat) (f : SrcSt → SrcSt) : State :=
  { s with core := { s.core with srcs := s.core.srcs.upd {} q f } }

/-- TRG_SRCq_CTRL at tick `t`. -/
def State.srcCtrl (s : State) (t q : Nat) : Nat := (s.coreRd t (R.TRG_SRCq_CTRL q)).toNat

/-- The conditions that source `q` names at tick `t`. -/
def State.srcCondsAt (s : State) (t q : Nat) : List Nat :=
  let w0 := (s.coreRd t (R.TRG_SRCq_CND0 q)).toNat
  let w1 := (s.coreRd t (R.TRG_SRCq_CND1 q)).toNat
  (List.range (s.srcCtrl t q / 2 ^ 12 % 8 + 1)).map fun i =>
    (if i < 4 then w0 / 2 ^ (8 * i) else w1 / 2 ^ (8 * (i - 4))) % 64

/-- The combination of source `q` over the states of tick `t` (R228). -/
def State.srcComb (s : State) (t q : Nat) : Bool :=
  let v := (s.srcCondsAt t q).map s.condTrue
  let w := s.srcCtrl t q
  match w / 2 ^ 4 % 4 with
  | 0 => v.any id
  | 1 => v.all id
  | _ => decide (w / 2 ^ 8 % 8 + 1 ≤ v.countP id)

/-- The stamp of a combination that becomes true in a tick (R228). -/
def State.srcStamp (s : State) (t q : Nat) : Nat :=
  let on := (s.srcCondsAt t q).filter s.condTrue
  let k (c : Nat) : CondSt := s.core.conds.val {} c
  let new := on.filter (fun c => (k c).changed)
  ((if new.isEmpty then on else new).map (fun c => (k c).stamp)).foldl max 0

/-- Whether the hold-off of source `q` has passed in tick `t` (R229). -/
def State.holdPassed (s : State) (t q : Nat) : Bool :=
  match (s.core.srcs.val {} q).lastFire with
  | some f => decide (f + (s.coreRd t (R.TRG_SRCq_HOLDOFF q)).toNat ≤ t)
  | none => true

/-- Whether the AUTO count of source `q` has reached its value in tick `t` (R231). -/
def State.autoDue (s : State) (t q : Nat) : Bool :=
  let k := s.core.srcs.val {} q
  k.armed && bitOf (s.srcCtrl t q) 16
    && decide (k.autoFrom + (s.coreRd t R.TRG_AUTO).toNat % 2 ^ 22 * 2000 ≤ t) && s.holdPassed t q

/-- Whether condition `c` was true on a stamp (R227). -/
def State.trueOn (s : State) (c stamp : Nat) : Bool :=
  let k := s.core.conds.val {} c
  k.evs.contains stamp ||
    (!(s.condDead c) && (match k.chg.find? (fun e => decide (e.1 ≤ stamp)) with | some e => e.2 | none => false))

/-- An event queued for the trigger bus (R315). -/
def State.queueBus (s : State) (t stamp line : Nat) : State :=
  if ¬ s.joined ∨ stamp + 33554431 < t then s
  else if 16 ≤ s.stk.busQ.length then (s.flag F.STK_ALERT_BUS_OVF).event Ev.TRG_BUS_OVF (evSource 10 0) [.h line, .t stamp]
  else { s with stk := { s.stk with busQ := s.stk.busQ ++ [⟨stamp, BitVec.ofNat 8 (2 ^ line)⟩] } }

/-- The word of REC_TRIG that source `q` gave as it fired in tick `t` (R341). -/
def State.firedWord (s : State) (t q : Nat) : Word :=
  match s.red.fired.find? (fun e => e.1 == t && e.2.1 == q) with | some e => e.2.2 | none => 0

/-- The word of a firing kept for the replay that a switch-over would bring (R341); no replay goes back 1,024 ticks (R340). -/
def State.noteFired (s : State) (t q : Nat) (w : Word) : State :=
  { s with red := { s.red with fired := (t, q, w) :: s.red.fired.filter (fun e => decide (t < e.1 + 1024)) } }

/-- A firing of source `q` (R229, R231 to R233): its word in REC_TRIG. `ext` says that what it shows outside
the core has not been shown before a switch-over; what has been shown is in the word as it was. -/
def State.fireSrc (s : State) (ext : Bool) (t stamp q : Nat) (auto : Bool) : State × Word :=
  let w := s.srcCtrl t q
  let s1 := s.updSrc q fun k => { k with lastFire := some t, autoFrom := t, armed := k.armed && bitOf w 3 }
  if !ext then (s1, s.firedWord t q)
  else
    let s2 := ((s1.countUp (F.TRG_SRCq_STAT_FIRES q)).put (F.TRG_SRCq_CTRL_ARMED q) (b2n (s1.core.srcs.val {} q).armed))
    let o := s2.openWindow q stamp t auto
    let s3 := match o.2.1 with
      | some _ => o.1
      | none => ((o.1.countUp (F.TRG_SRCq_STAT_DROPS q)).flag F.TRG_ALERT_DROPPED).event Ev.WIN_DROPPED (evSource 6 q)
          [.h q, .t stamp]
    let s4 := if auto then (s3.flag F.TRG_ALERT_AUTO).event Ev.TRG_AUTO (evSource 6 q) [.h q] else s3
    let s5 := if bitOf w 17 ∧ s4.get F.TRG_CTRL_MODE ≠ 0 then s4.queueBus t stamp (w / 2 ^ 20 % 8) else s4
    let word := trigWord q (o.2.1.getD 0) o.2.1.isNone auto o.2.2
    (s5.noteFired t q word, word)

/-- A firing put among firings ordered by stamp, then source (R232). -/
def insertFire (x : Nat × Nat × Bool) : List (Nat × Nat × Bool) → List (Nat × Nat × Bool)
  | [] => [x]
  | y :: r => if x.1 < y.1 ∨ x.1 = y.1 ∧ x.2.1 ≤ y.2.1 then x :: y :: r else y :: insertFire x r

/-- A rising list without its repeats. -/
def uniqSorted : List Nat → List Nat
  | x :: y :: r => if x = y then uniqSorted (y :: r) else x :: uniqSorted (y :: r)
  | l => l

/-- The firings of one stamp served in ascending source (R232): the words of REC_TRIG in order. -/
def State.fireGroup (s : State) (ext : Bool) (t stamp : Nat) : List (Nat × Nat × Bool) → State × List Word
  | [] => (s, [])
  | (_, q, auto) :: r =>
    let o := s.fireSrc ext t stamp q auto
    let p := o.1.fireGroup ext t stamp r
    (p.1, o.2 :: p.2)

/-- One REC_TRIG for the firings of a stamp (R204, R232). -/
def State.fireStamp (s : State) (ext : Bool) (t : Nat) (fires : List (Nat × Nat × Bool)) (stamp : Nat) : State :=
  let group := fires.filter (fun f => f.1 == stamp)
  let causes := ((List.range 64).map fun c => if s.trueOn c stamp then 2 ^ c else 0).sum
  let mask := (group.map fun f => 2 ^ f.2.1).sum
  let o := s.fireGroup ext t stamp group
  o.1.placeShared 5 t stamp fun _ => recTrig mask stamp t causes o.2

/-- The core votes that a source which becomes true drops (R116, R230), logged once. -/
def State.voteDrop (s : State) (ext : Bool) (q t stamp : Nat) : State :=
  if ext then s.coreDrop q t stamp
  else s.setVotes (s.core.votes &&& ~~~(BitVec.ofNat 16
    (((List.range 16).map fun p => if bitOf (s.get (F.AFF_ILKp_TSRC_MASK p)) q then 2 ^ p else 0).sum)))

/-- The sources judged in tick `t`, after its evaluations (R228 to R232). -/
def State.srcTick (s : State) (ext : Bool) (t : Nat) : State :=
  let qs := List.range 16
  let on := qs.map (fun q => s.srcComb t q)
  let rise := qs.filter (fun q => on.getD q false && !(s.core.srcs.val {} q).comb)
  let stamps := rise.map (fun q => (q, s.srcStamp t q))
  let s1 := qs.foldl (fun s q => s.updSrc q fun k => { k with comb := on.getD q false }) s
  let s2 := stamps.foldl (fun s e => s.voteDrop ext e.1 t e.2) s1
  let real := stamps.filter (fun e => (s2.core.srcs.val {} e.1).armed && s2.holdPassed t e.1)
  let forced := qs.filter (fun q => s2.autoDue t q && !(real.any (fun e => e.1 == q)))
  let fires := (real.map (fun e => (e.2, e.1, false)) ++ forced.map (fun q => (t, q, true))).foldr insertFire []
  (uniqSorted (fires.map (·.1))).foldl (fun s st => s.fireStamp ext t fires st) s2

/-! Commands at their ticks. -/

/-- Whether a channel takes a SYNC from a source: 0 the command SYNC, 1 the troupe bus, 2 + u unit u, 18 the
management operation (R182). -/
def State.acceptsSync (s : State) (ch source : Nat) : Bool :=
  if source = 0 ∨ source = 18 then s.on (F.CH_FLT_CFG_SYNC_CMD ch)
  else if source = 1 then s.on (F.CH_FLT_CFG_SYNC_BUS ch)
  else s.on (F.CH_FLT_CFG_SYNC_TCMP ch) && s.get (F.CH_FLT_CFG_SYNC_UNIT ch) == source - 2

/-- The condition whose configuration an address holds (R244). -/
def cndOfAddr (a : Nat) : Option Nat :=
  if R.TRG_CNDc_CFG 0 ≤ a ∧ a < R.TRG_CNDc_CFG 64 then some ((a - R.TRG_CNDc_CFG 0) / 0x20) else none

/-- What a journaled command does to conditions, sources and votes in the tick it takes effect (R342). A condition whose
configuration is written starts afresh (R244). -/
def State.applyCmd (s : State) (t : Nat) : CoreCmd → State
  | .enableFast ch => s.clearWatch t ch false
  | .disableFast _ => s
  | .srcArm q => (s.updSrc q fun k => if k.armed then k else { k with armed := true, autoFrom := t }).put
      (F.TRG_SRCq_CTRL_ARMED q) 1
  | .srcDisarm q => (s.updSrc q fun k => { k with armed := false }).put (F.TRG_SRCq_CTRL_ARMED q) 0
  | .rearm pins => s.setVotes (s.core.votes ||| pins)
  | .rearmTest pins =>
    let ok := maskWhere pins s.coreClear
    (s.rearmDone ok).rearmRefused (pins &&& ~~~ok)
  | .sync source =>
    (s.core.fast.map (·.1)).foldl (fun s ch =>
      if (s.core.fast.val {} ch).on && s.acceptsSync ch source then s.clearWatch t ch true else s) s
  | .trigger ident stamp => s.raiseCnds t stamp fun w => cndType w == 10 && cndSel w == ident
  | .bus lines stamp => s.raiseCnds t stamp fun w => cndType w == 9 && lines.getLsbD (cndSel w % 8)
  | .tcmp u stamp => s.raiseCnds t stamp fun w => cndType w == 7 && cndSel w == u
  | .edge input rising stamp => s.raiseCnds t stamp fun w =>
      cndType w == 8 && cndSel w % 4 == input && (cndDir w == 2 || cndDir w == (if rising then 0 else 1))
  | .slowRestart ch _ => s.clearWatch t ch false
  | .takeover _ => s
  | .regWrite a _ => match cndOfAddr a with | some c => s.clearCnd c | none => s

/-- The journaled armings of the ticks that pass a test (R461). -/
def State.armsOf (s : State) (p : Nat → Bool) : State :=
  (s.red.journal.filter (fun e => p e.1 && e.2.arms)).foldl (fun s e => s.applyCmd e.1 e.2) s

/-- An NSP trigger discarded (R226, R462). -/
def State.refuseTrigger (s : State) (ident stamp : Nat) : State :=
  (s.flag F.TRG_ALERT_NSP_REFUSED).event Ev.TRG_REFUSED (evSource 6 0) [.h ident, .t stamp]

/-- The NSP triggers discarded that the journal holds for the ticks that pass a test (R462). -/
def State.triggersLost (s : State) (p : Nat → Bool) : State :=
  (s.red.journal.filter (fun e => p e.1)).foldl (fun s e => match e.2 with | .trigger i st => s.refuseTrigger i st | _ => s) s

/-- The tick in which a command taken in the tick in hand acts in the core: this tick where the core has not
judged it yet, otherwise the next (R226). -/
def State.coreSoon (s : State) : Nat := if s.core.pos < s.tick ∨ s.red.bump.isSome then s.tick else s.tick + 1

/-- Whether evaluations that take effect in tick `t` count: the hub is in RUN or LIMP in it (R462). -/
def State.trigLive (s : State) (t : Nat) : Bool :=
  s.running || (s.sys.mode == .trim && (match s.cal.trimStart with | some b => decide (t < b) | none => false))

/-- The state conditions and events of tick `t` brought up to date (R224 to R227): the entries of the
journal, the raw-normalised samples of tick t − 2 and the outputs that take effect. -/
def State.cndTick (s : State) (t : Nat) : State :=
  let s0 := { s with core := { s.core with conds := s.core.conds.map (fun (e : Nat × CondSt) => (e.1, ({ e.2 with evStamp := none, changed := false } : CondSt))) } }
  let s1 := (s0.red.journal.filter (fun e => e.1 == t)).foldl (fun s e => s.applyCmd t e.2) s0
  let raw := match s1.core.rawPrev with
    | some (n, xs) => if n + 2 = t then xs else []
    | none => []
  let s2 := (List.range 64).foldl (fun s c =>
    let w := s.cndCfg t c
    if cndSignal w && !(cndSrc w) then
      match raw.find? (fun e => e.1 == cndCh w) with
      | some (_, x) => s.evalCnd t c x.out (t - 2)
      | none => s
    else s) s1
  let due := s2.core.evals.filter (fun e => decide (e.take ≤ t))
  let s3 := { s2 with core := { s2.core with evals := s2.core.evals.filter (fun e => decide (t < e.take)) } }
  due.foldl (fun s e => (List.range 64).foldl (fun s c =>
    let w := s.cndCfg t c
    if cndSignal w && cndSrc w && cndCh w == e.ch then s.evalCnd t c e.w e.stamp else s) s) s3

/-- Tick `t` of the trigger conditions and sources (R224 to R232, R462). In a tick of a trim nothing is evaluated, an NSP trigger that was to act in
it is discarded, and armings act. -/
def State.trigTick (s : State) (ext : Bool) (t : Nat) : State :=
  if s.trigLive t then
    let s1 := s.cndTick t
    let s2 := if ext then (List.range 64).foldl (fun u c =>
        if (s1.core.conds.look c).isSome then u.showCnd c { (s1.core.conds.val {} c) with changed := false } else u) s1 else s1
    s2.srcTick ext t
  else
    let s1 := (if ext then s.triggersLost (· == t) else s).armsOf (· == t)
    { s1 with core := { s1.core with evals := s1.core.evals.filter (fun e => decide (t < e.take)), rawPrev := none } }

end Sys2Proof.Machine
end

