-- ==== Sys2Proof/Machine/CoreTick.lean ====
section
/-! DEFINITION. CoreTick.lean: what the core that holds the active role does with one input tick (R35, R36):
filter chains, the record builder, slow samples, triggers and votes; and a replay of input ticks (R339). -/
namespace Sys2Proof.Machine

/-! Samples of an input tick (R17, R339). -/

/-- The raw20 word of slice `i` at tick `n`, from the safety net, or from RAW where the net no longer holds
the tick (R17, R347). -/
def State.codeAt (s : State) (n i : Nat) : Option (BitVec 20) :=
  match s.netTick with
  | some t =>
    if n ≤ t ∧ t < n + Config.netTicks then some (recordSlot 0 s.net8 (n % Config.netTicks * Config.tickBytes) i)
    else (s.slotOf n).map (fun k => s.ringWord k i)
  | none => (s.slotOf n).map (fun k => s.ringWord k i)

/-- The fast channels whose samples the core needs: those whose chain runs, and those that a condition on raw
samples watches. -/
def State.needed (s : State) (t : Nat) : List Nat :=
  (s.core.fast.filter (fun c => c.2.on)).map (·.1)
    ++ (List.range 64).filterMap (fun c => let w := s.cndCfg t c
        if cndSignal w && !(cndSrc w) && decide (cndCh w < 192) then some (cndCh w) else none)

/-- Whether a channel's slot of tick `n` was found uncorrectable in the safety net and in RAW: it counts as FAILED (R345). -/
def State.slotBad (s : State) (n ch : Nat) : Bool :=
  s.red.eccTicks.any fun e => e.1 == n && (match s.feeder ch n with | some sl => e.2.contains sl | none => false)

/-- The normalised samples of tick `n` (R95): as the collector delivered them, or made again from the raw20
words in a replay, but for the slots that count as FAILED there (R345). -/
def State.samplesAt (s : State) (n : Nat) : List (Nat × FSample) :=
  let l := match s.fe.dlv with
    | some d => if d.tick = n then d.samples else
      (s.needed (n + 1)).filterMap fun ch =>
        (s.feeder ch n).bind fun sl => (s.codeAt n sl).bind fun w => (s.normSample ch sl n w).map fun x => (ch, x)
    | none => []
  if s.red.eccTicks.isEmpty then l else l.filter fun e => !s.slotBad n e.1

/-! The record builder (R199, R200). -/

/-- The open records replaced. -/
def State.setRecs (s : State) (r : List OpenFast) : State := { s with core := { s.core with openRecs := r } }

/-- The grid ticks, frame and epoch make a REC_FAST go on with an output (R200). -/
def OpenFast.takes (o : OpenFast) (p epoch tag : Nat) : Bool :=
  o.epoch == epoch && o.nextK == tag && (tag - p) / Config.frame == tag / Config.frame

/-- An open REC_FAST is finished and placed at the last tick of its epoch (R199, R214). -/
def State.endFast (s : State) (o : OpenFast) : State :=
  let s1 := s.setRecs (s.core.openRecs.filter (fun r => r.ch != o.ch))
  s1.placeChan o.ch 6 (o.epoch * Config.epoch + (Config.epoch - 1)) o.first
    (recFast (s.atSrcAt o.first) false (s.chanWord o.ch o.subtick) o.first (s.fltP o.ch) o.words.reverse)

/-- An output put into the channel's REC_FAST, which a break in the run ends first (R200). -/
def State.addFast (s : State) (ch n tag : Nat) (y : OSample) : State :=
  let p := s.fltP ch
  let epoch := n / Config.epoch
  let fresh : OpenFast := ⟨ch, epoch, tag + s.fltDelta2 ch / 2, s.fltSub ch, tag + p, [y.word]⟩
  let more (r : OpenFast) : OpenFast := if r.ch = ch then { r with nextK := tag + p, words := y.word :: r.words } else r
  match s.core.openRecs.find? (fun r => r.ch == ch) with
  | some o =>
    if o.takes p epoch tag then s.setRecs (s.core.openRecs.map more)
    else let s1 := s.endFast o; s1.setRecs (s1.core.openRecs ++ [fresh])
  | none => s.setRecs (s.core.openRecs ++ [fresh])

/-- At the last input tick of an epoch every open REC_FAST is finished (R200). -/
def State.endEpoch (s : State) (n : Nat) : State :=
  if n % Config.epoch = Config.epoch - 1 then
    (s.core.openRecs.filter (fun o => o.epoch == n / Config.epoch)).foldl (fun s o => s.endFast o) s
  else s

/-! One channel in one input tick. -/

/-- A fast chain of the core changed. -/
def State.updFast (s : State) (ch : Nat) (f : FastCh → FastCh) : State :=
  { s with core := { s.core with fast := s.core.fast.upd {} ch f } }

/-- A chain restarts at Ts (R182): zero state, and the open record of the channel ends. -/
def State.restartFast (s : State) (ch ts : Nat) : State :=
  let s1 := match s.core.openRecs.find? (fun r => r.ch == ch) with
    | some o => s.endFast o
    | none => s
  s1.updFast ch fun _ => s1.zeroChain ch ts

/-- An output released in tick `n` (R188, R226): its evaluation waits, and it becomes a record or is
suppressed. -/
def State.fastOut (s : State) (ext : Bool) (ch n tag : Nat) (y : OSample) (clip : Bool) : State :=
  let t64 := tag + s.fltDelta2 ch / 2
  let s1 := if clip && ext then (s.flag F.FLT_ALERT_SAT).countUp F.FLT_STAT_SAT_CNT else s
  let s2 := { s1 with core := { s1.core with evals := s1.core.evals ++ [({ ch := ch, stamp := t64, take := n + 1, w := y } : Eval)] } }
  let c := s2.core.fast.val {} ch
  if s2.on (F.CH_FLT_CFG_RED_EN ch) then
    if reducerEmits c.fresh c.ref (s2.get (F.CH_FLT_DB_DB ch)) (s2.get (F.CH_FLT_M_M ch)) c.silent y then
      (s2.updFast ch fun c => { c with fresh := false, ref := some y, silent := 0 }).placeChan ch 7 n t64
        (recChange (s2.atSrcAt t64) (s2.chanWord ch (s2.fltSub ch)) t64 y.word c.silent none)
    else s2.updFast ch fun c => { c with fresh := false, silent := c.silent + 1 }
  else (s2.updFast ch fun c => { c with fresh := false }).addFast ch n tag y

/-- One channel in input tick `n` (R170 to R188): a tick without a sample opens a gap in the chain, and the
first sample after it restarts the chain. A clip of the skew corrector sets FLT_ALERT.SAT whether or not an output is
made of it (R192). -/
def State.fastTick (s : State) (ext : Bool) (n : Nat) (xs : List (Nat × FSample)) (ch : Nat) : State :=
  let c := s.core.fast.val {} ch
  if ¬ c.on ∨ ¬ s.convertsAt ch n then s
  else match xs.find? (fun e => e.1 == ch) with
    | none => if c.gapFrom.isSome then s else s.updFast ch fun c => { c with gapFrom := some n }
    | some (_, x) =>
      let s1 := if c.gapFrom.isSome then s.restartFast ch n else s
      let o := s1.chainStep ch n (s1.core.fast.val {} ch) x
      let s2 := (if ext && o.1.clips.contains n then s1.flag F.FLT_ALERT_SAT else s1).updFast ch fun _ => o.1
      match o.2 with
      | some (tag, y, clip) => s2.fastOut ext ch n tag y clip
      | none => s2

/-- Whether a channel has a sample in tick `t` (R96, R108), as far as the front end settles it by then: from the spare that is
on its way, or from the slice that the substitution journal names where it is in service and its slot counts (R345). -/
def State.fedAt (s : State) (t ch : Nat) : Bool :=
  let k := s.fe.banks.val {} (ch / 24)
  s.convertsAt ch t && !(s.slotBad t ch) &&
    (if k.pend && k.input == some (ch % 24) then decide (k.liveFrom ≤ t)
    else match s.feeder ch t with
      | none => false
      | some sl =>
        match (match s.netTick with | some u => if t ≤ u then s.codeAt t sl else none | none => none) with
        | some w => !isMarker w
        | none => !(s.part.slices.contains sl))

/-- In the tick in which a gap of a channel ends, the conditions that watch it start afresh (R461). -/
def State.gapEnds (s : State) (t : Nat) : State :=
  ((s.core.fast.filter (fun c => c.2.on && c.2.gapFrom.isSome && s.fedAt t c.1)).map (·.1)).foldl
    (fun (s : State) ch => s.clearWatch t ch false) s

/-- What a journaled command does to the chains at input tick `n` (R182, R186, R189). -/
def State.applyChain (s : State) (n : Nat) : CoreCmd → State
  | .enableFast ch => s.restartFast ch n
  | .disableFast ch =>
    let s1 := match s.core.openRecs.find? (fun r => r.ch == ch) with
      | some o => s.endFast o
      | none => s
    { s1 with core := { s1.core with fast := s1.core.fast.drop ch } }
  | .sync source =>
    (s.core.fast.map (·.1)).foldl (fun s ch =>
      if (s.core.fast.val {} ch).on && s.acceptsSync ch source then s.restartFast ch n else s) s
  | .slowRestart ch enable => s.updSlow ch fun c => c.restart enable
  | .takeover ch => s.updSlow ch fun c => c.restart false
  | _ => s

/-- A command that the core acts on at tick `t` is journaled (R342). Outside RUN and LIMP, where the core does
not run, it acts at once; where the core has judged tick `t` already, what it does in that tick is done now. -/
def State.coreCmd (s : State) (t : Nat) (c : CoreCmd) : State :=
  let s1 := s.journalCmd t c
  if ¬ s.running then (s1.applyChain t c).applyCmd t c
  else if t ≤ s.core.pos then s1.applyCmd t c else s1

/-- Whether what the core shows outside itself for input tick `n` has not been shown before a switch-over
(R341): the failed core's work on input ticks below `done` was accepted. -/
def State.fresh (s : State) (n : Nat) : Bool :=
  match s.red.bump with
  | some b => decide (b.done ≤ n)
  | none => true

/-- The words that stood in registers of the core's chains before writes that act later than tick `n` (R25, R342): a replay, and a core that is a
tick behind, read these. -/
def State.oldWords (s : State) (n : Nat) : List (Nat × Word) :=
  s.red.journal.filterMap fun e => match e.2 with
    | .regWrite a w => if n < e.1 ∧ coreChan a then some (a, w) else none
    | _ => none

/-- Work of the core with the words of its chains' registers as they stand at tick `n`. -/
def State.asOf (s : State) (n : Nat) (f : State → State) : State := s.withWords (s.oldWords n) f

/-- Whether tick `n` lies in a full trim, in which no fast input has a sample (R47). -/
def State.trimAt (s : State) (n : Nat) : Bool :=
  s.sys.mode == .trim && (match s.cal.trimStart with | some b => decide (b ≤ n) | none => false)

/-- What input tick `n` does to the chains (R35): journal entries, fast samples and the slow samples released in it. -/
def State.coreChains (s : State) (ext : Bool) (n : Nat) (xs : List (Nat × FSample)) : State :=
  let s1 := (s.red.journal.filter (fun e => e.1 == n)).foldl (fun s e => s.applyChain n e.2) s
  let s2 := if s1.trimAt n then s1 else (s1.core.fast.map (·.1)).foldl (fun s ch => s.fastTick ext n xs ch) s1
  let recs := s2.slow.aux.reverse.filter (fun r => slotTick r.1 == n && r.2.sensor != noSample)
  recs.foldl (fun s r =>
    let u := s.slowProcess ext r.1 r.2
    if ext then u.lifeSample ((r.1.getD 1 0).toNat % 512) (s.slowSample r.1 r.2).1 else u) s2

/-- One input tick processed by the core that holds the active role (R35). -/
def State.coreInput (s : State) (n : Nat) : State :=
  let ext := s.fresh n
  let xs := s.samplesAt n
  let s3 := s.asOf n fun s => s.coreChains ext n xs
  let s4 := s3.asOf (n + 1) fun s => (s.gapEnds (n + 1)).trigTick ext (n + 1)
  let s5 := { s4 with core := { s4.core with rawPrev := some (n, xs), pos := n + 1 } }
  s5.endEpoch n

/-- Input ticks processed in turn. -/
def State.coreRun (s : State) : Nat → State
  | 0 => s
  | k + 1 => (s.coreInput s.core.pos).coreRun k

/-- The input tick that a core has reached when it is up to date: it waits for the collector. In TRIM it stands still once it has taken the first
input tick of the trim, in which a slow sample may be released whose slot ended before it (R212), and it stands wherever no core runs. -/
def State.coreLast (s : State) : Nat :=
  let limit := match s.netTick with
    | some t => min (t + 1) s.tick
    | none => 0
  match s.sys.mode with
  | .run | .limp => limit
  | .trim => (match s.cal.trimStart with | some b => min limit (b + 1) | none => 0)
  | _ => 0

/-- The input ticks that a core completes in the tick in hand (R36, R339): one per tick in real time; in
catch-up three per two ticks, from the end of its loading on; none in TRIM, beyond what the collector has
delivered, or with no core. -/
def State.coreDue (s : State) : Nat :=
  let want := match s.red.bump with
    | some b =>
      if s.red.active.isNone ∨ s.tick < b.d + 30 then 0
      else (b.bstar + 3 * (s.tick + 1 - (b.d + 30)) / 2) - s.core.pos
    | none => if s.red.active.isNone then 0 else 1
  min want (s.coreLast - s.core.pos)

/-- The SLICE_LOST gap of one tick on a channel whose slot counts as FAILED in a replay (R345); at or below the mark it is
discarded with the other regenerated records (R341). -/
def State.gapReplay (s : State) (n what ch : Nat) : State :=
  let key : RecKey := { place := n + 1, rank := 4, ch := s.sys.pos * 512 + ch, first := n }
  match s.red.marks.look (s.get (chNspField ch)) with
  | some k => if key.le k then s else s.gapWhole ch Gap.SLICE_LOST n n what
  | none => s.gapWhole ch Gap.SLICE_LOST n n what

/-- A tick record that a replay is about to read has an uncorrectable ECC error in the safety net (R345): it is read from RAW; where
RAW has one too, the slots it affects count as FAILED for that tick. The source as EV_NET_ECC codes it (open, log 29): 0 RAW, 1 none. -/
def State.netEcc (s : State) (e : Nat × List Nat × Bool) : State :=
  let n := e.1
  if s.red.bump.isNone ∨ n < s.core.pos ∨ s.core.pos + s.coreDue ≤ n then s
  else
    let s1 := s.event Ev.NET_ECC (evSource 11 0) [.t n, .h (Config.eventCode Ev.NET_ECC (b2n e.2.2))]
    if ¬ e.2.2 then s1
    else
      let s2 := { s1 with red := { s1.red with eccTicks := (n, e.2.1) :: s1.red.eccTicks } }
      ((s2.core.fast.filter (fun c => c.2.on && s2.slotBad n c.1)).map (·.1)).foldl
        (fun s ch => s.gapReplay n ((s.feeder ch n).getD 0) ch) s2

/-- What a replay finds of the tick records that it reads in this tick (R345): which have an uncorrectable error is a free value (log 62). -/
def State.netRead (s : State) : State :=
  match s.red.bump with
  | none => s
  | some b => (List.range s.coreDue).foldl (fun (t : State) i =>
      match Config.netError b.d (s.core.pos + i) with | some e => t.netEcc (s.core.pos + i, e) | none => t) s

/-- CORE_TICK_PROCESS (R35): the core that holds the active role processes what is due. Case 3 of R434 may arise in it. -/
def execCoreTickProcess (s : State) : Host.Outcome State Fault Refusal :=
  let s1 := s.netRead
  (s1.coreRun s1.coreDue).finish

end Sys2Proof.Machine
end

