-- ==== Sys2Proof/Machine/Coef.lean ====
section
/-! DEFINITION. Coef.lean: coefficient sets, what brings them into force, and REC_COEF (R208, R376). -/
namespace Sys2Proof.Machine

/-! Entries (R208). -/

/-- The channel whose field-zero part goes with a slice: its own, or the one a spare stands in for (R374). -/
def State.sliceFor (s : State) (i : Nat) : Option Nat :=
  match sliceChannel i with
  | some ch => some ch
  | none => let k := s.fe.banks.val {} (i / 25); if k.standing then k.input.map (fun j => 24 * (i / 25) + j) else none

/-- The designator of slice `i` in REC_COEF (R208). -/
def sliceDesignator (i : Nat) : Nat := match sliceChannel i with | some ch => ch | none => 192 + i / 25

/-- The field-zero part in steps of 0.3 µV (R359). -/
def fzSteps (fz : Int) : Int := rhe (fz * 298023) 300000

/-- Two 16-bit fields in a word. -/
def pack16 (lo hi : Int) : Word := wd (tw 16 lo + tw 16 hi * 2 ^ 16)

/-- The entry of one slice (R208, R357): under TAPS its O, G and μ read 0, under DIGITAL its tap part. -/
def State.sliceEntry (s : State) (c : CoefSet) (i : Nat) : List Word :=
  let e := c.slices.val {} i
  let fz := match s.sliceFor i with | some ch => c.fz.val 0 ch | none => 0
  let o (r : Nat) : Int := if c.digital then offsetSum (e.o.getD r 0 + fz) else 0
  let g (r : Nat) : Word := if c.digital then wd (tw 24 (e.g.getD r 0)) else 0
  [wd (2 ^ 28 + sliceDesignator i + tw 9 (if c.digital then 0 else e.tap) * 2 ^ 19), pack16 (o 0) (o 1), pack16 (o 2) (o 3),
    g 0, g 1, g 2, g 3, wd (tw 16 (if c.digital then e.mu else 0))]

/-- The entry of one slow converter. -/
def convEntry (c : CoefSet) (q : Nat) : List Word :=
  let e := c.convs.val {} q
  let o (r : Nat) : Int := e.o.getD r 0
  [wd (2 * 2 ^ 28 + q % 32), pack16 (o 0) (o 1), pack16 (o 2) (o 3), pack16 (o 4) (o 5), pack16 (o 6) (o 7)]
    ++ (List.range 8).map (fun r => wd (tw 24 (e.g.getD r 0)))

/-- The entry of one channel's polynomial. -/
def polyEntry (ch : Nat) (slots : List (Word × Word)) : List Word :=
  wd (3 * 2 ^ 28 + ch % 512 + slots.length % 32 * 2 ^ 16) :: slots.flatMap (fun p => [wd (p.1.toNat % 256), p.2])

/-- The slices in ascending designator. -/
def slicesInOrder : List Nat := (List.range 192).map ownSlice ++ (List.range 8).map spareSlice

/-- Every entry of a set, ascending kind and index (R208). -/
def State.fullEntries (s : State) (c : CoefSet) : List (List Word) :=
  slicesInOrder.map (s.sliceEntry c) ++ (List.range 18).map (convEntry c)
    ++ (c.polys.filter (fun p => !p.2.isEmpty)).map (fun p => polyEntry p.1 p.2)

/-- The offset and gain taps of a slice, which its entry does not hold: 0 under DIGITAL (R357). -/
def State.sliceTaps (s : State) (c : CoefSet) (i : Nat) : List Int :=
  if c.digital then List.replicate 8 0
  else
    let e := c.slices.val {} i
    let fz := match s.sliceFor i with | some ch => fzSteps (c.fz.val 0 ch) | none => 0
    (List.range 4).map (fun r => e.ofsTap.getD r 0 + fz) ++ (List.range 4).map (fun r => e.gainTap.getD r 0)

/-- The entries of a set that differ from those of the set before it, and those of slices whose taps do (R357). -/
def State.changedEntries (s : State) (was c : CoefSet) : List (List Word) :=
  (slicesInOrder.filter (fun i => s.sliceEntry c i != s.sliceEntry was i || s.sliceTaps c i != s.sliceTaps was i)).map (s.sliceEntry c)
    ++ ((List.range 18).filter (fun q => convEntry c q != convEntry was q)).map (convEntry c)
    ++ (c.polys.filter (fun p => p.2 != was.polys.val [] p.1)).map (fun p => polyEntry p.1 p.2)

/-- Entries put into parts of at most 1,018 words, none split (R194, R208). -/
def coefParts : List Word → List (List Word) → List (List Word)
  | cur, [] => [cur]
  | cur, e :: r => if cur.length + e.length ≤ 1018 then coefParts (cur ++ e) r else cur :: coefParts e r

/-- REC_COEF in its parts (R208). -/
def State.recCoef (s : State) (t : Nat) (c : CoefSet) (full : Bool) (entries : List (List Word)) : List (List Word) :=
  let crc := wd (crc32cWords (s.fullEntries c).flatten)
  let parts := coefParts [] entries
  (List.range parts.length).map fun i =>
    mkRec 6 (i % 4096 + b2n (i + 1 == parts.length) * 4096)
      (tickWords t ++ [wd c.serial, wd (c.origin % 4 + b2n c.digital * 4 + b2n full * 8), crc] ++ parts.getD i [])

/-- A set announced at its boundary on every live stream (R208). -/
def State.announce (s : State) (t : Nat) (c : CoefSet) (full : Bool) (entries : List (List Word)) : State :=
  (s.recCoef t c full entries).foldl (fun s r => s.placeShared 2 t t fun _ => r) s

/-! Changes (R376). -/

/-- A change that waits for a frame boundary. -/
def State.changeCoef (s : State) (bound origin : Nat) (g : CoefChg) : State :=
  { s with cal := { s.cal with due := s.cal.due ++ [(bound, origin, g)] } }

/-- A set with one change. -/
def CoefSet.change (c : CoefSet) (g : CoefChg) : CoefSet :=
  let c1 := match g.slice with | some (i, e) => { c with slices := c.slices.set i e } | none => c
  let c2 := match g.conv with | some (q, e) => { c1 with convs := c1.convs.set q e } | none => c1
  let c3 := match g.poly with | some (ch, p) => { c2 with polys := c2.polys.set ch p } | none => c2
  let c4 := match g.fz with | some (ch, v) => { c3 with fz := c3.fz.set ch v } | none => c3
  match g.method with | some d => { c4 with digital := d } | none => c4

/-- Origin of a set (R376): 1 if it ends a full trim, otherwise 3 if it holds a polynomial or sensor change,
otherwise 2. -/
def originOf (os : List Nat) : Nat := if os.contains 1 then 1 else if os.contains 3 then 3 else 2

/-- The changes due at frame boundary `t` come into force as one new set, announced by REC_COEF (R208, R376):
in FULL form after a full trim and at a multiple of 60 s. CAL_STAT.SETS counts those that hold results of rolling trim (R381). A sensor's set is in force with the polynomial of its template (R164). -/
def State.activate (s : State) (t : Nat) : State :=
  let due := s.cal.due.filter (fun e => decide (e.1 ≤ t))
  if due.isEmpty then s
  else
    let was := s.cal.cur
    let origin := originOf (due.map (·.2.1))
    let c1 := due.foldl (fun c e => CoefSet.change c e.2.2) was
    let c := { c1 with serial := (was.serial + 1) % 2 ^ 32, origin := origin }
    let full := origin == 1 || t % 120000000 == 0
    let cal := { s.cal with cur := c, due := s.cal.due.filter (fun e => decide (t < e.1)), hist := (t, c) :: s.cal.hist }
    let s1 := { s with cal := cal }
    let fresh (e : Nat × Sid) : Bool := e.2.valid && due.any (fun d => d.2.2.poly == some (e.1, tmplSlots e.2.tmpl))
    let s2 := { s1 with sid := s1.sid.map (fun (e : Nat × Sid) => if fresh e then (e.1, ({ e.2 with stale := false } : Sid)) else e) }
    let s3 := if due.any (fun e => e.2.1 == 2 && e.2.2.slice.isSome) then s2.countUp F.CAL_STAT_SETS else s2
    s3.announce t c full (if full then s3.fullEntries c else s3.changedEntries was c)

/-- The set formed at LOAD announced in FULL form at the first tick of the full trim that follows (R208). -/
def State.announceLoad (s : State) (t : Nat) : State :=
  if s.cal.announced then s
  else ({ s with cal := { s.cal with announced := true } }).announce t s.cal.cur true (s.fullEntries s.cal.cur)

/-- COEF_SET_ACTIVATION (R376): at a frame boundary the changes due come into force; at the first frame
boundary of TRIM after LOAD the set formed at LOAD is announced. In the other modes no set changes. -/
def execCoefSetActivation (s : State) : Host.Outcome State Fault Refusal :=
  let t := s.tick
  if t % Config.frame ≠ 0 then .next s
  else if s.sys.mode = .trim then .next ((s.announceLoad t).activate t)
  else if s.running then .next (s.activate t)
  else .next s

/-- COEF_REPEAT (R208): at a frame boundary that is a multiple of 60 s the set in force is repeated in FULL
form, unless a new set came into force, and was announced, at that boundary. -/
def execCoefRepeat (s : State) : Host.Outcome State Fault Refusal :=
  let t := s.tick
  let now := match s.cal.hist with | (b, _) :: _ => b == t && decide (1 < s.cal.cur.serial) | [] => false
  if (s.running || decide (s.sys.mode = .trim)) && decide (t % 120000000 = 0) && !now && s.cal.due.all (fun e => decide (t < e.1)) then
    .next (s.announce t s.cal.cur true (s.fullEntries s.cal.cur))
  else .next s

end Sys2Proof.Machine
end

