-- ==== Sys2Proof/Machine/Collect.lean ====
section
/-! DEFINITION. Collect.lean: the sample collector (R9, R17, R220) and what listens to it below the
redundancy boundary: the sums of rolling trim (R367 to R369) and of a field zero (R373). -/
namespace Sys2Proof.Machine

/-! Rolling trim: the pairs of a slot (R366 to R369). -/

/-- Ticks of a rolling-trim slot (R365). -/
def rtSlot : Nat := 1050000

/-- The pair of a bank in a tick: the channel's sample and the spare's, each with its own coefficients, where
both are live and in one range (R367). -/
def State.rtPair (s : State) (b i : Nat) (c : ConvTick) : Option (FSample × FSample) :=
  let ch := 24 * b + i
  let own := c.words.getD (ownSlice ch) (marker 0)
  let sp := c.words.getD (spareSlice b) (marker 0)
  match s.normSample ch (ownSlice ch) c.tick own, s.normSample 192 (spareSlice b) c.tick sp with
  | some x, some y => if x.r = y.r then some (x, y) else none
  | _, _ => none

/-- d of R368 for a pair. -/
def pairD (fz : Int) (p : FSample × FSample) : Int := p.1.x - p.2.x + fz

/-- Whether a pair carries OVR or DIP. -/
def pairBad (p : FSample × FSample) : Bool := p.1.ovr || p.1.dip || p.2.ovr || p.2.dip

/-- An evaluated pair added to the sums of its range (R368): x is the spare's sample, 2v the difference of its
neighbours. -/
def RtSum.add (k : RtSum) (x d v2 : Int) : RtSum :=
  { n := k.n + 1, sx := k.sx + x, sd := k.sd + d, sv2 := k.sv2 + v2, sxx := k.sxx + x * x,
    svv4 := k.svv4 + v2 * v2, sxv2 := k.sxv2 + x * v2, sxd := k.sxd + x * d, svd2 := k.svd2 + v2 * d }

/-- Whether a tick lies in the evaluated span of the slot that began at `start` (R365). -/
def rtSpan (start n : Nat) : Bool := decide (start + 1000 ≤ n) && decide (n < start + 1049576)

/-- The run of identical codes after one conversion of the visited slice (R107): `w` is its raw20 word, `y` that of the spare. The codes
are compared, whatever their ranges. -/
def StuckRun.add (k : StuckRun) (w y : BitVec 20) : StuckRun :=
  if isMarker w || isMarker y then {}
  else
    let c := rawCode y
    if k.n ≠ 0 ∧ rawCode k.word = rawCode w then { k with n := k.n + 1, sum := k.sum + c, sq := k.sq + c.natAbs * c.natAbs }
    else { word := w, n := 1, sum := c, sq := c.natAbs * c.natAbs }

/-- A bank's rolling trim after one tick of the collector (R107, R367 to R369). -/
def State.rtTick (s : State) (c : ConvTick) (b : Nat) : State :=
  let k := s.cal.rt.val {} b
  match k.input with
  | none => s
  | some i =>
    let ch := 24 * b + i
    if ¬ s.convertsAt ch c.tick then s
    else
      let step := 2 ^ s.srdK ch
      let fz := (s.coefAt c.tick).fz.val 0 ch
      let p := s.rtPair b i c
      let k1 := match p, k.p1 with
        | some q, some q1 =>
          if rtSpan k.start c.tick then
            let thr : Int := s.get F.CAL_OUT_THR_VALUE * 4 ^ (3 - q.1.r)
            let hit := decide (thr < ((pairD fz q - pairD fz q1).natAbs : Int))
            { k with pairs := k.pairs + 1, outliers := k.outliers + b2n hit }
          else k
        | some _, none => if rtSpan k.start c.tick then { k with pairs := k.pairs + 1 } else k
        | none, _ => k
      let k2 := match p, k.p1, k.p2 with
        | some q, some q1, some q2 =>
          if rtSpan k.start (c.tick - step) && q.1.r == q1.1.r && q1.1.r == q2.1.r
              && !(pairBad q || pairBad q1 || pairBad q2) then
            { k1 with sums := k1.sums.upd {} q1.1.r fun a => a.add q1.2.x (pairD fz q1) (q.2.x - q2.2.x) }
          else k1
        | _, _, _ => k1
      let run := k.stuck.add (c.words.getD (ownSlice ch) (marker 0)) (c.words.getD (spareSlice b) (marker 0))
      { s with cal := { s.cal with rt := s.cal.rt.set b { k2 with p1 := p, p2 := k.p1, stuck := run } } }

/-! Field zero (R373). -/

/-- Ticks of a field-zero span (R373). -/
def fzTicks : Nat := 65536

/-- Whether a tick of a fast channel lies in a gap whose samples the collector delivers all the same (R373): its EN is not in force, or a full trim
or HOLD has begun. -/
def State.fzGap (s : State) (ch t : Nat) : Bool :=
  (match s.sys.openGap.look ch with | some g => decide (g.2.1 ≤ t) | none => false)
    || (match s.cal.trimStart with | some f => decide (f ≤ t) | none => false)
    || (match s.red.holdAt with | some h => decide (h ≤ t) | none => false)

/-- A field zero after one tick of the collector (R373). -/
def State.fzTick (s : State) (d : Delivered) : State :=
  match s.cal.fzRun with
  | none => s
  | some z =>
    if d.tick < z.start ∨ z.start + fzTicks ≤ d.tick ∨ ¬ s.convertsAt z.ch d.tick then s
    else
      let z1 := match d.samples.find? (fun e => e.1 == z.ch) with
        | none => { z with cause := if z.cause = 0 then 5 else z.cause }
        | some (_, x) =>
          let r0 := z.range.getD x.r
          let cause := if z.cause ≠ 0 then z.cause else if s.fzGap z.ch d.tick then 5 else if x.r ≠ r0 then 2 else if x.ovr then 3 else if x.dip then 4 else 0
          { z with sum := z.sum + x.x, n := z.n + 1, range := some r0, cause := cause }
      let s1 := { s with cal := { s.cal with fzRun := some z1 } }
      let s2 := s1.put F.CAL_FZ_STAT_STATE 2
      if (s2.cal.rt.val {} (z.ch / 24)).input = some (z.ch % 24) then s2.discardSlot (z.ch / 24) else s2

/-! The collector. -/

/-- What CH_AFE_LAST and CH_AFE_STAT show of the samples delivered (R122). -/
def State.noteSamples (s : State) (xs : List (Nat × FSample)) : State :=
  xs.foldl (fun s e =>
    let f := { s.fe with last := s.fe.last.set e.1 e.2 }
    let g := if e.2.ovr then { f with ovrCnt := f.ovrCnt.upd 0 e.1 fun n => min 65535 (n + 1) } else f
    { s with fe := g }) s

/-- The tick record of `c` written to the safety net and to RAW (R9, R17, R220), unless HOLD has frozen them
(R349); the windows that need the tick pin it (R236). -/
def State.keepTick (s : State) (c : ConvTick) : State :=
  if s.red.frozen then s
  else
    let bytes := tickRecord c.words
    let s1 := { s with
      net8 := Mem.write 0 s.net8 (c.tick % Config.netTicks * Config.tickBytes) bytes
      netTick := some c.tick }
    (s1.rawWrite c.tick bytes).pinTick c.tick

/-- SAMPLE_COLLECT (R9, R35): in the tick after a conversion the collector keeps its tick record, normalises
its samples and delivers them. -/
def execSampleCollect (s : State) : Host.Outcome State Fault Refusal :=
  match s.fe.conv with
  | [] => .next s
  | c :: rest =>
    if s.tick ≤ c.tick then .next s
    else
      let s1 := { s with fe := { s.fe with conv := rest } }
      let s2 := s1.keepTick c
      let d := s2.deliver c
      let s3 := ({ s2 with fe := { s2.fe with dlv := some d } }).noteSamples d.samples
      .next (((List.range 8).foldl (fun s b => s.rtTick c b) s3).fzTick d)

end Sys2Proof.Machine
end

