-- ==== Sys2Proof/Machine/Calib.lean ====
section
/-! DEFINITION. Calib.lean: rolling trim (R365 to R372, R377) and field zero (R373, R374). The estimates of
rolling trim are solved in binary64 (R368, log 10). -/
namespace Sys2Proof.Machine

/-- A fraction rounded to the nearest integer, half to even. -/
def rheQ (q : Rat) : Int := rhe q.num q.den

/-- A fraction from integers; nothing is said of a zero denominator. -/
def ratio (n d : Int) : Rat := (n : Rat) / (d : Rat)

/-- A fraction that nothing determines, by draw number. -/
def freeRatio (k : Nat) : Rat :=
  ratio ((Config.freeNat (2 ^ 64 + 3 * k) : Int) - Config.freeNat (2 ^ 64 + 3 * k + 1)) (Config.freeNat (2 ^ 64 + 3 * k + 2) + 1)

/-- The magnitude of a fraction. -/
def absQ (q : Rat) : Rat := if q < 0 then -q else q

/-! Binary64 (R368). -/

/-- A fraction rounded to binary64, nearest even; the exponents of the sums and estimates stay within its range. -/
def f64 (q : Rat) : Rat :=
  if q = 0 then 0
  else
    let n := q.num.natAbs
    let e := (Nat.log2 n : Int) - Nat.log2 q.den
    let up (k : Int) : Nat × Nat := (n * 2 ^ k.toNat, q.den * 2 ^ (-k).toNat)
    let k := if (up (52 - e)).1 < 2 ^ 52 * (up (52 - e)).2 then 53 - e else 52 - e
    let m : Int := rhe ((up k).1 : Int) (up k).2
    (if q < 0 then -1 else 1) * ratio (m * 2 ^ (-k).toNat) (2 ^ k.toNat)

/-- The sum of two binary64 numbers. -/
def add64 (a b : Rat) : Rat := f64 (a + b)

/-- Their difference. -/
def sub64 (a b : Rat) : Rat := f64 (a - b)

/-- Their product. -/
def mul64 (a b : Rat) : Rat := f64 (a * b)

/-- Their quotient; the divisor is not 0. -/
def div64 (a b : Rat) : Rat := f64 (a / b)

/-! Estimates of one range (R368). -/

/-- What a slot found on one range: pairs, mean and offset, and gain and skew where there is one. -/
structure RtEst where
  n : Nat
  o : Rat
  g : Option Rat
  tau : Option Rat
  /-- |mx| is within FS/100, so an offset alone counts (R369) -/
  nearZero : Bool
  deriving DecidableEq, Repr

/-- The estimates of R368 from the exact sums of a range: means and covariances are their binary64 quotients, and each operation of the solution rounds
to binary64 (log 10). Where the determinant or the variance that divides is 0 the spec states no estimate, and a free value
stands for it. -/
def RtSum.solve (k : RtSum) (r varMin dvarMin free : Nat) : RtEst :=
  let n : Int := k.n
  let cov (p a b d : Int) : Rat := f64 (ratio (n * p - a * b) (d * n * n))
  let cxx := cov k.sxx k.sx k.sx 1
  let cvv := cov k.svv4 k.sv2 k.sv2 4
  let cxv := cov k.sxv2 k.sx k.sv2 2
  let cxd := cov k.sxd k.sx k.sd 1
  let cvd := cov k.svd2 k.sv2 k.sd 2
  let gateX := decide ((varMin * 65536 : Nat) ≤ cxx)
  let gateV := decide ((dvarMin * 65536 : Nat) ≤ cvv)
  let det := sub64 (mul64 cxx cvv) (mul64 cxv cxv)
  let gt : Option Rat × Option Rat :=
    if gateX && gateV then
      if det = 0 then (some (freeRatio free), some (freeRatio (free + 1)))
      else (some (div64 (sub64 (mul64 cxd cvv) (mul64 cvd cxv)) det), some (div64 (sub64 (mul64 cvd cxx) (mul64 cxd cxv)) det))
    else if gateX then (some (if cxx = 0 then freeRatio free else div64 cxd cxx), none)
    else (none, none)
  let o := sub64 (sub64 (f64 (ratio k.sd n)) (mul64 (gt.1.getD 0) (f64 (ratio k.sx n)))) (mul64 (gt.2.getD 0) (f64 (ratio k.sv2 (2 * n))))
  ⟨k.n, if k.n = 0 then 0 else o, gt.1, gt.2, decide ((k.sx.natAbs : Int) * 100 ≤ fullScale r * n)⟩

/-- Whether a range gives a result (R369, items 2 and 3). -/
def RtEst.usable (e : RtEst) : Bool := decide (4096 ≤ e.n) && (e.g.isSome || e.tau.isSome || e.nearZero)

/-- The range with the most evaluated pairs among those that pass a test, the lowest on a tie. -/
def mostPairs (es : List RtEst) (f : RtEst → Bool) : Option Nat :=
  (List.range 4).foldl (fun best r =>
    match es[r]? with
    | some e =>
      if !f e then best
      else match best with
        | some b => if (match es[b]? with | some eb => decide (eb.n < e.n) | none => true) then some r else best
        | none => some r
    | none => best) none

/-- The metric of R371 that a result has at its limit, the first of offset, gain and skew (0, 1, 2) where several have (log 72); `skew` says that the slot's one skew result is this range's (R369). -/
def RtEst.limit (e : RtEst) (k : Nat) (skew : Bool) : Option Nat :=
  if 3356 ≤ absQ e.o then some 0
  else if (match e.g with | some g => decide (ratio 1 1000 ≤ absQ g) | none => false) then some 1
  else if skew && (match e.tau with | some t => decide ((100 : Rat) ≤ absQ t * ratio (500000 * 2 ^ k) 1) | none => false) then some 2
  else none

/-! Updates (R370). -/

/-- A signed value that a field of `n` bits holds, otherwise a free value of that field: the spec states no
result there. -/
def fitField (n free : Nat) (x : Int) : Int := if satI n x = x then x else sx n (Config.freeWord free).toNat

/-- DIGITAL: the hardware part of a slice after a result of one range; `skew` says that the skew result comes
from this range. -/
def SliceCoef.digitalUp (c : SliceCoef) (r k : Nat) (muSpare : Int) (e : RtEst) (skew : Bool) (free : Nat) : SliceCoef :=
  let gr := c.g.getD r 0
  let o' := fitField 16 free (rheQ ((c.o.getD r 0 : Rat) + e.o * ratio (2 ^ 31) (2 ^ 31 + gr)))
  let g' := match e.g with
    | some g => fitField 24 (free + 1) (rheQ (if 1 + g = 0 then freeRatio (free + 2) else ratio (2 ^ 31 + gr) 1 / (1 + g)) - 2 ^ 31)
    | none => gr
  let mu' := match skew, e.tau with
    | true, some t => fitField 16 (free + 3) (rheQ ((muSpare : Rat) + t * ratio (2 ^ k * 65536) 1))
    | _, _ => c.mu
  { c with o := c.o.set r o', g := c.g.set r g', mu := mu' }

/-- TAPS: the taps of a slice after a result of one range (R370). -/
def SliceCoef.tapsUp (c : SliceCoef) (r k : Nat) (e : RtEst) (skew : Bool) : SliceCoef :=
  let o' := c.ofsTap.getD r 0 + rheQ (e.o * ratio 298023 300000)
  let g' := match e.g with | some g => c.gainTap.getD r 0 + rheQ (g * 2000000) | none => c.gainTap.getD r 0
  let t' := match skew, e.tau with
    | true, some t => c.tap - rheQ (t * ratio (2 ^ k * 400000) 1)
    | _, _ => c.tap
  { c with ofsTap := c.ofsTap.set r o', gainTap := c.gainTap.set r g', tap := t' }

/-- The first tap of a slice beyond its range of R357: 0 offset, 1 gain, 2 skew. -/
def SliceCoef.tapBeyond (c : SliceCoef) (fz user : Int) : Option Nat :=
  if c.ofsTap.any (fun t => decide (6666 < ((t + fzSteps fz).natAbs : Int))) then some 0
  else if c.gainTap.any (fun t => decide (4000 < (t.natAbs : Int))) then some 1
  else if c.tap + user < -256 ∨ 255 < c.tap + user then some 2
  else none

/-- The user part of a channel's sampling tap (R103). -/
def State.tapUser (s : State) (ch : Nat) : Int := s.getI (F.CH_AFE_TAP_TAP_USER ch)

/-! The end of a slot (R369 to R372, R377). -/

/-- The figures of a visited channel (R377), whether the result was accepted or rejected: those of the range with the most evaluated pairs among the
ranges that give a result, or, where none does, among all (R376). -/
def State.showFigures (s : State) (ch k : Nat) (es : List RtEst) (result : Nat) (limit : Bool) (ppm : Nat) : State :=
  let r := (mostPairs es RtEst.usable).getD ((mostPairs es fun e => e.n != 0).getD 0)
  let e : Option RtEst := if es.any (fun e => e.n != 0) then es[r]? else none
  let w (q : Option Rat) (n d : Int) : Word := wd (tw 16 (satI 16 (rheQ ((q.getD 0) * ratio n d))))
  let s1 := ((((s.put (F.CH_CAL_RUN_RESULT ch) result).put (F.CH_CAL_RUN_RANGE ch) r).put (F.CH_CAL_RUN_PLAUS ch) (b2n limit)).put
    (F.CH_CAL_RUN_OUT_PPM ch) (min 65535 ppm))
  ((s1.wr (R.CH_CAL_Q_OFS ch) (w (e.map (·.o)) 298023 10000)).wr (R.CH_CAL_Q_GAIN ch) (w (e.bind (·.g)) 100000000 1)).wr
    (R.CH_CAL_Q_SKEW ch) (w (e.bind (·.tau)) (50000000 * 2 ^ k) 1)

/-- A bank's rolling trim changed. -/
def State.updRt (s : State) (b : Nat) (f : RtBank → RtBank) : State :=
  { s with cal := { s.cal with rt := s.cal.rt.upd {} b f } }

/-- A slot that is rejected (R369): every correction stays. -/
def State.rtReject (s : State) (b i cause ppm : Nat) : State :=
  let s1 := s.updRt b fun k => { k with plaus := k.plaus.set i false, limitRun := [] }
  ((((s1.flag F.CAL_ALERT_RT_REJECT).event Ev.RT_REJECT (evSource 15 (24 * b + i)) [.h (24 * b + i), .h cause, .h ppm]).countUp
    (F.CAL_BANKb_STAT_REJECTS b)).put (F.CAL_BANKb_STAT_SPARE_PLAUS b) 0)

/-- The plausibility limits of R371 on an accepted result. -/
def State.rtPlaus (s : State) (b i : Nat) (limit : Option Nat) : State :=
  let k := s.cal.rt.val {} b
  match limit with
  | none => (s.updRt b fun k => { k with plaus := k.plaus.set i false, limitRun := [] }).put (F.CAL_BANKb_STAT_SPARE_PLAUS b) 0
  | some m =>
    let run := (i :: k.limitRun).take 7
    let s1 := (s.updRt b fun k => { k with plaus := k.plaus.set i true, limitRun := run }).put (F.CAL_BANKb_STAT_SPARE_PLAUS b) run.length
    let s2 :=
      if k.plaus.val false i then
        ((s1.flag F.CAL_ALERT_PLAUS).event Ev.RT_PLAUS (evSource 15 (24 * b + i)) [.h (24 * b + i), .h (Config.eventCode Ev.RT_PLAUS m)]).gradualFailure (25 * b + i) 4
      else s1
    if 4 ≤ run.length ∧ (run.take 4).Nodup then
      ((s2.flag F.CAL_ALERT_PLAUS).event Ev.RT_PLAUS (evSource 12 b) [.h b, .h (Config.eventCode Ev.RT_PLAUS m)]).spareFailure b
    else s2

/-- The slot of a bank ends: its estimates are solved, accepted or rejected, and shown; accepted corrections
come into force at the next slot boundary (R369 to R372). -/
def State.rtFinish (s0 : State) (b : Nat) : State :=
  let k := s0.cal.rt.val {} b
  match k.input with
  | none => s0
  | some i =>
    let ch := 24 * b + i
    let kk := s0.srdK ch
    let free := s0.sys.freeCtr
    let s := { s0 with sys := { s0.sys with freeCtr := free + 32 } }
    let es := (List.range 4).map fun r =>
      (k.sums.val {} r).solve r (s.get F.CAL_VAR_MIN_VALUE) (s.get F.CAL_DVAR_MIN_VALUE) (free + 2 * r)
    let ppm := if k.pairs = 0 then 0 else k.outliers * 1000000 / k.pairs
    let good := (List.range 4).filter (fun r => match es[r]? with | some e => e.usable | none => false)
    let skewR := mostPairs es fun e => e.usable && e.tau.isSome
    let cur := s.cal.cur
    let c0 := cur.slices.val {} (25 * b + i)
    let muSpare := (cur.slices.val {} (spareSlice b)).mu
    let step (c : SliceCoef) (r : Nat) : SliceCoef :=
      match es[r]? with
      | some e =>
        if cur.digital then c.digitalUp r kk muSpare e (skewR == some r) (free + 8 + 4 * r) else c.tapsUp r kk e (skewR == some r)
      | none => c
    let c1 := good.foldl step c0
    let beyond := if cur.digital then none else c1.tapBeyond (cur.fz.val 0 ch) (s.tapUser ch)
    let s1 := (s.updRt b fun k => { k with input := none, pairs := 0, outliers := 0, p1 := none, p2 := none, sums := [], stuck := {} }).countUp
      (F.CAL_BANKb_STAT_RUNS b)
    if k.pairs < k.outliers * 10000 then (s1.rtReject b i 4 ppm).showFigures ch kk es 4 false ppm
    else if good.isEmpty then (s1.rtReject b i 5 ppm).showFigures ch kk es 5 false ppm
    else match beyond with
      | some m =>
        let s2 := (({ s1 with cal := { s1.cal with tapOver := true } }).flag F.CAL_ALERT_TAP_RANGE).event Ev.TAP_RANGE (evSource 15 ch) [.h ch, .h (Config.eventCode Ev.TAP_RANGE m)]
        (s2.rtReject b i 6 ppm).showFigures ch kk es 6 false ppm
      | none =>
        let limit := (good.filterMap (fun r => (es[r]?).bind (fun e => e.limit kk (skewR == some r)))).head?
        let result := if skewR.isSome then 3 else if good.any (fun r => match es[r]? with | some e => e.g.isSome | none => false) then 2 else 1
        let s2 := (s1.showFigures ch kk es result limit.isSome ppm).changeCoef (k.start + rtSlot) 2 { slice := some (25 * b + i, c1) }
        s2.rtPlaus b i limit

/-- The slots whose evaluated span is over end (R365). -/
def State.rtEndDue (s : State) : State :=
  (List.range 8).foldl (fun s b => if (s.cal.rt.val {} b).start + 1049577 ≤ s.tick then s.rtFinish b else s) s

/-- RT_SLOT_END (R369). -/
def execRtSlotEnd (s : State) : Host.Outcome State Fault Refusal :=
  if s.running then .next s.rtEndDue else .next s

/-- Rolling trim lets go of a bank's spare. -/
def State.rtLeave (s : State) (b : Nat) : State :=
  if s.get (F.AFF_BANKb_STAT_SPARE_STATE b) = 1 then
    (s.updBank b fun k => { k with input := none }).showSpare b 0 none
  else s

/-- A slot of rolling trim starts in a bank on input `i` (R365). One without a visit parts the slots on its two sides (R371). -/
def State.rtBegin (s : State) (b i : Nat) : State :=
  let ch := 24 * b + i
  let k := s.fe.banks.val {} b
  if ¬ s.spareFree b ∨ s.on (F.AFF_BANKb_CTRL_SPARE_MAN b) ∨ ¬ k.gradual.isEmpty then s.updRt b fun k => { k with limitRun := [] }
  else if s.on (F.CH_CAL_CFG_RT_EN ch) then
    let s1 := (s.updRt b fun k => { k with input := some i, start := s.tick, pairs := 0, outliers := 0, p1 := none, p2 := none, sums := [], stuck := {} }).updBank b
      fun k => { k with input := some i }
    (s1.showSpare b 1 (some i)).wr64 (R.CH_CAL_TICK_LO ch) s.tick
  else ((s.updRt b fun k => { k with limitRun := [] }).updBank b fun k => { k with input := none }).showSpare b 1 none

/-- RT_SLOT_START (R365): at a multiple of 1,050,000 ticks the spares of all banks move onto the next input. -/
def execRtSlotStart (s : State) : Host.Outcome State Fault Refusal :=
  if ¬ s.running ∨ s.tick % rtSlot ≠ 0 then .next s
  else
    let s1 := s.rtEndDue
    if s1.on F.CAL_CTRL_RT_EN then
      let i := s.tick / rtSlot % 24
      .next ((((List.range 8).foldl (fun s b => s.rtBegin b i) s1).put F.CAL_STAT_RT_ACTIVE 1).put F.CAL_STAT_SLOT_INPUT i)
    else .next (((List.range 8).foldl (fun s b => s.rtLeave b) s1).put F.CAL_STAT_RT_ACTIVE 0)

/-- Rolling trim stops: every slot in progress is discarded, and the spares it held are free (R376). So it
does where RT_EN is cleared (R365, log 60). -/
def State.rtStop (s : State) : State :=
  ((List.range 8).foldl (fun s b => (s.discardSlot b).rtLeave b) s).put F.CAL_STAT_RT_ACTIVE 0

/-! Field zero (R373, R374). -/

/-- A field zero refused (R373). -/
def State.fzRefuse (s : State) (ch cause : Nat) : State :=
  ((((s.flag F.CAL_ALERT_FZ_REFUSED).event Ev.FZ (evSource 12 ch) [.h ch, .h 2, .h cause]).put F.CAL_FZ_STAT_STATE 0).put
    F.CAL_FZ_STAT_RESULT 2).put F.CAL_FZ_STAT_CAUSE cause

/-- CAL_FZ_CTRL.START (R373): a field zero is armed at CAL_FZ_TICK, or refused as late. One that is armed already is
replaced (log 60). -/
def State.fzStart (s : State) : State :=
  let ch := s.get F.CAL_FZ_CTRL_CH
  let start := s.rd64 R.CAL_FZ_TICK_LO
  if start ≤ s.tick + 2 then s.fzRefuse ch 1
  else (({ s with cal := { s.cal with fzRun := some { ch := ch, start := start, z := s.getI F.CAL_FZ_Z_Z } } }).put
    F.CAL_FZ_STAT_STATE 1).put F.CAL_FZ_STAT_RESULT 0 |>.put F.CAL_FZ_STAT_CAUSE 0

/-- FIELD_ZERO_START (R373). -/
def execFieldZeroStart (s : State) : Host.Outcome State Fault Refusal := .next (if s.liveMode then s.fzStart else s)

/-- Whether the sum with a field-zero part stays in the range of the method in force on the slice that feeds a
channel (R357, R373). -/
def State.fzFits (s : State) (ch : Nat) (part : Int) : Bool :=
  let c := s.cal.cur.slices.val {} ((s.feeder ch s.tick).getD (ownSlice ch))
  if s.cal.cur.digital then c.o.all (fun o => decide (((o + part).natAbs : Int) ≤ 32767)) && decide (satI 24 part = part)
  else c.ofsTap.all (fun o => decide (((o + fzSteps part).natAbs : Int) ≤ 6666))

/-- FIELD_ZERO_COMPLETE (R373): after the last tick of the span the field zero is applied, at the first frame
boundary at least 2,000 ticks later, or refused. -/
def execFieldZeroComplete (s : State) : Host.Outcome State Fault Refusal :=
  match s.cal.fzRun with
  | none => .next s
  | some z =>
    if s.tick < z.start + fzTicks then .next s
    else
      let s1 := { s with cal := { s.cal with fzRun := none } }
      let cause := if z.cause ≠ 0 then z.cause else if z.n = 0 then 5 else 0
      let part := s.cal.cur.fz.val 0 z.ch + rhe (z.sum - z.z * z.n) z.n
      if cause ≠ 0 then .next (s1.fzRefuse z.ch cause)
      else if ¬ s.fzFits z.ch part then .next (s1.fzRefuse z.ch 6)
      else
        let s2 := s1.changeCoef (frameAtOrAfter (z.start + fzTicks - 1 + 2000)) 2 { fz := some (z.ch, part) }
        .next (((s2.event Ev.FZ (evSource 12 z.ch) [.h z.ch, .h 1, .h 0]).put F.CAL_FZ_STAT_STATE 0).put F.CAL_FZ_STAT_RESULT 1)

/-- CAL_FZ_CTRL.CLEAR (R374): the field-zero part of a channel is 0 from the next frame boundary. -/
def State.fzClear (s : State) (ch : Nat) : State := s.changeCoef (nextFrame s.tick) 2 { fz := some (ch, 0) }

/-- FIELD_ZERO_CLEAR (R374). -/
def execFieldZeroClear (ch : Nat) (s : State) : Host.Outcome State Fault Refusal :=
  if 192 ≤ ch ∨ ¬ s.liveMode then .next s else .next (s.fzClear ch)

end Sys2Proof.Machine
end

