-- ==== Sys2Proof/Machine/Enable.lean ====
section
/-! DEFINITION. Enable.lean: the enables of fast channels (R186, R191, R213) and the SYNCs of their chains
(R182). -/
namespace Sys2Proof.Machine

/-! Cost (R191). -/

/-- The cost of a fast channel, 1/256 core cycle per tick. The spec gives no formula (log 7). -/
def State.chanCost (s : State) (ch : Nat) : Nat :=
  Config.channelCost [wd (s.srdK ch), s.rd (R.CH_FLT_CFG ch), s.rd (R.CH_FLT_DCIC ch)]

/-- The sum over the enabled channels. -/
def State.budget (s : State) : Nat := (s.fastEnabled.map s.chanCost).sum

/-! Enables (R186). -/

/-- The write of EN that waits for a fast channel's boundary. -/
def State.setPend (s : State) (ch : Nat) (p : Option (Bool × Nat)) : State :=
  { s with sys := { s.sys with fastPend := match p with | some v => s.sys.fastPend.set ch v | none => s.sys.fastPend.drop ch } }

/-- What a write that sets EN of a fast channel does, the budget allowing it (R186). -/
def State.fastWantOn (s : State) (ch : Nat) : State :=
  if s.on (F.CH_AFE_CTRL_ACQ_ARM ch) && !s.sys.fastEff.contains ch then s.put (F.CH_AFE_CTRL_ACQ_PEND ch) 1
  else s.setPend ch (some (true, nextFrame s.tick))

/-- What a write that clears EN of a fast channel does (R186): an enable that has not taken effect is
cancelled, otherwise the channel goes off at the next frame boundary. -/
def State.fastWantOff (s : State) (ch : Nat) : State :=
  let s1 := s.put (F.CH_AFE_CTRL_ACQ_PEND ch) 0
  if s.sys.fastEff.contains ch then s1.setPend ch (some (false, nextFrame s.tick)) else s1.setPend ch none

/-- An enable of a fast channel takes effect at tick `b` (R182, R186, R213). A period outside the rule of R178
makes case 2 of R434 arise. -/
def State.fastGoesOn (s : State) (ch b : Nat) : State :=
  let s0 := (s.setPend ch none).updRange ch fun k => { k with uPrev := none }
  let s1 := { s0 with sys := { s0.sys with
    fastEver := if s.sys.fastEver.contains ch then s.sys.fastEver else ch :: s.sys.fastEver
    fastEff := ch :: s.sys.fastEff.filter (fun c => c != ch) } }
  let s2 := (s1.gapClose ch (b - 1)).coreCmd b (.enableFast ch)
  let s3 := if s.part.lostCh.contains ch then s2.gapOpen ch Gap.SLICE_LOST b (ownSlice ch) else s2
  if s.fltPeriodOk ch then s3 else s3.unchecked 2

/-- A disable of a fast channel takes effect at tick `b` (R186, R213). -/
def State.fastGoesOff (s : State) (ch b : Nat) : State :=
  let s0 := s.setPend ch none
  let s1 := ({ s0 with sys := { s0.sys with fastEff := s0.sys.fastEff.filter (fun c => c != ch) } }).coreCmd b (.disableFast ch)
  if (s1.sys.openGap.look ch).isSome then s1.gapClose ch (b - 1) else s1.gapOpen ch Gap.CHANNEL_OFF b 0

/-- Whether the budget of R191 takes one more channel. -/
def State.budgetOk (s : State) (ch : Nat) : Bool := decide (s.budget + s.chanCost ch ≤ 333 * 256)

/-- Whether R322 lets a channel's EN be set: not with an odd CH_FLT_GD in a multiplied bank. -/
def State.phaseOk (s : State) (ch : Nat) : Bool := !(s.multiplied ch && s.fltGd2 ch % 2 == 1)

/-- CHANNEL_ENABLE (R186, R191, R322): a write of EN = 1 to a channel whose EN reads 0. -/
def execChannelEnable (ch : Nat) (s : State) : Host.Outcome State Fault Refusal :=
  if 192 ≤ ch ∨ ¬ s.liveMode ∨ s.on (F.CH_AFE_CTRL_EN ch) then .next s
  else if s.journalFull then .next (s.journalRefuse F.AFF_ALERT_WR_REFUSED)
  else if ¬ s.phaseOk ch then .next (s.flag F.AFF_ALERT_WR_REFUSED)
  else if s.budgetOk ch then .next ((s.put (F.CH_AFE_CTRL_EN ch) 1).fastWantOn ch)
  else .next ((s.flag F.AFF_ALERT_WR_REFUSED).flag F.FLT_ALERT_BUDGET)

/-- CHANNEL_DISABLE (R186). -/
def execChannelDisable (ch : Nat) (s : State) : Host.Outcome State Fault Refusal :=
  if 192 ≤ ch ∨ ¬ s.liveMode ∨ ¬ s.on (F.CH_AFE_CTRL_EN ch) then .next s
  else if s.journalFull then .next (s.journalRefuse F.AFF_ALERT_WR_REFUSED)
  else .next ((s.put (F.CH_AFE_CTRL_EN ch) 0).fastWantOff ch)

/-- CHANNEL_ENABLE_EFFECT (R186): at its frame boundary an enable takes effect, and the chain restarts. -/
def execChannelEnableEffect (ch : Nat) (s : State) : Host.Outcome State Fault Refusal :=
  match s.sys.fastPend.look ch with
  | some (true, b) => if b ≤ s.tick then (s.fastGoesOn ch b).finish else .next s
  | _ => .next s

/-- CHANNEL_DISABLE_EFFECT (R213): at its frame boundary a disable takes effect with an open CHANNEL_OFF gap,
or, for a channel without a converter, with the end of its SLICE_LOST gap. -/
def execChannelDisableEffect (ch : Nat) (s : State) : Host.Outcome State Fault Refusal :=
  match s.sys.fastPend.look ch with
  | some (false, b) => if b ≤ s.tick then .next (s.fastGoesOff ch b) else .next s
  | _ => .next s

/-- The ACQ_START firing of unit `u` in this tick (R82, R186): the enables pending on it take effect. -/
def State.acqFire (s : State) (u : Nat) : State :=
  (List.range 192).foldl (fun s ch =>
    if s.on (F.CH_AFE_CTRL_ACQ_PEND ch) && s.get (F.CH_AFE_CTRL_ACQ_UNIT ch) == u then
      (s.put (F.CH_AFE_CTRL_ACQ_PEND ch) 0).fastGoesOn ch s.tick
    else s) s

/-! SYNC (R182). -/

/-- The SYNCs that wait, replaced. -/
def State.setSyncs (s : State) (l : List (Nat × Nat)) : State := { s with hist := { s.hist with syncs := l } }

/-- The command SYNC that waits goes, and its SYNC queued for the troupe bus with it (R182, R317). -/
def State.dropSync (s : State) : State :=
  (s.hist.syncs.filter (fun e => e.2 == 0)).foldl (fun (s : State) e => s.unbusSync e.1) (s.setSyncs (s.hist.syncs.filter (fun e => e.2 != 0)))

/-- FLT_SYNC_CTRL.ARM (R182): the command SYNC is armed at FLT_SYNC_TICK, or refused as late. -/
def State.syncArm (s : State) : State :=
  let ts := s.rd64 R.FLT_SYNC_TICK_LO
  if ts ≤ s.tick + 2 then (s.put F.FLT_SYNC_STAT_ERR_LATE 1).flag F.FLT_ALERT_SYNC_LATE
  else (((s.dropSync.setSyncs (s.dropSync.hist.syncs ++ [(ts, 0)])).put F.FLT_SYNC_STAT_ARMED 1).put F.FLT_SYNC_STAT_ERR_LATE 0).busSync ts

/-- FLT_SYNC_CTRL.DISARM (R182). -/
def State.syncDisarm (s : State) : State := s.dropSync.put F.FLT_SYNC_STAT_ARMED 0

/-- FLT_SYNC_ARM (R182). -/
def execFltSyncArm (s : State) : Host.Outcome State Fault Refusal :=
  .next (if ¬ s.liveMode then s else if s.journalFull then s.journalRefuse F.FLT_ALERT_WR_REFUSED else s.syncArm)

/-- FLT_SYNC_DISARM (R182). -/
def execFltSyncDisarm (s : State) : Host.Outcome State Fault Refusal := .next (if s.liveMode then s.syncDisarm else s)

/-- FILTER_SYNC (R182): the SYNCs of a source (0 the armed command, 1 the troupe bus, 2 + u unit u, 18 the
management operation) that have reached their tick restart the chains that accept them. In TRIM, HOLD, LOAD and
DORMANT they have no effect. -/
def execFilterSync (source : Nat) (s : State) : Host.Outcome State Fault Refusal :=
  let due := s.hist.syncs.filter (fun e => e.2 == source && decide (e.1 ≤ s.tick))
  if due.isEmpty then .next s
  else
    let s1 := s.setSyncs (s.hist.syncs.filter (fun e => !(e.2 == source && decide (e.1 ≤ s.tick))))
    let s2 := if source = 0 then s1.put F.FLT_SYNC_STAT_ARMED 0 else s1
    .next (if s.running then due.foldl (fun s e => s.coreCmd e.1 (.sync source)) s2 else s2)

end Sys2Proof.Machine
end

