-- ==== Sys2Proof/Machine/Slow.lean ====
section
/-! DEFINITION. Slow.lean: the slow front end below the redundancy boundary (05): groups, scans, slots,
burn-out outcomes, excitation faults, converter failure and takeover, and the enables of slow channels. -/
namespace Sys2Proof.Machine

/-! Groups. -/

/-- A slow group changed. -/
def State.updGrp (s : State) (g : Nat) (f : Grp → Grp) : State :=
  { s with slow := { s.slow with grp := s.slow.grp.upd {} g f } }

/-- A slow channel's enable changed. -/
def State.updEn (s : State) (ch : Nat) (f : SlowEn → SlowEn) : State :=
  { s with slow := { s.slow with en := s.slow.en.upd {} ch f } }

/-- The channels of a group in ascending order (R123). -/
def grpChans (g : Nat) : List Nat := (List.range 16).map (fun i => 256 + 16 * g + i)

/-- The group of a slow channel (R123). -/
def chGrp (ch : Nat) : Nat := (ch - 256) / 16

/-- The converter that serves a group (R124, R151). -/
def State.convFor (s : State) (g : Nat) : Nat := s.part.convOf.val g g

/-- Whether slow inputs convert: in RUN and LIMP, and in HOLD until RAW freezes (R349). -/
def State.acquiring (s : State) : Bool := s.running || (s.sys.mode == .hold && !s.red.frozen)

/-- A scan ends in tick `t` (R145). -/
def State.endScan (s : State) (g t : Nat) : State :=
  (s.updGrp g fun k => { k with scan := none, idleFrom := t }).put (F.AFS_GRPg_STAT_RUNNING g) 0

/-! Release (R130, R134, R149). -/

/-- Whether the ticks `a` to `b` meet a DIP span (R52). -/
def State.dipOver (s : State) (a b : Nat) : Bool :=
  (match s.pwr.dipFrom with | some f => decide (f ≤ b) && decide (a ≤ s.pwr.lastLow + 64) | none => false)
    || s.pwr.dips.any (fun d => decide (d.1 ≤ b) && decide (a ≤ d.2))

/-- Whether a source in fault now has overlapped the convert step of a slot (R136). -/
def State.excOver (s : State) (g : Nat) (sl : SlotRun) : Bool :=
  (s.grp g).exc.any (fun (e : Nat × Nat) =>
    bitOf sl.uses e.1 && decide (e.2 < sl.convAt + sl.win))

/-- What the identity results say of a channel's sensor: 1 new and its set not in force, 2 none or unknown
(R164, R166). -/
def State.sensorState (s : State) (ch : Nat) : Nat :=
  let e := s.sid.val {} ch
  if e.stale then 1 else if e.valid then 0 else 2

/-- The channel of a slot. -/
def SlotRun.chan (sl : SlotRun) (g : Nat) : Nat := 256 + 16 * g + sl.input

/-- The slot record of a slot (R149), whose settings are those in force as it began (log 63). -/
def State.slotRec (s : State) (g : Nat) (sl : SlotRun) : List Word :=
  let ch := sl.chan g
  slotRecord (if sl.beforeBad then -8388608 else sl.code) ((F.CH_SIN_CFG_GAIN ch).ofWord sl.cfg) sl.beforeBad
    (sl.afterBad && !sl.beforeBad) (sl.exc || s.excOver g sl) (s.dipOver sl.convAt (sl.convAt + sl.win - 1))
    (decide (16 ≤ sl.conv)) sl.beforeBad ch sl.conv (sl.start + sl.len)

/-- The slot record of a slot whose converter failed in it (R149, R151): it holds no conversion. -/
def State.lostRec (s : State) (g : Nat) (sl : SlotRun) : List Word :=
  let ch := sl.chan g
  slotRecord (-8388608) ((F.CH_SIN_CFG_GAIN ch).ofWord sl.cfg) sl.beforeBad false (sl.exc || s.excOver g sl)
    (s.dipOver sl.convAt (sl.convAt + sl.win - 1)) (decide (16 ≤ sl.conv)) true ch sl.conv (sl.start + sl.len)

/-- What AUX keeps beside the slot record of a slot: the tag is the middle of the convert step (R130). -/
def State.slotSide (s : State) (g : Nat) (sl : SlotRun) : AuxSlot :=
  { sensor := if sl.failed then noSample else s.sensorState (sl.chan g), cfg := sl.cfg, tag := sl.convAt + sl.win / 2 }

/-- EV_SLOW_OPEN and EV_SLOW_CLOSED (R134, R152). -/
def State.noteOpen (s : State) (ch : Nat) (rc : List Word) : State :=
  let w := (rc.getD 0 0).toNat
  let opn := bitOf w 27 || bitOf w 28 || bitOf w 29
  let check := if bitOf w 27 then 0 else if bitOf w 28 then 1 else 2
  let was := (s.slow.en.val {} ch).lastOpen
  let s1 := s.updEn ch fun e => { e with lastOpen := opn }
  if opn && !was then s1.event Ev.SLOW_OPEN (evSource 15 ch) [.h ch, .h check, .t (slotTick rc)]
  else if was && !opn then s1.event Ev.SLOW_CLOSED (evSource 15 ch) [.h ch, .t (slotTick rc)]
  else s1

/-- The slot in progress of a group ends with its slot record in AUX (R149): its sample is released, or, with its converter
failed in it, a complete SLICE_LOST gap is placed (R130, R151), unless its group is lost and the channel's open gap covers the slot. -/
def State.slotEnd (s : State) (g : Nat) (sc : Scan) (sl : SlotRun) : State :=
  let ch := sl.chan g
  let r := sl.start + sl.len
  let s1 := s.updGrp g fun k => { k with scan := some { sc with slot := none, next := r } }
  let s2 :=
    if sl.failed then
      let s2 := { s1 with slow := { s1.slow with aux := (s1.lostRec g sl, s1.slotSide g sl) :: s1.slow.aux } }
      if s2.part.lostGrp.contains g then s2
      else (s2.gapWhole ch Gap.SLICE_LOST sl.start r sl.conv).coreCmd r (.slowRestart ch false)
    else
      let rc := s1.slotRec g sl
      ({ s1 with slow := { s1.slow with aux := (rc, s1.slotSide g sl) :: s1.slow.aux } }).noteOpen ch rc
  if sc.todo.isEmpty then s2.endScan g r else s2

/-- The slot in progress of a group ends if its release tick has come. -/
def State.slotDue (s : State) (g : Nat) : State :=
  match (s.grp g).scan with
  | some sc =>
    (match sc.slot with
    | some sl => if sl.start + sl.len ≤ s.tick ∧ s.acquiring then s.slotEnd g sc sl else s
    | none => s)
  | none => s

/-- SLOW_SAMPLE_RELEASE (R130): in the tick after its check-after step a sample is released with its slot
record; the active core makes its value of it (R139 to R143, R189). -/
def execSlowSampleRelease (g : Nat) (s : State) : Host.Outcome State Fault Refusal := .next (s.slotDue g)

/-! Converter takeover (R150, R151). -/

/-- AFS_STAT as the spares serve (R153): one brought in serves from the break at which it takes over. -/
def State.showSpares (s : State) : State :=
  let by' (q : Nat) : Nat := ((s.part.convOf.find? (fun (e : Nat × Nat) => e.2 == q && (s.grp e.1).takeover.isNone)).map (·.1)).getD 31
  ((s.put F.AFS_STAT_SC16_GRP (by' 16)).put F.AFS_STAT_SC17_GRP (by' 17)).put F.AFS_STAT_LOST
    ((s.part.lostGrp.map (2 ^ ·)).sum)

/-- The spare brought in for a group takes it over from the break of the slot that begins in tick `t` (R151, R189). -/
def State.takeOver (s : State) (g t : Nat) : State :=
  match (s.grp g).takeover with
  | none => s
  | some q =>
    let s1 := (((s.updGrp g fun k => { k with takeover := none }).showSpares).put (F.AFS_GRPg_STAT_CONV g) q).event
      Ev.CONV_SUBST (evSource 3 g) [.h g, .h q, .t t]
    (grpChans g).foldl (fun s ch => if (s.slow.en.val {} ch).eff then s.coreCmd t (.takeover ch) else s) s1

/-- CONVERTER_TAKEOVER (R151): the spare takes over from the break of the next slot, in the tick in which that slot begins. -/
def execConverterTakeover (g : Nat) (s : State) : Host.Outcome State Fault Refusal :=
  let s1 := s.slotDue g
  match (s1.grp g).scan with
  | some sc => .next (if sc.slot.isNone ∧ ¬ sc.todo.isEmpty ∧ sc.next ≤ s.tick ∧ s.acquiring then s1.takeOver g sc.next else s1)
  | none => .next s1

/-- A group loses all conversion from tick `t` on (R151): a slot in progress still gets its slot record, and no other follows it (R149). -/
def State.loseGroup (s : State) (g t conv : Nat) : State :=
  let s1 := (s.flag F.AFS_ALERT_GROUP_LOST).event Ev.GROUP_LOST (evSource 3 g) [.h g]
  let s2 := (grpChans g).foldl (fun s ch =>
    if (s.slow.en.val {} ch).eff then s.gapOpen ch Gap.SLICE_LOST t conv else s) s1
  (match (s2.grp g).scan with
    | some sc => if sc.slot.isSome then s2.updGrp g fun k => { k with scan := some { sc with todo := [] } } else s2.endScan g s2.tick
    | none => s2).exhaust 1

/-- The spares given to the groups whose converter failed in this tick, the lowest group and SC16 first; a
group without one is lost (R151). -/
def State.giveSpares (s : State) (t : Nat) (batch : List Nat) : State :=
  let keep := s.part.convOf.filter (fun (e : Nat × Nat) => !batch.contains e.1)
  let free := [16, 17].filter (fun q => !s.part.convs.contains q && !keep.any (fun (e : Nat × Nat) => e.2 == q))
  let given := batch.zip free
  let lost := (batch.drop free.length).filter (fun g => !s.part.lostGrp.contains g)
  let was (g : Nat) : Nat := s.convFor g
  let firstTick (g : Nat) : Nat :=
    match (s.grp g).scan with
    | some sc => (match sc.slot with | some sl => sl.start | none => t)
    | none => t
  let s1 := { s with part := { s.part with
    convOf := given.foldl (fun (m : Tab Nat) (e : Nat × Nat) => m.set e.1 e.2) keep
    lostGrp := lost ++ s.part.lostGrp } }
  let s2 := s1.put (F.SYS_SPAREc_USED 1) s1.part.convOf.length
  let s3 := (given.foldl (fun s e => s.updGrp e.1 fun k => { k with takeover := some e.2 }) s2).showSpares
  lost.foldl (fun u g => (u.updGrp g fun k => { k with takeover := none }).loseGroup g (firstTick g) (was g)) s3

/-- A slow converter fails in this tick (R150, R151). -/
def State.convFail (s : State) (conv detector : Nat) : State :=
  let s1 := { s with part := { s.part with convs := conv :: s.part.convs } }
  let s2 := ((s1.put F.AFS_CONV_FAIL_CONV (s1.get F.AFS_CONV_FAIL_CONV ||| 2 ^ conv)).flag F.AFS_ALERT_CONV_FAIL).event
    Ev.CONV_FAIL (evSource 3 conv) [.h conv, .h detector]
  match (List.range 16).find? (fun g => s.convFor g == conv && !s.part.lostGrp.contains g) with
  | none => s2
  | some g =>
    let s3 := s2.updGrp g fun k => { k with
      failAt := some s.tick
      scan := k.scan.map fun sc => { sc with slot := sc.slot.map fun sl => { sl with failed := true } } }
    s3.giveSpares s.tick ((List.range 16).filter (fun h => (s3.grp h).failAt == some s.tick))

/-- CONVERTER_FAIL (R151): a converter's code is not delivered. One already out of service has no failure. -/
def execConverterFail (conv : Nat) (s : State) : Host.Outcome State Fault Refusal :=
  if ¬ s.live ∨ 18 ≤ conv ∨ s.part.convs.contains conv then .next s else .next (s.convFail conv 1)

/-! Scans and slots (R128, R145 to R148). -/

/-- A disable of a slow channel takes effect at the scan start in this tick (R148, R211, R213). -/
def State.slowGoesOff (s : State) (ch : Nat) : State :=
  let s1 := s.updEn ch fun e => { e with eff := false, off := none, pend := if e.pend = some false then none else e.pend }
  if (s1.sys.openGap.look ch).isSome then s1.gapClose ch (s.tick - 1)
  else s1.gapOpen ch Gap.CHANNEL_OFF s.tick 0

/-- A channel's waiting enable or disable takes effect at the scan start in this tick (R148, R151, R211, R213). A disable whose later enable
still waits for its boundary acts first; an enable of a channel that is not off restarts its chain and leaves its gaps as they are. -/
def State.enEffect (s : State) (ch : Nat) : State :=
  let e := s.slow.en.val {} ch
  let g := chGrp ch
  if s.tick < e.notBefore then
    (match e.off with | some d => if d ≤ s.tick then s.slowGoesOff ch else s | none => s)
  else match e.pend with
  | none => s
  | some true =>
    let s1 := (s.updEn ch fun e => { e with eff := true, pend := none, off := none, ever := true }).coreCmd s.tick (.slowRestart ch true)
    if e.eff then s1
    else
      let s2 := s1.gapClose ch (s.tick - 1)
      if s.part.lostGrp.contains g then s2.gapOpen ch Gap.SLICE_LOST s.tick (s.convFor g) else s2
  | some false => s.slowGoesOff ch

/-- SCAN_START (R145 to R148): at a multiple of S the scan of an enabled group begins, or the start is skipped
as an overrun. In a group without a converter nothing converts, and the starts keep their ticks (R151). -/
def execScanStart (g : Nat) (s0 : State) : Host.Outcome State Fault Refusal :=
  let s := s0.slotDue g
  let t := s.tick
  let k := s.grp g
  let due := s.acquiring && s.on (F.AFS_GRPg_CFG_EN g) && decide (t % s.get (F.AFS_GRPg_PERIOD_S g) = 0)
    && (match k.first with | some f => decide (f ≤ t) | none => false)
  if 16 ≤ g ∨ ¬ due then .next s
  else if k.scan.isSome then
    .next (((s.countUp (F.AFS_GRPg_STAT_OVERRUN g)).flag F.AFS_ALERT_SCAN_OVERRUN).event Ev.SCAN_OVERRUN (evSource 3 g)
      [.h g, .t t])
  else
    let s1 := (s.updGrp g fun k => { k with started := true, idRun := none }).wr64 (R.AFS_GRPg_SCAN_LO g) t
    let s2 := (grpChans g).foldl (fun s ch => s.enEffect ch) s1
    let todo := (List.range 16).filter (fun i => (s2.slow.en.val {} (256 + 16 * g + i)).eff)
    if todo.isEmpty ∨ s2.part.lostGrp.contains g then .next (s2.updGrp g fun k => { k with idleFrom := t })
    else .next ((s2.updGrp g fun k => { k with scan := some { start := t, todo := todo, next := t } }).put
      (F.AFS_GRPg_STAT_RUNNING g) 1)

/-- Whether a check step fails (R131, R132): with BO_I 0 it passes without a test; else the input voltage in µV at its last tick has
risen by BO_THR or more above that at its first. -/
def State.boFails (s : State) (ch : Nat) (first last : Int) : Bool :=
  s.get (F.CH_SIN_BO_BO_I ch) != 0 && decide ((s.get (F.CH_SIN_BO_BO_THR ch) * 1000 : Nat) ≤ last - first)

/-- SLOW_SLOT (R128): the next slot of a scan begins. The operands are what its conversion delivers (R138), and the input voltages in µV
at the first and last tick of check-before and of check-after (R132, R134). -/
def execSlowSlot (g : Nat) (code : BitVec 24) (before after : Int × Int) (s0 : State) : Host.Outcome State Fault Refusal :=
  let s := s0.slotDue g
  match (s.grp g).scan with
  | none => .next s
  | some sc =>
    match sc.todo with
    | [] => .next s
    | i :: rest =>
      if sc.slot.isSome ∨ s.tick < sc.next ∨ ¬ s.acquiring then .next s
      else
        let ch := 256 + 16 * g + i
        let len := s.slotTicks ch
        let win := s.sinWin ch
        let s1 := s.takeOver g sc.next
        let sl : SlotRun := { input := i, start := sc.next, len := len, win := win, code := clampI (-8388607) 8388607 (sx 24 code.toNat)
                              cfg := s.rd (R.CH_SIN_CFG ch), uses := (s.rd (R.CH_SIN_EXC ch)).toNat
                              drive := sc.next + 4 + s.get (F.CH_SIN_SLOT_DSCH ch)
                              convAt := sc.next + len - s.get (F.CH_SIN_BO_BO_T ch) - win, conv := s1.convFor g
                              beforeBad := s.boFails ch before.1 before.2, afterBad := s.boFails ch after.1 after.2 }
        .next (s1.updGrp g fun k => { k with scan := some { sc with todo := rest, slot := some sl } })

/-! Group enable (R146). -/

/-- What a write that sets AFS_GRPg_CFG.EN does: under AUTO the first scan begins at the first multiple of S
from this tick on, or from the first tick of RUN or LIMP; under TCMP it waits for the unit. -/
def State.grpOn (s : State) (g : Nat) : State :=
  let auto := !(s.on (F.AFS_GRPg_CFG_START_SRC g))
  s.updGrp g fun k => { k with started := false, first := if auto && (s.running || s.sys.mode == .hold) then some s.tick else none }

/-- What a write that clears AFS_GRPg_CFG.EN does: no further scan starts. -/
def State.grpOff (s : State) (g : Nat) : State := s.updGrp g fun k => { k with started := false, first := none }

/-- GROUP_ENABLE (R146). -/
def execGroupEnable (g : Nat) (s : State) : Host.Outcome State Fault Refusal :=
  if 16 ≤ g ∨ ¬ s.liveMode ∨ s.on (F.AFS_GRPg_CFG_EN g) then .next s else .next ((s.put (F.AFS_GRPg_CFG_EN g) 1).grpOn g)

/-- GROUP_DISABLE (R146): the scan that runs completes, and no further scan starts. -/
def execGroupDisable (g : Nat) (s : State) : Host.Outcome State Fault Refusal :=
  if 16 ≤ g ∨ ¬ s.liveMode ∨ ¬ s.on (F.AFS_GRPg_CFG_EN g) then .next s else .next ((s.put (F.AFS_GRPg_CFG_EN g) 0).grpOff g)

/-- The SCAN_START firing of a time compare unit in this tick (R82, R146): the first one of a group that waits
for it sets its first scan. -/
def State.scanFire (s : State) (groups : Nat) : State :=
  (List.range 16).foldl (fun s g =>
    if bitOf groups g && s.on (F.AFS_GRPg_CFG_EN g) && s.on (F.AFS_GRPg_CFG_START_SRC g) && (s.grp g).first.isNone then
      let s1 := s.updGrp g fun k => { k with first := some s.tick }
      if s.tick % s.get (F.AFS_GRPg_PERIOD_S g) = 0 then s1 else s1.flag F.AFS_ALERT_SCAN_ALIGN
    else s) s

/-! Channel enable (R127, R144, R148). -/

/-- Whether R127 lets EN of a slow channel be set: not for input 15 while another input of its group has
REF 2. -/
def State.slowEnOk (s : State) (ch : Nat) : Bool :=
  !(ch % 16 == 15 && (List.range 15).any (fun i => s.get (F.CH_SIN_CFG_REF (ch - 15 + i)) == 2))

/-- The polynomial that a channel's POLY_SRC selects (R144): the CH_SIN_POLY registers, or the sensor's
memory. -/
def State.polyChosen (s : State) (ch : Nat) : List (Word × Word) :=
  if s.on (F.CH_SIN_CFG_POLY_SRC ch) then
    let e := s.sid.val {} ch
    if e.valid then tmplSlots e.tmpl else []
  else (List.range 16).filterMap fun k =>
    if s.on (F.CH_SIN_POLYk_IDX_VALID ch k) then some (s.rd (R.CH_SIN_POLYk_IDX ch k), s.rd (R.CH_SIN_POLYk_C ch k)) else none

/-- The polynomial of a channel as the changes that wait will leave it. -/
def State.polyAhead (s : State) (ch : Nat) : List (Word × Word) :=
  s.cal.due.foldl (fun p e => match e.2.2.poly with | some (c, q) => if c = ch then q else p | none => p) (s.cal.cur.polys.val [] ch)

/-- The boundary at which the changes of a channel's polynomial that wait come into force; none where none waits. -/
def State.polyBound (s : State) (ch : Nat) : Nat :=
  s.cal.due.foldl (fun b e => match e.2.2.poly with | some (c, _) => if c = ch then max b e.1 else b | none => b) 0

/-- What a write that sets EN of a slow channel does (R144, R148): it waits for the next scan, and, where its coefficients have been
written since EN was last set or have changed otherwise, for a new coefficient set at the next frame boundary; the first scan comes
no earlier than a set that waits already. Its ROM checks are due from here on (R156). -/
def State.slowOn (s : State) (ch : Nat) : State :=
  let new := (s.slow.en.val {} ch).polyNew || s.polyChosen ch != s.polyAhead ch
  let b := nextFrame s.tick
  let s1 := (s.updEn ch fun e => { e with
    pend := some true, polyNew := false, off := if e.pend = some false then some e.notBefore else e.off
    notBefore := if new then b else max (s.tick + 1) (s.polyBound ch) }).updSid ch fun e => { e with due := max e.due s.tick }
  if new then s1.changeCoef b 3 { poly := some (ch, s.polyChosen ch) } else s1

/-- What a write that clears EN of a slow channel does (R148). -/
def State.slowOff (s : State) (ch : Nat) : State :=
  s.updEn ch fun e => { e with pend := if e.eff then some false else none, off := none, notBefore := e.off.getD (s.tick + 1) }

/-- SLOW_CHANNEL_ENABLE (R148), refused where R127 forbids it. -/
def execSlowChannelEnable (ch : Nat) (s : State) : Host.Outcome State Fault Refusal :=
  if ch < 256 ∨ 512 ≤ ch ∨ ¬ s.liveMode ∨ s.on (F.CH_SIN_CFG_EN ch) then .next s
  else if s.journalFull then .next (s.journalRefuse F.AFS_ALERT_WR_REFUSED)
  else if ¬ s.slowEnOk ch then .next (s.flag F.AFS_ALERT_WR_REFUSED)
  else .next ((s.put (F.CH_SIN_CFG_EN ch) 1).slowOn ch)

/-- SLOW_CHANNEL_DISABLE (R148). -/
def execSlowChannelDisable (ch : Nat) (s : State) : Host.Outcome State Fault Refusal :=
  if ch < 256 ∨ 512 ≤ ch ∨ ¬ s.liveMode ∨ ¬ s.on (F.CH_SIN_CFG_EN ch) then .next s
  else if s.journalFull then .next (s.journalRefuse F.AFS_ALERT_WR_REFUSED)
  else .next ((s.put (F.CH_SIN_CFG_EN ch) 0).slowOff ch)

/-! Excitation faults (R136). -/

/-- EXC_FAULT (R136): a source that runs goes into fault. -/
def execExcFault (g source : Nat) (s : State) : Host.Outcome State Fault Refusal :=
  if 16 ≤ g ∨ 3 ≤ source ∨ ((s.grp g).exc.look source).isSome ∨ ¬ s.excRuns g source s.tick then .next s
  else
    let s1 := s.updGrp g fun k => { k with exc := k.exc.set source s.tick }
    let s2 := (s1.put (F.AFS_GRPg_STAT_EXC_FAULT g) (s1.get (F.AFS_GRPg_STAT_EXC_FAULT g) ||| 2 ^ source)).flag F.AFS_ALERT_EXC_FAULT
    .next (s2.event Ev.EXC_FAULT (evSource 3 g) [.h g, .h source, .h 0])

/-- EXC_FAULT_END (R136): the fault clears by itself; a slot whose convert step it overlapped keeps that. -/
def execExcFaultEnd (g source : Nat) (s : State) : Host.Outcome State Fault Refusal :=
  match (s.grp g).exc.look source with
  | none => .next s
  | some f =>
    let mark (sl : SlotRun) : SlotRun :=
      { sl with exc := sl.exc || (bitOf sl.uses source && decide (f < sl.convAt + sl.win) && decide (sl.convAt < s.tick)) }
    let s1 := s.updGrp g fun k => { k with
      exc := k.exc.drop source
      scan := k.scan.map fun sc => { sc with slot := sc.slot.map mark } }
    let s2 := s1.put (F.AFS_GRPg_STAT_EXC_FAULT g) (s1.get (F.AFS_GRPg_STAT_EXC_FAULT g) &&& (7 - 2 ^ source))
    .next (s2.event Ev.EXC_FAULT (evSource 3 g) [.h g, .h source, .h 1])

end Sys2Proof.Machine
end

