-- ==== Sys2Proof/Machine/Trim.lean ====
section
/-! DEFINITION. Trim.lean: the full trim (R42, R46 to R49, R360 to R364) and the entry into RUN or LIMP that
ends it (R117, R461). The codes of the fast slices are summed as they come (TrimSums.lean); those of the slow converters come with
TRIM_END. -/
namespace Sys2Proof.Machine

/-! Estimates (R361): binary64 from exact sums of the codes (log 55). -/

/-- What a full trim measured on one fast slice: offset and gain factor per range, and the skew. -/
structure SliceEst where
  slice : Nat
  offset : List Rat
  factor : List Rat
  tau : Rat
  deriving DecidableEq, Repr

/-- What it measured on one slow converter: offset and gain factor per range. -/
structure ConvEst where
  conv : Nat
  offset : List Rat
  factor : List Rat
  deriving DecidableEq, Repr

/-- The measurements of one full trim. -/
structure TrimEst where
  slices : List SliceEst
  convs : List ConvEst
  deriving DecidableEq, Repr

/-- A quotient in binary64; where nothing was measured the spec states no estimate, and a free value stands for it. -/
def quotient (n d : Rat) (free : Nat) : Rat := if d = 0 then freeRatio free else div64 n d

/-- The most frequent code of a histogram, the lowest on a tie. -/
def histMode (h : Tab Nat) : Nat :=
  (h.foldl (fun (b : Nat × Nat) e => if b.2 < e.2 ∨ (b.2 = e.2 ∧ e.1 < b.1) then e else b) (0, 0)).1

/-- The mean of the histogram core: the codes within 8 of the most frequent one. -/
def coreMean (h : Tab Nat) (free : Nat) : Rat :=
  let m : Int := histMode h
  let keep := h.filter fun e => decide (((e.1 : Int) - m).natAbs ≤ 8)
  let n : Int := (keep.map fun e => (e.2 : Int)).foldl (· + ·) 0
  let sum : Int := (keep.map fun e => ((e.1 : Int) - 131072) * e.2).foldl (· + ·) 0
  quotient sum n free

/-- The estimates of one slice from the sums of the trim. -/
def TrimSums.estimate (t : TrimSums) (i free : Nat) : SliceEst :=
  let mean (r p : Nat) (f : Nat) : Rat := let a := t.refs.val (0, 0) (i * 8 + r * 2 + p); quotient a.1 a.2 f
  { slice := i
    offset := (List.range 4).map fun r => coreMean (t.hist.val [] (i * 4 + r)) (free + r) * 4 ^ (3 - r)
    factor := (List.range 4).map fun r =>
      quotient (mul64 (f64 (ratio (9 * fullScale r) 5)) (Config.kRef r)) (sub64 (mean r 0 (free + 4 + r)) (mean r 1 (free + 8 + r))) (free + 12 + r)
    tau := add64 (quotient (t.skew.val 0 i) t.den (free + 16)) (Config.skewOtp i) }

/-- The estimates of one converter from its codes: zero, then the reference. -/
def convEstimate (e : ConvCodes) (free : Nat) : ConvEst :=
  let mean (p : BitVec 24 × BitVec 24) : Rat := f64 (ratio (sx 24 p.1.toNat + sx 24 p.2.toNat) 2)
  let zero (r : Nat) : Rat := mean (e.zero.getD r (0, 0))
  { conv := e.conv
    offset := (List.range 8).map zero
    factor := (List.range 8).map fun r =>
      quotient (mul64 (f64 (ratio (9 * 2 ^ 23) 10)) (Config.kRefSlow r)) (sub64 (mean (e.ref.getD r (0, 0))) (zero r)) (free + r) }

/-- The estimates of the trim that ends: of the slices in service from the sums, of the converters from their codes. -/
def State.trimEst (s : State) (codes : List ConvCodes) : TrimEst :=
  let slices := (List.range 200).filter fun i => !s.part.slices.contains i
  ⟨slices.map fun i => s.cal.trim.estimate i (s.sys.freeCtr + 32 * i), codes.map fun e => convEstimate e (s.sys.freeCtr + 6400 + 8 * e.conv)⟩

/-! Corrections from estimates (R361). -/

/-- G of a factor f, or, without a sound reference (R363), of the set formed at LOAD. -/
def gainOf (refOk : Bool) (f : Rat) (dflt : Int) : Int := if refOk then rheQ (sub64 f 1 * 2 ^ 31) else dflt

/-- The gain tap of a factor f, or of that of the set formed at LOAD (R361, R363). A factor of 0, which divides, lies far outside every range
and the slice has failed. -/
def gainTapOf (refOk : Bool) (f : Rat) (dflt : Int) : Int :=
  rheQ (mul64 (sub64 (div64 1 (if refOk then f else ratio (2 ^ 31 + dflt) (2 ^ 31))) 1) 1000000 * 2)

/-- The DIGITAL corrections of a slice (R361). -/
def estDigital (e : SliceEst) (refOk : Bool) (dflt : SliceCoef) : SliceCoef :=
  { o := (List.range 4).map (fun r => rheQ (e.offset.getD r 0))
    g := (List.range 4).map (fun r => gainOf refOk (e.factor.getD r 1) (dflt.g.getD r 0))
    mu := rheQ (e.tau * 65536) }

/-- The TAPS corrections of a slice (R361). -/
def estTaps (e : SliceEst) (refOk : Bool) (dflt : SliceCoef) : SliceCoef :=
  { ofsTap := (List.range 4).map (fun r => rheQ (div64 (mul64 (e.offset.getD r 0) (f64 (ratio 298023 1000))) 300))
    gainTap := (List.range 4).map (fun r => gainTapOf refOk (e.factor.getD r 1) (dflt.g.getD r 0))
    tap := -rheQ (div64 (mul64 e.tau 500000) (ratio 5 4)) }

/-- The corrections of a slow converter (R361). -/
def estCorr (e : ConvEst) (refOk : Bool) (dflt : ConvCoef) : ConvCoef :=
  { o := (List.range 8).map (fun r => rheQ (e.offset.getD r 0))
    g := (List.range 8).map (fun r => gainOf refOk (e.factor.getD r 1) (dflt.g.getD r 0)) }

/-- Whether offsets lie outside the DIGITAL range of R357. -/
def offsetsOut (l : List Int) : Bool := l.any (fun o => decide (32767 < (o.natAbs : Int)))

/-- Whether gains lie outside it. -/
def gainsOut (l : List Int) : Bool := l.any (fun g => satI 24 g != g)

/-- The self-test cause that DIGITAL corrections of a slice give (R362, R380). -/
def SliceCoef.failCause (c : SliceCoef) : Option Nat :=
  if offsetsOut c.o then some 2 else if gainsOut c.g then some 3 else if satI 16 c.mu != c.mu then some 4 else none

/-- The self-test cause that corrections of a converter give. -/
def ConvCoef.failCause (c : ConvCoef) : Option Nat :=
  if offsetsOut c.o then some 2 else if gainsOut c.g then some 3 else none

/-! Self-test failures (R362). -/

/-- A slice fails its self-test: it is replaced at once (R49). -/
def State.selfTestSlice (s : State) (i cause : Nat) : State :=
  if 200 ≤ i ∨ s.part.slices.contains i then s
  else
    let s1 := s.event Ev.TRIM_SELFTEST (evSource 12 0) [.h i, .h cause]
    if i % 25 = 24 then s1.spareFailure (i / 25) else s1.abruptFailure i 2

/-- A slow converter fails its self-test: it is replaced before RUN or LIMP begins (R151). -/
def State.selfTestConv (s : State) (q cause : Nat) : State :=
  if 18 ≤ q ∨ s.part.convs.contains q then s
  else (s.event Ev.TRIM_SELFTEST (evSource 12 0) [.h (0x100 + q), .h cause]).convFail q 2

/-! Start (R42, R48, R360). -/

/-- The fast channels whose EN the image set come on at the first tick of the trim that follows LOAD (R186). -/
def State.imageOn (s : State) (t : Nat) : State := s.fastEnabled.reverse.foldl (fun s ch => s.fastGoesOn ch t) s

/-- A full trim that HOLD or a reset cuts short in this tick (R48): its span, and the channels that get a TRIM gap for it, those without
an open-ended gap that began no later (R213). -/
def State.cutTrim (s : State) : Option (Nat × Nat × List Nat) :=
  s.cal.trimStart.map fun f => (f, s.tick - 1, (List.range 512).filter fun ch =>
    s.chanOn ch && (match s.sys.openGap.look ch with | some g => decide (f < g.2.1) | none => true))

/-- The gaps that a warm reset left to be placed first (R48): the trim cut short, HOLD, MODE. The last tick of LOAD, which ends the
MODE gap, is the tick before TRIM begins at `t` (log 50). -/
def State.resetGaps (s : State) (t : Nat) : State :=
  let s1 := match s.sys.gapTrim with
    | some (f, l, chans) => chans.foldl (fun (s : State) ch =>
        if s.carried.contains ch && decide (f ≤ l) then s.placeChan ch 4 (l + 1) f (recGap Gap.TRIM false false (s.chanWord ch 0) f (some l) []) else s) s
    | none => s
  let s2 := match s1.sys.gapHold, s1.sys.gapReset with
    | some h, some r => s1.gapAll Gap.HOLD h (r - 1)
    | _, _ => s1
  let s3 := match s2.sys.gapReset with
    | some r => s2.gapAll Gap.MODE r (t - 1)
    | none => s2
  { s3 with sys := { s3.sys with gapTrim := none, gapHold := none, gapReset := none } }

/-- The slow groups as a full trim begins: every scan, slot and identity slot is abandoned (R47). -/
def State.dropScans (s : State) : State :=
  (s.slow.grp.map (·.1)).foldl (fun s g =>
    let s1 := s.updGrp g fun k => { k with idRun := none }
    if (s.grp g).scan.isSome then s1.endScan g s.tick else s1) s

/-- The slow channels whose EN the image set count as enabled from that trim on (R211); each takes its first slot in the first scan. -/
def State.slowImageOn (s : State) : State :=
  s.slowEnabled.foldl (fun (s : State) ch => s.updEn ch fun e => { e with eff := true, ever := true }) s

/-- A full trim starts at frame boundary `t` (R360). A slot that ended in the tick before is released first: it does not overlap the trim (R212). Slices whose
conversions miss their deadline in the self-test, and converters that deliver no code, fail there (R362, cause 1 of R380). -/
def State.trimBegin (s0 : State) (t : Nat) (badSlices badConvs : List Nat) : State :=
  let s := (s0.slow.grp.map (·.1)).foldl (fun u g => u.slotDue g) s0
  let load := s.sys.mode == .load
  let s1 := (s.setMode .trim (if load then 0x11 else 0x13))
  let s2 := { s1 with sys := { s1.sys with trimPend := none, limpEnd := none }, cal := { s1.cal with trimStart := some t, trim := {} } }
  let s3 := if load then (((({ s2 with core := { s2.core with pos := t } }).imageOn t).slowImageOn).resetGaps t).announceLoad t else s2
  let s4 := (s3.rtStop).dropScans
  let s5 := badSlices.foldl (fun s i => s.selfTestSlice i 1) s4
  badConvs.foldl (fun s q => s.selfTestConv q 1) s5

/-- Whether a switch-over bump or a planned swap holds a trim off (R49): one in progress, or one that ends in the tick in hand, whose
first frame boundary after it is a later one (R34). -/
def State.bumping (s : State) : Bool :=
  s.red.bump.isSome || s.red.drill.isSome || (match s.red.bumpEnd with | some t => decide (s.tick ≤ t) | none => false)

/-- Whether a full trim starts in the tick in hand (R42): at the first frame boundary after LOAD ended, or after
the command and any bump or drill, where the hub does not enter LIMP in that tick, which comes before it. -/
def State.trimDue (s : State) : Bool :=
  decide (s.tick % Config.frame = 0) &&
    (if s.sys.mode = .load then s.sys.load == .done && decide (s.sys.loadEnd < s.tick)
     else s.running && !s.bumping && s.chgNow.all (fun c => decide (c.cause < 0x100)) && (match s.sys.trimPend with | some c => decide (c < s.tick) | none => false))

/-- A trim request judged (R42, R49): BUSY while one is pending or runs, ERR_MODE outside RUN and LIMP. -/
def State.trimRequest (s : State) : State × Option Bool :=
  if s.sys.mode = .trim ∨ (s.running ∧ s.sys.trimPend.isSome) then (s, some true)
  else if s.running then ({ s with sys := { s.sys with trimPend := some s.tick } }, none)
  else (s, some false)

/-- SYS_TRIM_REQ (R42, R431): a write of SYS_CTRL.TRIM_REQ; one that finds a trim pending is refused. -/
def execSysTrimReq (s : State) : Host.Outcome State Fault Refusal :=
  let t := s.trimRequest
  .next (if ¬ s.served then s else if t.2 = some true then t.1.flag F.SYS_ALERT_WR_REFUSED else t.1)

/-! End (R358, R360 to R364). -/

/-- The set formed at LOAD (R208): the newest of serial 1. -/
def State.loadSet (s : State) : CoefSet := ((s.cal.hist.find? fun e => e.2.serial == 1).map (·.2)).getD s.cal.cur

/-- The converters and slices whose measured corrections fail the self-test (R362). -/
def State.trimFails (s : State) (m : TrimEst) : State :=
  let ld := s.loadSet
  let s1 := m.slices.foldl (fun s e =>
    match (estDigital e s.part.refOk (ld.slices.val {} e.slice)).failCause with
    | some c => s.selfTestSlice e.slice c
    | none => s) s
  m.convs.foldl (fun s e =>
    match (estCorr e s.part.refOk (ld.convs.val {} e.conv)).failCause with
    | some c => s.selfTestConv e.conv c
    | none => s) s1

/-- The slices measured and in service. -/
def State.goodSlices (s : State) (m : TrimEst) : List SliceEst := m.slices.filter (fun e => decide (e.slice < 200) && !s.part.slices.contains e.slice)

/-- Whether every correction of the trim, of every slice measured, fits the TAPS ranges, user and field-zero parts included (R358). -/
def State.tapsFit (s : State) (m : TrimEst) : Bool :=
  m.slices.all fun e =>
    let ch := s.sliceFor e.slice
    ((estTaps e s.part.refOk (s.loadSet.slices.val {} e.slice)).tapBeyond
      (match ch with | some c => s.cal.cur.fz.val 0 c | none => 0) (match ch with | some c => s.tapUser c | none => 0)).isNone

/-- The method that the trim chooses (R358, R369), and whether a forced TAPS did not fit: true is DIGITAL. -/
def State.chooseMethod (s : State) (m : TrimEst) : Bool × Bool :=
  let fit := s.tapsFit m
  match s.get F.CAL_CTRL_METHOD with
  | 1 => (!fit, !fit)
  | 2 => (true, false)
  | _ => (!(fit && !s.cal.tapOver && decide (s.get F.STK_STAT_SIZE ≤ 4)), false)

/-- The trim's set comes into force at `b` in FULL form with origin 1 (R360), the method logged where it changes
(R358). -/
def State.trimSet (s : State) (m : TrimEst) (b : Nat) : State :=
  let ch := s.chooseMethod m
  let ld := s.loadSet
  let s1 := if ch.2 then s.flag F.CAL_ALERT_TAP_RANGE else s
  let s2 := if ch.1 ≠ s.cal.cur.digital then s1.event Ev.METHOD (evSource 12 0) [.h (b2n s.cal.cur.digital), .h (b2n ch.1)] else s1
  let s3 := (s.goodSlices m).foldl (fun s e =>
    let d := ld.slices.val {} e.slice
    s.changeCoef b 1 { slice := some (e.slice, if ch.1 then estDigital e s.part.refOk d else estTaps e s.part.refOk d) }) s2
  let s4 := (m.convs.filter (fun e => decide (e.conv < 18) && !s.part.convs.contains e.conv)).foldl (fun s e =>
    s.changeCoef b 1 { conv := some (e.conv, estCorr e s.part.refOk (ld.convs.val {} e.conv)) }) s3
  let s5 := ({ s4 with cal := { s4.cal with tapOver := false } }.changeCoef b 1 { method := some ch.1 }).activate b
  s5.event Ev.TRIM_DONE (evSource 12 0) [.w s5.cal.cur.serial, .h (b2n ch.1)]

/-- The quality figures of every fast channel cleared (R364). -/
def State.clearFigures (s : State) : State :=
  (List.range 192).foldl (fun s ch =>
    (((s.wr (R.CH_CAL_RUN ch) 0).wr (R.CH_CAL_Q_OFS ch) 0).wr (R.CH_CAL_Q_GAIN ch) 0).wr (R.CH_CAL_Q_SKEW ch) 0) s

/-- The core as RUN or LIMP begins at `b` (R47, R117, R143, R189, R461): the armings of the trim act, every chain restarts from zero,
conditions and combinations start afresh, and the votes are at trip. -/
def State.coreAfresh (s : State) (b : Nat) : State :=
  let s0 := s.armsOf fun t => decide (s.core.pos < t) && decide (t < b)
  let s1 := (s0.core.fast.map (·.1)).foldl (fun s ch => if (s.core.fast.val {} ch).on then s.restartFast ch b else s) s0
  let c := s1.core
  let s2 := { s1 with core := { c with
    pos := b, conds := [], evals := [], rawPrev := none
    slow := c.slow.map (fun (e : Nat × SlowCh) => (e.1, e.2.restart true))
    srcs := c.srcs.map (fun (e : Nat × SrcSt) => (e.1, ({ e.2 with comb := false, autoFrom := b } : SrcSt))) } }
  (List.range 64).foldl (fun s i => s.put (F.TRG_CNDc_STAT_STATE i) 0) s2

/-- The slow groups as RUN or LIMP begins (R146): the next scan begins at the first multiple of S from `b` on. A spare that the trim has brought in
serves from the group's first slot, with which EV_CONV_SUBST names it (R151, R152). -/
def State.scansAfresh (s : State) (b : Nat) : State :=
  (List.range 16).foldl (fun s g =>
    let auto := !(s.on (F.AFS_GRPg_CFG_START_SRC g))
    let k := s.grp g
    if s.on (F.AFS_GRPg_CFG_EN g) && (auto || k.started || k.first.isSome) then s.updGrp g fun k => { k with first := some b, idleFrom := b }
    else s.updGrp g fun k => { k with idleFrom := b }) s

/-- As RUN or LIMP begins, every kept epoch stands for the state afresh: a replay from before that tick comes through
TRIM, where no input is processed, to the same state (R47, R461). -/
def State.epochsAfresh (s : State) : State :=
  let f (t : Tab EpochBuf) : Tab EpochBuf := t.map fun (e : Nat × EpochBuf) => (e.1, { e.2 with body := s.core })
  { s with red := { s.red with bufA := f s.red.bufA, bufB := f s.red.bufB } }

/-- The drill period counts from the first tick of RUN (R351). -/
def State.drillsFrom (s : State) (b : Nat) : State :=
  if s.sys.mode = .run then { s with red := { s.red with drillFrom := some (s.red.drillFrom.getD b) } } else s

/-- RUN or LIMP begins at `b` (R42). -/
def State.enterRun (s : State) (b : Nat) : State :=
  let s1 := ((s.coreAfresh b).scansAfresh b).rangesAfresh
  let s2 := { s1 with cal := { s1.cal with trimStart := none } }
  ((s2.setMode (if s2.limpBits = 0 then .run else .limp) 0x12).drillsFrom b).tripAll.epochsAfresh

/-- The full trim ends at `b` (R360). -/
def State.trimFinish (s : State) (codes : List ConvCodes) (first b : Nat) : State :=
  let m := s.trimEst codes
  let s0 := { s with sys := { s.sys with freeCtr := s.sys.freeCtr + 6544 }, cal := { s.cal with trim := {} } }
  let s1 := ((s0.trimFails m).trimSet m b).clearFigures
  let s2 := (List.range 512).foldl (fun s ch => if s.chanOn ch then s.gapWhole ch Gap.TRIM first (b - 1) 0 else s) s1
  s2.enterRun b

/-- TRIM_END (R360): 364,000 ticks after its start the trim ends, at a frame boundary (R34). -/
def execTrimEnd (codes : List ConvCodes) (s : State) : Host.Outcome State Fault Refusal :=
  match s.cal.trimStart with
  | some f => if s.sys.mode = .trim ∧ f + Config.trimTicks ≤ s.tick ∧ s.tick % Config.frame = 0 then .next (s.trimFinish codes f s.tick) else .next s
  | none => .next s

/-- LIMP_RETURN_TO_RUN (R42): at the first frame boundary after the last LIMP cause ended, unless a trim that is due there comes before
it. A cause in the same tick keeps LIMP (R49, `State.raiseLimp`). -/
def execLimpReturnToRun (s : State) : Host.Outcome State Fault Refusal :=
  match s.sys.limpEnd with
  | some t =>
    if s.sys.mode = .limp ∧ s.limpBits = 0 ∧ s.tick % Config.frame = 0 ∧ t < s.tick ∧ ¬ s.trimDue then
      .next ((({ s with sys := { s.sys with limpEnd := none } }).setMode .run 0x14).drillsFrom s.tick)
    else .next s
  | none => .next s

end Sys2Proof.Machine
end

