-- ==== Sys2Proof/Machine/Redundancy.lean ====
section
/-! DEFINITION. Redundancy.lean: the twin cores, their epochs, the switch-over, drills, the weathervane and HOLD (R329 to
R355) and adaptive voltage scaling (R21, R22, R443). -/
namespace Sys2Proof.Machine

/-! Cores and roles (R329, R330). -/

/-- 0 for Core A, 1 for Core B. -/
def coreNum : CoreId → Nat | .a => 0 | .b => 1

/-- The other core. -/
def coreOther : CoreId → CoreId | .a => .b | .b => .a

/-- The role of a core. -/
def State.role (s : State) (c : CoreId) : Role := match c with | .a => s.red.roleA | .b => s.red.roleB

/-- The tick in which a core took its role. -/
def State.roleSince (s : State) (c : CoreId) : Nat := match c with | .a => s.red.sinceA | .b => s.red.sinceB

/-- A core takes a role in this tick. -/
def State.setRole (s : State) (c : CoreId) (r : Role) : State :=
  match c with
  | .a => { s with red := { s.red with roleA := r, sinceA := s.tick } }
  | .b => { s with red := { s.red with roleB := r, sinceB := s.tick } }

/-- The primary core (R330). -/
def State.primary (s : State) : CoreId := if s.on F.RED_CFG_PRIMARY then .b else .a

/-- The processing-core spare in use (R18): the standby core holds the active role. -/
def State.coreSpare (s : State) : Nat := match s.red.active with | some c => b2n (c != s.primary) | none => 0

/-- The cause a status register names (RED_COREx_STAT.CAUSE). -/
def causeCode : CoreCause → Nat
  | .lockstep => 1 | .heartbeat => 2 | .eccUncorrectable => 3 | .deadline => 4 | .catchupDeadline => 4 | .supply => 5 | .bist => 6

/-- D of R333: detection follows the first faulty tick by this much. -/
def causeDelay (k : CoreCause) : Nat := if k = .heartbeat then 2 else 1

/-- Whether a role leaves its core out of service (R18). -/
def Role.out : Role → Bool
  | .bist | .proving | .retired => true
  | _ => false

/-- The processing-core class of R18 follows the roles: LIMP while either core is out of service (R42). -/
def State.coreLimp (s : State) : State :=
  let out := s.red.roleA.out || s.red.roleB.out
  let bit := (s.rd R.SYS_LIMP).toNat.testBit 2
  if out && !bit then s.exhaust 2
  else if !out && bit then (s.clearLimp 2).put (F.SYS_SPAREc_EXH 2) 0
  else s

/-! Failures, BIST and retirement (R352, R353). -/

/-- The failures of a core within 24 h, newest first. -/
def State.coreFails (s : State) (c : CoreId) : List Nat :=
  (match c with | .a => s.red.failsA | .b => s.red.failsB).filter (fun t => decide (s.tick < t + 172800000000))

/-- A core out of service for the life of the part (R353). -/
def State.retireCore (s : State) (c : CoreId) : State :=
  let s1 := (s.setRole c .retired).flag F.RED_ALERT_CORE_FAIL
  let s2 := { s1 with part := { s1.part with retired := c :: s1.part.retired.filter (fun k => k != c) } }
  (s2.event Ev.CORE_RETIRED (evSource 11 (coreNum c)) [.h (coreNum c), .h (s2.coreFails c).length]).coreLimp

/-- A core goes to BIST; where a cause of R333 or R334 sends it, that counts, and the third in 24 h retires it (R353). -/
def State.toBist (s : State) (c : CoreId) (counted : Bool) : State :=
  let l := if counted then (s.tick :: s.coreFails c).take 3 else s.coreFails c
  let s1 : State := match c with | .a => { s with red := { s.red with failsA := l } } | .b => { s with red := { s.red with failsB := l } }
  if counted ∧ 3 ≤ l.length then s1.retireCore c else (s1.setRole c .bist).coreLimp

/-- A failure of a core logged (R354). -/
def State.noteCoreFail (s : State) (c : CoreId) (k : CoreCause) : State :=
  ((s.put (F.RED_COREx_STAT_CAUSE (coreNum c)) (causeCode k)).flag F.RED_ALERT_CORE_FAIL).event Ev.CORE_FAIL (evSource 11 (coreNum c))
    [.h (coreNum c), .h (causeCode k), .t (s.tick - causeDelay k)]

/-! Epochs (R335 to R338). -/

/-- The epoch RAM of a core. -/
def State.bufs (s : State) (c : CoreId) : Tab EpochBuf := match c with | .a => s.red.bufA | .b => s.red.bufB

/-- The epoch RAM of a core changed. -/
def State.updBufs (s : State) (c : CoreId) (f : Tab EpochBuf → Tab EpochBuf) : State :=
  match c with
  | .a => { s with red := { s.red with bufA := f s.red.bufA } }
  | .b => { s with red := { s.red with bufB := f s.red.bufB } }

/-- The complement of a sequence number: the commit marker of its copy (R336). -/
def epochMark (q : Nat) : Nat := 2 ^ 32 - 1 - q % 2 ^ 32

/-- A buffer is committed when its marker is the complement of its sequence number and its CRC is right (R337). -/
def EpochBuf.committed (e : EpochBuf) : Bool := e.marker == epochMark e.seq && e.crcOk

/-- The newest committed epoch of a core (R337). -/
def State.newestEpoch (s : State) (c : CoreId) : Option EpochBuf :=
  ((s.bufs c).map (·.2)).foldl (fun o e => if e.committed then (match o with | some x => if x.seq < e.seq then some e else o | none => some e) else o) none

/-- Whether a core takes epoch copies (R335, R338). -/
def Role.copies : Role → Bool
  | .active | .standby | .proving | .shadow => true
  | _ => false

/-- Journal entries before the newest committed boundary go (R342). -/
def State.pruneJournal (s : State) (b : Nat) : State :=
  { s with red := { s.red with journal := s.red.journal.filter (fun e => decide (b ≤ e.1)) } }

/-- The votes as the accepted work of tick f − 1 left them (R339): replayed where the core has gone on since. -/
def State.votesAt (s : State) (f : Nat) (e : EpochBuf) : BitVec 16 :=
  if s.core.pos ≤ f - 1 then s.core.votes
  else
    let quiet : Bump := { f := f, done := s.core.pos }
    let t := { s with core := e.body, red := { s.red with bump := some quiet } }
    (t.coreRun (f - 1 - e.body.pos)).core.votes

/-- The input ticks whose work was accepted from the core in the active role, `f` being the first tick whose work was not (R333):
in real time tick f takes in input tick f − 1, in a catch-up three input ticks go to two ticks (R36). -/
def State.accepted (s : State) (f : Nat) : Nat :=
  match s.red.bump with
  | some b => min s.core.pos (b.bstar + 3 * (f - (b.d + 30)) / 2)
  | none => min s.core.pos (f - 1)

/-- The highest key of what a core makes of the input ticks below `p` (R214). -/
def markKey (p : Nat) : RecKey := { place := p, rank := 5, ch := 2 ^ 16, first := 2 ^ 64 }

/-- The higher of two keys. -/
def RecKey.top (a b : RecKey) : RecKey := if a.le b then b else a

/-- The high-water mark of every live stream (R341) raised to what was accepted of input ticks below `p` and to the last record of
this hub that has gone into a datagram; a mark never falls. -/
def State.markStreams (s : State) (p : Nat) : State :=
  let sent (m : Nat) : RecKey := if (s.stream m).lastKey.pos = s.sys.pos then (s.stream m).lastKey else {}
  { s with red := { s.red with
    marks := (List.range 16).map fun m => (m, ((markKey p).top (sent m)).top (s.red.marks.val {} m))
    shown := max s.red.shown s.core.pos } }

/-- Records in a datagram's words, SPEC bit 9 set in the REC_STATUS of a frame (R207, R344). -/
def markStatus (f : Nat) : Nat → List Word → List Word
  | n + 1, w :: r =>
    let len := w.toNat / 2 ^ 16 % 2 ^ 12 - 1
    (if w.toNat / 2 ^ 28 = 9 ∧ r.take 2 = tickWords f then w ||| 0x200#32 else w) :: r.take len ++ markStatus f n (r.drop len)
  | _, l => l

/-- REC_STATUS of the frame that begins in tick `f`, where it has not been sent yet, shows that a bump touches the frame (R344). -/
def State.statusFrame (s : State) (f : Nat) : State :=
  let mk (p : Placed) : Placed := if p.key.rank = 1 ∧ p.key.place = f then { p with words := markStatus f 1 p.words } else p
  let dg (d : Dgram) : Dgram := if d.sent then d else { d with words := markStatus f d.words.length d.words }
  { s with net := { s.net with streams := s.net.streams.map fun (e : Nat × Stream) =>
      (e.1, { e.2 with placed := e.2.placed.map mk, ring := if s.streamLive e.1 then e.2.ring.map dg else e.2.ring }) } }

/-- The frames that a bump from tick `f` has touched so far show it (R344). -/
def State.statusBump (s : State) (f : Nat) : State :=
  (s.statusFrame (f / Config.frame * Config.frame)).statusFrame (s.tick / Config.frame * Config.frame)

/-- The live streams as a core is fenced (R339, R341): `f` is the first tick whose work is not accepted. -/
def State.fence (s : State) (f : Nat) : State :=
  let p := s.accepted f
  ((s.statusBump f).closeUpTo (markKey p)).markStreams p

/-- The live streams as every core stops in the tick in hand (R212, R213): an open REC_FAST ends before the gap, and each stream
closes at its last record. -/
def State.haltStreams (s : State) : State :=
  if s.streaming && s.red.active.isSome then (s.core.openRecs.foldl (fun s o => s.endFast o) s).closeLive else s

/-- Core `y` takes the CATCHUP role at epoch `e` (R339): votes frozen, live streams closed at their last complete record. The next copy takes the
sequence number after that of `e`, which is in the state it loads: a number whose copy was discarded is used again, and its buffer too, so that no
copy is written over the newest committed one (R337). -/
def State.beginCatchup (s : State) (y : CoreId) (e : EpochBuf) (f d : Nat) (planned nocore : Bool) : State :=
  let votes := s.red.heldVotes.getD (s.votesAt f e)
  let s0 := if nocore then s else s.fence f
  let b : Bump := { f := f, d := d, bstar := e.bound, planned := planned, nocore := nocore, done := s0.red.shown }
  let s1 := s0.setRole y .catchup
  { s1 with core := e.body
            red := { s1.red with active := some y, bump := some b, marking := true, heldVotes := some votes, copy := none, seq := e.seq } }

/-! No core in service (R346, R347). -/

/-- Core votes where no core holds the active role, or in HOLD: held or dropped as RED_HOLD_ILK says (R346, R349). -/
def State.holdVotes (s : State) : State :=
  let v := if s.on F.RED_HOLD_ILK_MODE then 0 else s.coreVotes
  { s with red := { s.red with heldVotes := some v } }

/-- The newest committed epoch that either core holds. -/
def State.anyEpoch (s : State) : Option EpochBuf :=
  match s.newestEpoch .a, s.newestEpoch .b with
  | some x, some y => some (if x.seq < y.seq then y else x)
  | some x, none => some x
  | none, o => o

/-- The core votes that LAST keeps: those of tick `f0` − 1, `f0` being the tick of the last accepted work (R346). -/
def State.keepVotes (s : State) (f0 : Nat) : State :=
  let v := s.red.heldVotes.getD (match s.anyEpoch with | some e => s.votesAt f0 e | none => s.core.votes)
  { s with red := { s.red with heldVotes := some v } }

/-- EV_DRILL and its count (R350, R354); the event names no core (R407). -/
def State.noteDrill (s : State) (d : Drill) (beta : Nat) (failed : Bool) : State :=
  let s1 := if failed then (s.flag F.RED_ALERT_DRILL_FAIL).countUp F.RED_DRILL_STAT_FAILED else s.countUp F.RED_DRILL_STAT_DONE
  s1.event Ev.DRILL (evSource 11 0) [.t d.bound, .h beta, .h (b2n failed)]

/-- A planned swap cut short in this tick (R350): it ends FAILED, with the length of its bump so far, or of the bump that it has had (log 62). -/
def State.dropDrill (s : State) : State :=
  match s.red.drill with
  | none => s
  | some d =>
    let beta := match s.red.bump with
      | some b => s.tick - b.f
      | none => if d.since.isSome then s.get F.RED_BUMP_LAST else 0
    ({ s with red := { s.red with drill := none, bumpEnd := some s.tick } }).noteDrill d beta true

/-- No core can hold the active role from tick `f0` on, that of the last accepted work (R346). -/
def State.noCore (s : State) (f0 : Nat) : State :=
  let wait (s : State) (c : CoreId) : State :=
    match s.role c with
    | .bist | .retired | .halted => s
    | _ => s.toBist c false
  let s1 := ((s.fence (f0 + 1)).keepVotes f0).holdVotes.dropDrill
  let s2 := { s1 with red := { s1.red with active := none, bump := none, copy := none, noCoreAt := some f0, bumpEnd := some s.tick } }
  let s3 := wait (wait s2 .a) .b
  ((s3.flag F.RED_ALERT_NOCORE).event Ev.NO_CORE (evSource 11 0) [.t f0]).raiseLimp 14

/-! The switch-over (R339 to R345). -/

/-- Both cores have reported the other's heartbeat lost in this tick: the standby was sent to BIST for it (R345). -/
def State.hbBoth (s : State) (y : CoreId) (k : CoreCause) : Bool :=
  decide (k = .heartbeat) && (s.role y == .bist || s.role y == .retired) && s.roleSince y == s.tick && s.get (F.RED_COREx_STAT_CAUSE (coreNum y)) == 2

/-- The core that holds the active role fails (R339, R345). -/
def State.activeFails (s : State) (c : CoreId) (k : CoreCause) : State :=
  let y := coreOther c
  let f := s.tick - causeDelay k
  if s.role c = .catchup then
    let s1 := (s.noteCoreFail c k).toBist c true
    match s1.red.drill, decide (s1.role y = .shadow) with
    | some g, true =>
      let s2 := (s1.closeUpTo (markKey (s1.accepted f))).markStreams (s1.accepted f)
      { s2 with red := { s2.red with active := none, drill := some { g with lostAt := some s.tick } } }
    | _, _ => s1.noCore (f - 1)
  else if s.hbBoth y k then s.event Ev.HB_BOTH (evSource 11 0) [.t s.tick]
  else
    let s1 := (s.noteCoreFail c k).dropDrill
    let s2 := match s1.red.copy with | some q => s1.event Ev.EPOCH_DISCARD (evSource 11 0) [.w q] | none => s1
    match s2.newestEpoch y, decide (s2.role y = .standby ∨ s2.role y = .shadow) with
    | some e, true =>
      let s3 := s2.beginCatchup y e f s.tick false false
      ({ s3 with red := { s3.red with swapReq := none, revertReq := none } }).toBist c true
    | _, _ => (s2.toBist c true).noCore (f - 1)

/-- A core that does not hold the active role fails: no switch-over. The lockstep comparators do not run in STANDBY (R334). A supply that fails
under a BIST ends that BIST and begins another (R55, R443). -/
def State.otherFails (s : State) (c : CoreId) (k : CoreCause) : State :=
  match s.role c with
  | .standby => if k = .lockstep then s else (s.noteCoreFail c k).toBist c true
  | .proving | .shadow => (s.noteCoreFail c k).toBist c true
  | .bist => if k = .supply then (s.noteCoreFail c k).setRole c .bist else s
  | _ => s

/-- The core that holds the active role fails where no core runs (R333): there is no work to replay, and the other core takes the
role if it stands by. -/
def State.idleFails (s : State) (c : CoreId) (k : CoreCause) : State :=
  let y := coreOther c
  let s1 := (s.noteCoreFail c k).toBist c true
  if s1.role y = .standby then
    let s2 := s1.setRole y .active
    { s2 with red := { s2.red with active := some y } }
  else
    let s2 := { s1 with red := { s1.red with active := none } }
    if s.sys.load = .done then s2.noCore s.tick else s2

/-- A core fails, whatever its role (R333, R334). In HOLD both are halted. -/
def State.coreFails1 (s : State) (c : CoreId) (k : CoreCause) : State :=
  if s.sys.porst ∨ s.sys.mode = .hold then s
  else if s.red.active ≠ some c then s.otherFails c k
  else if s.streaming then s.activeFails c k
  else s.idleFails c k

/-- The boundary of the copy in progress, as the active core's buffer names it (R336). -/
def State.copyBound (s : State) (c : CoreId) (q : Nat) : Nat := ((s.bufs c).val {} (q % 2)).bound

/-- EPOCH_COPY (R335): at an epoch boundary b the active core freezes its state as it stands after every input tick
before b, and copies it into the buffer it names next; the marker there is still that of the copy before. A copy that the boundary
finds uncommitted has missed its deadline. The layout of the body is not given, so its length and its CRC-32C are free values (log 62). -/
def execEpochCopy (s : State) : Host.Outcome State Fault Refusal :=
  match s.red.active with
  | some c =>
    if s.tick % Config.epoch ≠ 0 ∨ s.role c ≠ .active ∨ s.red.bump.isSome ∨ ¬ s.streaming then .next s
    else if s.red.copy.isSome then (s.coreFails1 c .deadline).finish
    else
      let q := (s.red.seq + 1) % 2 ^ 32
      let body := (s.coreRun (s.coreLast - s.core.pos)).core
      let fr := s.draw
      let e : EpochBuf := { seq := q, bound := s.tick, serial := s.cal.cur.serial, len := Config.freeNat fr.1 % 393217, body := body, crc := Config.freeNat fr.1 / 393217 % 2 ^ 32 }
      let store (s : State) (k : CoreId) : State :=
        if (s.role k).copies then s.updBufs k fun t => t.set (q % 2) { e with marker := (t.val {} (q % 2)).marker } else s
      .next (store (store { fr.2 with red := { fr.2.red with seq := q, copy := some q } } .a) .b)
  | none => .next s

/-- CORE_FAILURE_DETECT (R339): the weathervane detects, in this tick, a failure of the core in the active role. -/
def execCoreFailureDetect (cause : CoreCause) (s : State) : Host.Outcome State Fault Refusal :=
  match s.red.active with
  | some c => (s.coreFails1 c cause).finish
  | none => .next s

/-- STANDBY_FAULT (R334): a cause in a core that does not hold the active role; a missed catch-up deadline is a failure
of the standby (R37). -/
def execStandbyFault (core : CoreId) (cause : CoreCause) (s : State) : Host.Outcome State Fault Refusal :=
  if s.role core = .active then .next s else (s.coreFails1 core cause).finish

/-- CORE_SUPPLY_RESET (R55): VDD_CA or VDD_CB below its reset level: that core is treated as failed. -/
def execCoreSupplyReset (core : CoreId) (s : State) : Host.Outcome State Fault Refusal := (s.coreFails1 core .supply).finish

/-- E of R339: the tick in which a replay catches up. -/
def Bump.catchUp (b : Bump) : Nat := b.d + 30 + 2 * (b.d + 30 - b.bstar)

/-- The bump ends in this tick: its length is shown (R344). -/
def State.endBump (s : State) (b : Bump) : State :=
  let beta := s.tick - b.f
  let s1 := { s with red := { s.red with bump := none, marking := false, heldVotes := none, bumpEnd := some s.tick, eccTicks := [] } }
  if b.nocore then { s1 with red := { s1.red with noCoreAt := none } }
  else
    let m := max (s1.get F.RED_BUMP_MAX) (min 65535 beta)
    (s1.put F.RED_BUMP_LAST (min 65535 beta)).put F.RED_BUMP_MAX m

/-- The core that holds SHADOW, if any. -/
def State.shadow (s : State) : Option CoreId :=
  if s.red.roleA = .shadow then some .a else if s.red.roleB = .shadow then some .b else none

/-- Whether something noted in tick `t` acts in this tick. -/
def dueAfter (o : Option Nat) (tick : Nat) : Bool := match o with | some t => decide (t < tick) | none => false

/-- The active role returns to the SHADOW core in the tick after its successor failed in the catch-up (R345): it has worked on in
real time. -/
def State.shadowBack (s : State) (b : Bump) (d : Drill) (c : CoreId) : State :=
  let s1 := (s.coreRun (s.coreLast - s.core.pos)).setRole c .active
  let s2 := ({ s1 with red := { s1.red with active := some c, drill := none } }).endBump b
  s2.noteDrill d (s2.get F.RED_BUMP_LAST) true

/-- CATCHUP_COMPLETE (R339): in tick E the replay has caught up, the core is ACTIVE and its votes replace the frozen
ones. Case 3 of R434 may arise in the last input ticks. -/
def execCatchupComplete (s : State) : Host.Outcome State Fault Refusal :=
  match s.red.bump, s.red.active, s.red.drill, s.shadow with
  | some b, some c, d, _ =>
    if s.tick < b.catchUp ∨ s.role c ≠ .catchup then .next s
    else
      let s1 := (s.coreRun (s.coreLast - s.core.pos)).setRole c .active
      let s2 := s1.endBump b
      (match d, b.nocore with
        | some k, _ => { s2 with red := { s2.red with drill := some { k with since := some s.tick, seqAt := s.red.seq } } }
        | none, true => s2
        | none, false => (s2.flag F.RED_ALERT_SWITCHOVER).event Ev.SWITCHOVER (evSource 11 0)
            [.t b.f, .h (b.d - b.f), .w b.bstar, .h (s.tick - b.f)] : State).finish
  | some b, none, some d, some c => if dueAfter d.lostAt s.tick then (s.shadowBack b d c).finish else .next s
  | _, _, _, _ => .next s

/-- A core passes BIST with no core in service (R347): it replays from its newest committed epoch where RAW still reaches
it; otherwise the hub remains without a core. -/
def State.recover (s : State) (c : CoreId) : State :=
  match s.newestEpoch c with
  | some e =>
    if s.oldest s.tick + 2048 ≤ e.bound then
      let s1 := (s.beginCatchup c e (s.red.noCoreAt.getD s.tick) s.tick false true).clearLimp 14
      s1.coreLimp
    else (s.setRole c .proving).coreLimp
  | none => (s.setRole c .proving).coreLimp

/-- Whether a core has failed since LOAD began: its last failure shows (R354). It then goes through PROVING when it passes BIST (R352). -/
def State.failedOnce (s : State) (c : CoreId) : Bool := s.get (F.RED_COREx_STAT_CAUSE (coreNum c)) != 0

/-- In LOAD a core that passes its BIST takes the active role if it is the primary or if the primary is retired; otherwise it stands by (R331). -/
def State.loadRole (s : State) (c : CoreId) : State :=
  if s.red.active = none ∧ (s.primary = c ∨ s.role (coreOther c) = .retired) then
    let s1 := s.setRole c .active
    ({ s1 with red := { s1.red with active := some c } }).coreLimp
  else (s.setRole c .standby).coreLimp

/-- The result of a BIST shown and logged (R354). -/
def State.noteBist (s : State) (c : CoreId) (cov : Option Nat) : State :=
  (s.put (F.RED_COREx_STAT_BIST_PASS (coreNum c)) (b2n cov.isNone)).event Ev.BIST (evSource 11 (coreNum c))
    [.h (coreNum c), .h (b2n cov.isSome), .h (cov.getD 0)]

/-- A core fails its BIST: it is retired; in LOAD a core that stood by takes the active role (R331, R353). -/
def State.bistFails (s : State) (c : CoreId) : State :=
  let s1 := (s.put (F.RED_COREx_STAT_CAUSE (coreNum c)) 6).retireCore c
  if s.sys.mode = .load ∧ s1.role (coreOther c) = .standby then s1.loadRole (coreOther c) else s1

/-- BIST_COMPLETE (R331, R352): a core ends its BIST, with the coverage code of the part that failed. -/
def execBistComplete (core : CoreId) (coverage : Option Nat) (s : State) : Host.Outcome State Fault Refusal :=
  if s.role core ≠ .bist then .next s
  else
    let s1 := { s.noteBist core coverage with red := { (s.noteBist core coverage).red with avsOut := s.red.avsOut.filter (fun k => k != core) } }
    if coverage.isSome then .next (s1.bistFails core)
    else if s.sys.mode = .load ∧ ¬ s.failedOnce core then .next (s1.loadRole core)
    else if s.red.noCoreAt.isSome ∧ s.red.active.isNone then (s1.recover core).finish
    else .next ((s1.setRole core .proving).coreLimp)

/-- As LOAD ends: a core whose BIST has not been reported has passed it, unless it has failed since; with none left the hub is without a core (R331). -/
def State.loadCores (s : State) : State :=
  let pass (s : State) (c : CoreId) : State := if s.role c = .bist ∧ ¬ s.failedOnce c then (s.noteBist c none).loadRole c else s
  let p := s.primary
  let s1 := pass (pass s p) (coreOther p)
  let take (s : State) (c : CoreId) : State := let s2 := s.setRole c .active; { s2 with red := { s2.red with active := some c } }
  if s1.red.active.isSome then s1
  else if s1.role p = .standby then take s1 p
  else if s1.role (coreOther p) = .standby then take s1 (coreOther p)
  else if s1.red.noCoreAt.isSome then s1
  else s1.noCore s1.tick

/-! Return to service, drills and swaps (R350 to R352). -/

/-- RED_REVERT_HOLDOFF in ticks. -/
def State.holdoff (s : State) : Nat := s.get F.RED_REVERT_HOLDOFF_S * Config.second

/-- A core becomes STANDBY; the primary may take the active role back from tick `t` on (R352). -/
def State.becomeStandby (s : State) (c : CoreId) (t : Nat) : State :=
  let s1 := (s.setRole c .standby).coreLimp
  if s.primary = c ∧ s.on F.RED_CFG_REVERT_EN then { s1 with red := { s1.red with revertAt := some t } } else s1

/-- PROVING_COMPLETE (R352). -/
def execProvingComplete (core : CoreId) (s : State) : Host.Outcome State Fault Refusal :=
  if s.role core = .proving ∧ s.roleSince core + s.holdoff ≤ s.tick then .next (s.becomeStandby core s.tick) else .next s

/-- Whether a planned swap could begin: a core ACTIVE, the other STANDBY, no bump and no swap in progress. -/
def State.swapReady (s : State) : Bool :=
  match s.red.active with
  | some c => s.role c == .active && s.role (coreOther c) == .standby && s.red.bump.isNone && s.red.drill.isNone
  | none => false

/-- CORE_REVERT (R352): the primary core asks to take the active role back at the next epoch boundary. -/
def execCoreRevert (s : State) : Host.Outcome State Fault Refusal :=
  match s.red.revertAt with
  | some t =>
    if s.swapReady ∧ s.red.active = some (coreOther s.primary) ∧ t ≤ s.tick ∧ s.on F.RED_CFG_REVERT_EN then
      let s1 := s.event Ev.CORE_RETURN (evSource 11 (coreNum s.primary)) [.h (coreNum s.primary)]
      .next { s1 with red := { s1.red with revertAt := none, revertReq := some s.tick } }
    else .next s
  | none => .next s

/-- The ticks between drills (R351). -/
def State.drillPeriod (s : State) : Nat := s.get F.RED_DRILL_CFG_PERIOD * 7200000000

/-- DRILL_DUE (R351). -/
def execDrillDue (s : State) : Host.Outcome State Fault Refusal :=
  match s.red.drillFrom with
  | some t => if s.on F.RED_DRILL_CFG_EN ∧ t + s.drillPeriod ≤ s.tick then .next { s with red := { s.red with drillReq := true } } else .next s
  | none => .next s

/-- PLANNED_SWAP (R350, R351): at an epoch boundary a requested swap begins; a drill also needs RUN. The roles change as the copy of this boundary
commits. -/
def execPlannedSwap (s : State) : Host.Outcome State Fault Refusal :=
  if s.tick % Config.epoch ≠ 0 ∨ ¬ s.running then .next s
  else
    let asked := dueAfter s.red.swapReq s.tick
    let back := dueAfter s.red.revertReq s.tick
    let drill := s.red.drillReq && s.sys.mode == .run && s.swapReady
    let s1 := { s with red := { s.red with swapReq := if asked then none else s.red.swapReq, revertReq := if back then none else s.red.revertReq } }
    if (asked || back || drill) && s.swapReady then
      let from' := if drill then some s.tick else s.red.drillFrom
      .next { s1 with red := { s1.red with drill := some { bound := s.tick, revert := back }, drillReq := s.red.drillReq && !drill, drillFrom := from' } }
    else .next s1

/-- The swap of a drill takes place as its epoch commits (R350): the active core becomes SHADOW. -/
def State.swapAtCommit (s : State) (b : Nat) : State :=
  match s.red.drill, s.red.active with
  | some d, some c =>
    let y := coreOther c
    if d.bound ≠ b ∨ d.since.isSome then s
    else match s.newestEpoch y, s.role c, s.role y with
      | some e, .active, .standby => (s.setRole c .shadow).beginCatchup y e s.tick (s.tick + 1) true false
      | _, _, _ => s.dropDrill
  | _, _ => s

/-- RED_EPOCH as the newest committed epoch of the active core (R338), the entries of the journal that no replay needs removed (R342). -/
def State.showEpoch (s : State) (c : CoreId) : State :=
  match s.newestEpoch c with
  | none => s
  | some e =>
    let need (k : CoreId) : Nat := if (s.role k).copies then ((s.newestEpoch k).map (·.bound)).getD 0 else e.bound
    ((s.wr64 R.RED_EPOCH_LO e.bound).wr R.RED_EPOCH_SEQ (wd e.seq)).pruneJournal (min (need .a) (need .b))

/-- EPOCH_COMMIT (R335 to R338): the copy in progress ends with its marker; whether the CRC of the body stands
right in a core's buffer is a free value (log 62). After tick b + 249 its deadline has passed. The size of the state follows from the image and the spec
gives no figure, so the body length is a free value of at most 1,536 KiB. -/
def execEpochCommit (s : State) : Host.Outcome State Fault Refusal :=
  match s.red.copy, s.red.active with
  | some q, some c =>
    let b := s.copyBound c q
    if b + 249 < s.tick then (s.coreFails1 c .deadline).finish
    else
      let mark (ok : Bool) (t : Tab EpochBuf) : Tab EpochBuf := t.map fun (e : Nat × EpochBuf) =>
        (e.1, if e.2.seq = q then { e.2 with marker := epochMark q, crcOk := ok } else e.2)
      let fr := s.draw
      let s1 := { fr.2 with red := { s.red with copy := none, bufA := mark (Config.bodyCrc 0 fr.1) s.red.bufA, bufB := mark (Config.bodyCrc 1 fr.1) s.red.bufB } }
      let kib := cdiv (4 * ((s.bufs c).val {} (q % 2)).len) 1024
      let s2 := (s1.put F.RED_EPOCH_SIZE_COPY (s.tick - b)).put F.RED_EPOCH_SIZE_KIB kib
      ((s2.showEpoch c).swapAtCommit b).finish
  | _, _ => .next s

/-- DRILL_END (R350): the new core has been ACTIVE for 250 ticks and has committed an epoch; the SHADOW core becomes
STANDBY, or goes to BIST where it left the active role for want of margin (R352). -/
def execDrillEnd (s : State) : Host.Outcome State Fault Refusal :=
  match s.red.drill, s.red.active with
  | some d, some c =>
    match d.since with
    | some t =>
      if s.tick < t + 250 ∨ s.red.seq = d.seqAt ∨ (s.red.copy.isSome ∧ s.red.seq = (d.seqAt + 1) % 2 ^ 32) then .next s
      else
        let y := coreOther c
        let s1 := { s with red := { s.red with drill := none, bumpEnd := some s.tick } }
        let s2 :=
          if s1.role y ≠ .shadow then s1
          else if s1.red.avsOut.contains y then (s1.put (F.RED_COREx_STAT_CAUSE (coreNum y)) 7).toBist y false
          else s1.becomeStandby y (s.tick + s.holdoff)
        .next (s2.noteDrill d (s2.get F.RED_BUMP_LAST) false)
    | none => .next s
  | _, _ => .next s

/-- A planned swap asked for (R355): refused unless a core is STANDBY and no bump is in progress. It waits for the first epoch boundary of RUN or LIMP. -/
def State.redSwap (s : State) : Option State :=
  if (s.red.roleA = .standby ∨ s.red.roleB = .standby) ∧ s.red.bump = none then some { s with red := { s.red with swapReq := some s.tick } } else none

/-- The STANDBY or PROVING core sent to BIST (R355). -/
def State.redRestart (s : State) : Option State :=
  let pick (c : CoreId) : Bool := s.role c == .standby || s.role c == .proving
  if pick .a then some (s.toBist .a false) else if pick .b then some (s.toBist .b false) else none

/-- RED_SWAP (R350). -/
def execRedSwap (s : State) : Host.Outcome State Fault Refusal := .next (if s.served then s.redSwap.getD (s.flag F.RED_ALERT_WR_REFUSED) else s)

/-- RED_RESTART (R355). -/
def execRedRestart (s : State) : Host.Outcome State Fault Refusal := .next (if s.served then s.redRestart.getD (s.flag F.RED_ALERT_WR_REFUSED) else s)

/-! The weathervane and HOLD (R348, R349). -/

/-- HOLD begins in this tick (R349). A trim under way is abandoned with its results (R49), and the NSP triggers that have not acted are discarded
(R462). -/
def State.enterHold (s : State) : State :=
  let halt (s : State) (c : CoreId) : State := if s.role c = .retired then s else s.setRole c .halted
  let gap := s.cutTrim
  let s1 := (s.triggersLost fun t => decide (s.core.pos < t)).haltStreams.holdVotes.rtStop.dropDrill
  let s2 := halt (halt s1 .a) .b
  let s3 := { s2 with
    sys := { s2.sys with trimPend := none, gapTrim := gap }
    cal := { s2.cal with trimStart := none, due := [] }
    red := { s2.red with active := none, bump := none, copy := none, swapReq := none, revertReq := none, drillReq := false,
                         holdAt := some s.tick, marking := false, majLost := false } }
  ((s3.overrule.setMode .hold 0x15).flag F.RED_ALERT_MAJORITY).event Ev.WV_MAJORITY (evSource 11 0) [.t s.tick]

/-- The weathervane loses its majority; in LOAD that begins HOLD at the first tick of TRIM (R349). -/
def State.majorityLoss (s : State) : State :=
  if s.running ∨ s.sys.mode = .trim then s.enterHold
  else if s.sys.mode = .load ∧ ¬ s.sys.porst then { s with red := { s.red with majLost := true } }
  else s

/-- WEATHERVANE_MAJORITY_LOSS (R349). -/
def execWeathervaneMajorityLoss (s : State) : Host.Outcome State Fault Refusal := .next s.majorityLoss

/-- A lane taken out until the next LOAD (R348). With fewer than two lanes left there is no majority. -/
def State.laneOut (s : State) (lane cause : Nat) : State :=
  let l := s.get F.RED_WV_STAT_LANES
  let s1 := s.put F.RED_WV_STAT_LANES (l - 2 ^ lane)
  let s2 := ((s1.flag F.RED_ALERT_WV_LANE).event Ev.WV_LANE (evSource 11 lane) [.h lane, .h cause]).raiseLimp 12
  if popc 3 (l - 2 ^ lane) < 2 then s2.majorityLoss else s2

/-- A lane differs from the majority in this tick (R348): counted, and out with the 4th of 16 consecutive ticks. Two lanes in
service that disagree have no majority (R349). -/
def State.laneDiffers (s : State) (lane : Nat) : State :=
  let recent := ((lane, s.tick) :: s.red.wvDiff.filter (fun e => e != (lane, s.tick))).filter (fun e => decide (s.tick < e.2 + 16))
  let s1 := ({ s with red := { s.red with wvDiff := recent } }).countUp F.RED_WV_STAT_DISAGREE
  if popc 3 (s.get F.RED_WV_STAT_LANES) < 3 then s1.majorityLoss
  else if 4 ≤ recent.countP (fun e => e.1 == lane) then s1.laneOut lane 1
  else s1

/-- WV_LANE_OUT (R348): what a lane in service is found to do in this tick: it differs from the majority (cause 1), which takes it
out with the 4th of 16 ticks, or it fails its parity check (cause 2). -/
def execWvLaneOut (lane cause : Nat) (s : State) : Host.Outcome State Fault Refusal :=
  if 3 ≤ lane ∨ ¬ bitOf (s.get F.RED_WV_STAT_LANES) lane then .next s
  else .next (if cause = 1 then s.laneDiffers lane else s.laneOut lane cause)

/-- TRIM_START (R360). Where fewer than two weathervane lanes came through LOAD, or it lost its majority there, HOLD begins at the
first tick of that trim (R349). Case 2 of R434 may arise as the enables of the image take effect. -/
def execTrimStart (badSlices badConvs : List Nat) (s : State) : Host.Outcome State Fault Refusal :=
  if ¬ s.trimDue then .next s
  else
    let t := s.trimBegin s.tick badSlices badConvs
    (if s.sys.mode = .load ∧ (s.red.majLost ∨ popc 3 (s.get F.RED_WV_STAT_LANES) < 2) then t.enterHold else t).finish

/-- HOLD_FREEZE (R349): RED_HOLD_POST after HOLD began, RAW, the safety net and AUX freeze and open windows close. -/
def execHoldFreeze (s : State) : Host.Outcome State Fault Refusal :=
  match s.red.holdAt with
  | some h =>
    if s.sys.mode = .hold ∧ ¬ s.red.frozen ∧ h + s.get F.RED_HOLD_POST_MS * 2000 ≤ s.tick then
      .next ({ s with red := { s.red with frozen := true } }).freezeWindows
    else .next s
  | none => .next s

/-! Adaptive voltage scaling (R21, R22, R443). -/

/-- Setpoint of a core's supply, mV. -/
def State.avs (s : State) (c : CoreId) : Nat := match c with | .a => s.pwr.avsA | .b => s.pwr.avsB

/-- AVS_ADJUST (R21): 5 mV within 0.70 to 0.90 V, upward at once, downward at most once per frame and not while the hub
braces (R51). -/
def execAvsAdjust (core : CoreId) (up : Bool) (s : State) : Host.Outcome State Fault Refusal :=
  let v := s.avs core
  let fr := s.tick / Config.frame
  let last := match core with | .a => s.pwr.downA | .b => s.pwr.downB
  if s.sys.porst then .next s
  else if up then
    let n := min 900 (v + 5)
    .next (match core with | .a => { s with pwr := { s.pwr with avsA := n } } | .b => { s with pwr := { s.pwr with avsB := n } })
  else if s.bracingNow ∨ last = some fr then .next s
  else
    let n := max 700 (v - 5)
    .next (match core with | .a => { s with pwr := { s.pwr with avsA := n, downA := some fr } } | .b => { s with pwr := { s.pwr with avsB := n, downB := some fr } })

/-- AVS_MARGIN_LOW (R22, R345): a core lacks margin at 0.90 V. The active one hands over to the standby at the next epoch
boundary, or runs on where there is none; another one is out of service until its next BIST passes. -/
def execAvsMarginLow (core : CoreId) (s : State) : Host.Outcome State Fault Refusal :=
  if s.sys.porst ∨ s.avs core < 900 then .next s
  else
    let s1 := s.event Ev.AVS_MARGIN (evSource 0 (coreNum core)) [.h (coreNum core), .h (s.avs core)]
    if s.red.active = some core then
      if s.role (coreOther core) = .standby then
        .next { s1 with red := { s1.red with swapReq := some s.tick, avsOut := core :: s1.red.avsOut.filter (fun k => k != core) } }
      else .next (s1.flag F.RED_ALERT_AVS)
    else match s.role core with
      | .standby | .proving => .next ((s1.put (F.RED_COREx_STAT_CAUSE (coreNum core)) 7).toBist core false)
      | .shadow => .next { s1 with red := { s1.red with avsOut := core :: s1.red.avsOut.filter (fun k => k != core) } }
      | _ => .next s1

/-- AVS_PMBUS_FAIL (R443): the regulator of a core does not answer; that core goes out of service as on a supply failure
of R55. -/
def execAvsPmbusFail (core : CoreId) (status : BitVec 16) (s : State) : Host.Outcome State Fault Refusal :=
  if s.sys.porst then .next s
  else
    let s1 := s.event Ev.AVS_PMBUS (evSource 0 (coreNum core)) [.h (coreNum core), .h (status.toNat % 256)]
    (s1.coreFails1 core .supply).finish

end Sys2Proof.Machine
end

