-- ==== Sys2Proof/Machine/TrgCmds.lean ====
section
/-! DEFINITION. TrgCmds.lean: what reaches the trigger conditions and sources from outside the core (R226, R229,
R231, R462). -/
namespace Sys2Proof.Machine

/-- The AT tick that lies `back` (2⁻¹⁶ ns) before now (R61). -/
def State.tickBack (s : State) (back : Nat) : Nat := (tickOf (s.atUnits - back)).1

/-- A command for the core at tick `t`: in RUN and LIMP it is journaled; in TRIM it is kept for RUN or LIMP if `t`
lies beyond the trim. An evaluation that would take effect in TRIM, HOLD, LOAD or DORMANT is discarded (R462). -/
def State.coreEvent (s : State) (t : Nat) (c : CoreCmd) : State :=
  if s.running then s.coreCmd t c
  else match s.sys.mode, s.cal.trimStart with
    | .trim, some f => if f + Config.trimTicks ≤ t then s.journalCmd t c else s
    | _, _ => s

/-- Edges on one input closer than this belong to one run: 100 ns, in 2⁻¹⁶ ns (R226). -/
def edgeRun : Nat := 100 * 2 ^ 16

/-- TRG_IN_EDGE (R226): an edge `back` (2⁻¹⁶ ns) before now. The first edge of a run raises the EXT conditions of
its input, with the tick that holds it as its stamp. -/
def execTrgInEdge (input : Nat) (rising : Bool) (back : Nat) (s : State) : Host.Outcome State Fault Refusal :=
  if 4 ≤ input then .next s
  else
    let instant := s.tim.frc - back
    let first := match s.hist.trgEdge.look input with
      | some e => decide (e + edgeRun ≤ instant)
      | none => true
    let s1 := { s with hist := { s.hist with trgEdge := s.hist.trgEdge.set input instant } }
    let m := s.tickBack back
    .next (if first then s1.coreEvent (max s.coreSoon (m + 2)) (.edge input rising m) else s1)

/-- A source is armed or disarmed at tick `t` (R229). Arming carries over a trim (R461). -/
def State.armAt (s : State) (t : Nat) (c : CoreCmd) : State :=
  if s.running then s.coreCmd t c
  else match s.cal.trimStart with
    | some f => if f + Config.trimTicks ≤ t then s.journalCmd t c else s.coreCmd t c
    | none => s.coreCmd t c

/-- The tick at which ARM or DISARM acts: the next, or a later one that is named (R229). -/
def State.armTick (s : State) (tick : Nat) : Nat := if tick ≤ s.tick then s.tick + 1 else tick

/-- TRG_SOURCE_ARM (R229). -/
def execTrgSourceArm (q tick : Nat) (s : State) : Host.Outcome State Fault Refusal :=
  if 16 ≤ q ∨ ¬ s.liveMode then .next s
  else if s.journalFull then .next (s.journalRefuse F.TRG_ALERT_WR_REFUSED)
  else .next (s.armAt (s.armTick tick) (.srcArm q))

/-- TRG_SOURCE_DISARM (R229). -/
def execTrgSourceDisarm (q tick : Nat) (s : State) : Host.Outcome State Fault Refusal :=
  if 16 ≤ q ∨ ¬ s.liveMode then .next s
  else if s.journalFull then .next (s.journalRefuse F.TRG_ALERT_WR_REFUSED)
  else .next (s.armAt (s.armTick tick) (.srcDisarm q))

/-- TRIGGER_AUTO_FIRE (R231): a forced firing is due in the tick that the core judges next. It fires within that
tick's work, with the other sources of the tick (R232). -/
def execTriggerAutoFire (q : Nat) (s : State) : Host.Outcome State Fault Refusal :=
  if 16 ≤ q ∨ ¬ s.running ∨ ¬ s.autoDue (s.core.pos + 1) q then .next s else (s.coreRun s.coreDue).finish

/-- HELD_TRIGGER_EFFECT (R226, R462): the triggers held with a stamp s act at s + 2. One whose tick falls outside
RUN and LIMP is discarded; in TRIM those beyond the trim stay. -/
def execHeldTriggerEffect (s : State) : Host.Outcome State Fault Refusal :=
  let due := s.hist.held.filter (fun e => decide (e.2 + 2 ≤ s.tick))
  let s1 := { s with hist := { s.hist with held := s.hist.held.filter (fun e => decide (s.tick < e.2 + 2)) } }
  .next (due.foldl (fun s e =>
    if s.running then s.coreCmd (max s.coreSoon (e.2 + 2)) (.trigger e.1 e.2) else s.refuseTrigger e.1 e.2) s1)

end Sys2Proof.Machine
end

