-- ==== Sys2Proof/Machine/Time.lean ====
section
/-! DEFINITION. Time.lean: the counter, its views and servos, the acquisition timescale, path-delay steps, the machine
reference, compare units and timing outputs (R56 to R88). -/
namespace Sys2Proof.Machine

/-! Views (R56, R58, R70). -/

/-- View TDd. -/
def State.view (s : State) (d : Nat) : View := s.tim.views.val {} d

/-- A view changed. -/
def State.updView (s : State) (d : Nat) (f : View → View) : State :=
  { s with tim := { s.tim with views := s.tim.views.upd {} d f } }

/-- What a view gains in an FRC increment `dc` (2⁻¹⁶ ns), in 2⁻⁶⁴ ns (R58). -/
def viewGain (rate : Int) (dc : Nat) : Int := (dc : Int) * (2 ^ 48 + rate)

/-- The rate of AT without its slew term: that of the view it follows, its last rate where it follows none (R70,
R71). -/
def State.atBase (s : State) : Int := match s.tim.follow with | some d => (s.view d).rate | none => s.tim.atRate

/-- AT minus the view it follows, 2⁻⁶⁴ ns (R70), or minus the bus AT of a member that slews to it (R312). -/
def State.resid (s : State) : Int :=
  match s.tim.follow with | some d => s.tim.atVal - (s.view d).val | none => if s.onBus then s.stk.busResid else 0

/-- The slew rate in force, in units of 2⁻⁴⁸: TIM_SLEW_MAX (R70, log 16). -/
def State.slewRate (s : State) : Nat := s.getWas F.TIM_SLEW_MAX_VALUE * 2 ^ 48 / 1000000000

/-- What the slew takes off the residual in an FRC increment: it never overshoots (R70). -/
def State.slewGain (s : State) (dc : Nat) : Int :=
  let m : Int := min (s.resid.natAbs : Int) ((dc * s.slewRate : Nat) : Int)
  if 0 < s.resid then -m else m

/-- The counter, every view and AT after an FRC increment. -/
def State.advance (s : State) (dc : Nat) : State :=
  let at' := s.tim.atVal + viewGain s.atBase dc + s.slewGain dc
  let base := s.atBase
  let bus := if s.tim.follow.isNone ∧ s.onBus then s.stk.busResid + s.slewGain dc else s.stk.busResid
  { s with stk := { s.stk with busResid := bus }, tim := { s.tim with
    frc := s.tim.frc + dc
    views := (List.range 4).foldl (fun (t : Tab View) d => t.upd {} d fun v => { v with val := v.val + viewGain v.rate dc }) s.tim.views
    atVal := at', atRate := base } }

/-- The smallest FRC increment that brings AT to a value (R32): `dc` satisfies f(dc) ≥ target where AT gains its rate
and, until the residual is gone, the slew. -/
def State.incFor (s : State) (target : Int) : Nat :=
  let need := target - s.tim.atVal
  let up (n d : Int) : Nat := ((n + d - 1) / d).toNat
  let r := 2 ^ 48 + s.atBase
  let sl : Int := if s.resid = 0 then 0 else if 0 < s.resid then -(s.slewRate : Int) else (s.slewRate : Int)
  let d1 := up need (r + sl)
  if s.resid = 0 ∨ d1 * s.slewRate ≤ s.resid.natAbs then d1 else up (need + s.resid) r

/-! Status (R71, R88). -/

/-- Servo and qualification state of TDd. -/
def State.dom (s : State) (d : Nat) : Dom := s.tim.doms.val {} d

/-- The same changed. -/
def State.updDom (s : State) (d : Nat) (f : Dom → Dom) : State :=
  { s with tim := { s.tim with doms := s.tim.doms.upd {} d f } }

/-- STATE code of a domain (R67). -/
def DomState.code : DomState → Nat
  | .off => 0 | .acquiring => 1 | .locked => 2 | .holdover => 3

/-- Whether a domain is qualified (R67). -/
def State.qualified (s : State) (d : Nat) : Bool :=
  decide (d < 2) && (s.dom d).state == .locked && !s.on (F.TIM_TDd_STAT_ASYM_STEP d)

/-- Whether a domain was qualified as the tick in hand began: a change in a frame's first tick shows at the next boundary
only (R34, R71). -/
def State.wasQualified (s : State) (d : Nat) : Bool :=
  if (s.dom d).qualAt = some s.tick then (s.dom d).qualWas else s.qualified d

/-- AT_SRC as R71 has it at a frame boundary for what is followed now; on the clock bus the value of FRAME (R312). -/
def State.srcNow (s : State) : Nat :=
  if s.onBus then s.stk.frameSrc
  else match s.tim.follow with
  | none => 0
  | some d => if s.wasQualified d then d + 1 else 3

/-- A bit of TIM_STAT.QUAL. -/
def State.putQual (s : State) (d : Nat) (b : Bool) : State :=
  let q := s.get F.TIM_STAT_QUAL
  s.put F.TIM_STAT_QUAL (q - b2n (q.testBit d) * 2 ^ d + b2n b * 2 ^ d)

/-- A change of qualification noted with its tick; the first of a tick keeps what was before it (R71). -/
def State.noteQual (s : State) (d : Nat) (q : Bool) : State :=
  let old := s.on (F.TIM_TDd_STAT_QUAL d)
  if q = old ∨ (s.dom d).qualAt = some s.tick then s else s.updDom d fun k => { k with qualAt := some s.tick, qualWas := old }

/-- What the status registers show of TDd. -/
def State.showDom (s : State) (d : Nat) : State :=
  let q := s.qualified d
  (((s.noteQual d q).put (F.TIM_TDd_STAT_STATE d) (s.dom d).state.code).put (F.TIM_TDd_STAT_QUAL d) (b2n q)).putQual d q

/-- SLEWING as it is now (R70, R88). -/
def State.putSlew (s : State) (b : Bool) : State := ({ s with tim := { s.tim with slewing := b } }).put F.TIM_STAT_SLEWING (b2n b)

/-- REC_TIME where AT begins to slew (R76). -/
def State.slewCheck (s : State) : State :=
  if s.resid ≠ 0 ∧ ¬ s.tim.slewing then (s.putSlew true).placeTime 2 else s

/-! What AT follows (R73 to R75). -/

/-- The domain that TIM_CTRL prefers. -/
def State.atPref (s : State) : Nat := s.get F.TIM_CTRL_AT_PREF

/-- The domain that AT ought to follow by R73; going back to the preferred one is R75's. A followed domain held over in disagreement with the
other keeps AT (R78). -/
def State.atWant (s : State) : Option Nat :=
  let p := s.atPref
  match s.get F.TIM_CTRL_AT_MODE with
  | 1 => some p
  | 2 => none
  | _ =>
    match s.tim.follow with
    | some f => if s.qualified f ∨ (s.dom f).apart then some f else if s.qualified p then some p else if s.qualified (1 - p) then some (1 - p) else some f
    | none => if s.qualified p then some p else if s.qualified (1 - p) then some (1 - p) else none

/-- A decision to follow `w`, taken in tick `t` (R73, R74): refused with AT_FAR where AT is too far from its view. -/
def State.decideFollow (s : State) (w : Option Nat) (t : Nat) : State :=
  let set (s : State) : State := { s with tim := { s.tim with decide := some w, decideAt := nextFrame t } }
  match w with
  | none => set s
  | some d =>
    let diff := s.tim.atVal - (s.view d).val
    if (diff.natAbs : Int) ≤ (s.get F.TIM_JOIN_MAX_VALUE : Int) * 1000 * 2 ^ 64 then (set s).put F.TIM_STAT_FAR 0
    else
      (({ s with tim := { s.tim with decide := none } }.flag F.TIM_ALERT_AT_FAR).put F.TIM_STAT_FAR 1).event Ev.AT_FAR (evSource 1 d)
        [.h d, .i (diff / 2 ^ 48)]

/-- Whether a return to the preferred domain stands decided: it holds while that domain is qualified in AUTO (R75). -/
def State.reverting (s : State) : Bool :=
  decide (s.get F.TIM_CTRL_AT_MODE = 0) && s.tim.decide == some (some s.atPref) && s.qualified s.atPref

/-- R73 applied after a change of qualification or of TIM_CTRL, and as LOAD ends. A joined member follows the clock bus instead
(R312). -/
def State.judgeAt (s : State) : State :=
  if ¬ s.tim.atSet ∨ (s.sys.mode = .load ∧ s.sys.load ≠ .done) ∨ s.onBus then s
  else
    let w := s.atWant
    if w = s.tim.follow then (if s.reverting then s else { s with tim := { s.tim with decide := none } })
    else if s.tim.decide = some w then s
    else s.decideFollow w s.tick

/-- AT_SOURCE_CHANGE (R71, R73): at a frame boundary the followed domain and AT_SRC become what was decided. -/
def execAtSourceChange (s : State) : Host.Outcome State Fault Refusal :=
  if s.tick % Config.frame ≠ 0 ∨ ¬ s.tim.atSet then .next s
  else
    let old := s.tim.atSrc
    let due := decide (s.tim.decideAt ≤ s.tick)
    let s1 := match s.tim.decide with
      | some w => if due then { s with tim := { s.tim with follow := w, decide := none, atRate := s.atBase } } else s
      | none => s
    let src := s1.srcNow
    if src = old ∧ s1.tim.follow = s.tim.follow then .next s
    else
      let slew := decide (s1.resid ≠ 0)
      let s2 := { s1 with tim := { s1.tim with atSrc := src, srcHist := (s.tick, src) :: s1.tim.srcHist } }
      let s3 := ((s2.put F.TIM_STAT_AT_SRC src).put F.TIM_STAT_AT_FOLLOW (s2.tim.follow.getD 0)).putSlew slew
      let s4 := ((s3.flag F.TIM_ALERT_AT_SOURCE).event Ev.AT_SOURCE (evSource 1 0) [.h old, .h src, .i (s3.resid / 2 ^ 48)]).placeTime 1
      -- a slew that goes on toward the new domain has the one REC_TIME of the change (R76)
      .next (if slew = s.tim.slewing then s4 else s4.placeTime (if slew then 2 else 3))

/-- AT_REVERT (R75): in AUTO the preferred domain has been qualified for HOLD seconds. The last tick of those seconds is that of the
decision (log 48). -/
def execAtRevert (s : State) : Host.Outcome State Fault Refusal :=
  let p := s.atPref
  match (s.dom p).qualSince with
  | some t =>
    let full := t + s.get F.TIM_REVERT_HOLD * Config.second
    if s.get F.TIM_CTRL_AT_MODE = 0 ∧ s.on F.TIM_REVERT_EN ∧ s.qualified p ∧ full ≤ s.tick ∧ s.tim.follow = some (1 - p) ∧ s.tim.decide.isNone then
      .next (s.decideFollow (some p) (if s.tick = full then full - 1 else s.tick))
    else .next s
  | none => .next s

/-- SLEW_END (R70, R76): the residual has reached zero. -/
def execSlewEnd (s : State) : Host.Outcome State Fault Refusal :=
  if s.tim.slewing ∧ s.resid = 0 then .next ((s.putSlew false).placeTime 3) else .next s

/-- REC_TIME_SECOND_MARK (R76). -/
def execRecTimeSecondMark (s : State) : Host.Outcome State Fault Refusal :=
  if s.tick % Config.second = 0 then .next (s.placeTime 7) else .next s

/-! Domains (R67, R68). -/

/-- The rate of a view set, within ±2⁻⁹ (R58). -/
def State.setRate (s : State) (d : Nat) (r : Int) : State :=
  s.updView d fun v => { v with rate := clampI (-(2 ^ 39)) (2 ^ 39 - 1) r }

/-- Units of 2⁻⁴⁸ of a rate in ns/s, negated and rounded half to even (R68). -/
def servoRate (q : Rat) : Int :=
  let n := -(q * 281474976710656 / 1000000000)
  rhe n.num n.den

/-- A domain enters HOLDOVER (R67): its rate is frozen at the integral term. Told apart as causes
(their codes are open, log 29): 1 messages lost, 2 ASYM_STEP, 3 FORCE_HOLD, 4 the servo's self-check. -/
def State.heldOver (s : State) (d cause : Nat) : State :=
  let s1 := s.updDom d fun k => { k with state := .holdover, inLock := 0, outLock := 0, sinceHold := 0, qualSince := none, lastAt := none, line := [], apart := false }
  let s2 := (s1.setRate d (servoRate (s1.dom d).integ)).flag (if d = 0 then F.TIM_ALERT_HOLD_TD0 else F.TIM_ALERT_HOLD_TD1)
  (s2.event Ev.HOLDOVER (evSource 1 d) [.h d, .h (Config.eventCode Ev.HOLDOVER cause)]).showDom d

/-- HOLDOVER, and what AT follows then (R73). -/
def State.holdOver (s : State) (d cause : Nat) : State := (s.heldOver d cause).judgeAt

/-- Whether the servo hardware of a domain has failed its self-check (R18): the domain then stays in HOLDOVER (log 47). -/
def State.servoDead (s : State) (d : Nat) : Bool := s.part.servoOut.contains d

/-- A domain enters ACQUIRING (R67); one whose servo has failed is held over (R18). -/
def State.acquire (s : State) (d : Nat) : State :=
  if s.servoDead d then s.holdOver d 4
  else ((s.updDom d fun k => { k with state := .acquiring, inLock := 0, outLock := 0, sinceHold := 0, stepped := false, qualSince := none, apart := false }).showDom d).judgeAt

/-- A domain enters LOCKED (R67); unless ASYM_STEP is still set it is qualified from now on (R75). -/
def State.lockDom (s : State) (d : Nat) : State :=
  let since := if s.on (F.TIM_TDd_STAT_ASYM_STEP d) then none else some s.tick
  let s1 := (s.updDom d fun k => { k with state := .locked, outLock := 0, sinceHold := 0, qualSince := since, apart := false }).showDom d
  (if s1.qualified d then s1.event Ev.QUALIFIED (evSource 1 d) [.h d] else s1).judgeAt

/-- EN of TD0 or TD1 written (R67). -/
def State.domEnable (s : State) (d : Nat) (b : Bool) : State :=
  if b then
    if (s.dom d).state = .off then
      (s.updDom d fun k => { integ := k.integ, lastMsg := s.tick }).acquire d
    else s
  else ((s.updDom d fun k => { k with state := .off, qualSince := none, estOn := false, apart := false }).showDom d).judgeAt

/-- The servo of a domain fails its self-check (R18): the second configured domain is brought in, and the loss lasts for the life of the
part (log 47). -/
def State.servoFail (s : State) (d : Nat) : State :=
  let spare := decide ((s.dom (1 - d)).state ≠ .off) && !s.servoDead (1 - d)
  let s1 := { s with part := { s.part with servoOut := d :: s.part.servoOut, domSpare := if spare then 1 else s.part.domSpare } }
  let s2 := if spare then s1.useSpare 9 else s1
  (if (s2.dom d).state = .holdover then s2 else s2.holdOver d 4).exhaust 9

/-- FORCE_HOLD of TD0 or TD1 written (R67). -/
def State.domForce (s : State) (d : Nat) (b : Bool) : State :=
  if b ∧ (s.dom d).state ≠ .off ∧ (s.dom d).state ≠ .holdover then s.holdOver d 3 else s

/-- A measurement applied to the servo (R68). Where no applied one precedes it since the start, a step or HOLDOVER, dt is 0 (log 54). -/
def State.servo (s : State) (d : Nat) (m : Meas) : State :=
  let k := s.dom d
  let e : Rat := (m.e : Rat) / 131072
  let dt : Rat := match k.lastAt with | some t => ((m.instant - t : Nat) : Rat) / (65536 * 1000000000) | none => 0
  let p := (s.get (F.TIM_TDd_KP_VALUE d) : Rat) / 16777216 * e
  let i := k.integ + (s.get (F.TIM_TDd_KI_VALUE d) : Rat) / 16777216 * e * dt
  (s.updDom d fun k => { k with integ := i, lastAt := some m.instant }).setRate d (servoRate (p + i))

/-- The square root of a number, rounded down. -/
def isqrt (n : Nat) : Nat :=
  (List.range 64).reverse.foldl (fun r i => if (r + 2 ^ i) * (r + 2 ^ i) ≤ n then r + 2 ^ i else r) 0

/-- The median of four numbers, doubled: the sum of the two in the middle. -/
def median4x2 (a b c d : Int) : Int :=
  (a + b + c + d) - min (min a b) (min c d) - max (max a b) (max c d)

/-- Sixteen times the change that the step detector sees in a history of 20 (R77): the median of the last 4 against
the mean of the 16 before, as its formula has it (log 54). -/
def stepChange (l : List Int) : Int :=
  8 * median4x2 (l.getD 0 0) (l.getD 1 0) (l.getD 2 0) (l.getD 3 0) - ((l.drop 4).take 16).sum

/-- d of R78: the other view minus this one, 2⁻⁶⁴ ns. -/
def State.viewDiff (s : State) (x : Nat) : Int := (s.view (1 - x)).val - (s.view x).val

/-- EV_DOMAIN_DISAGREE and its alert (R78). -/
def State.disagree (s : State) (x : Nat) : State :=
  (s.flag F.TIM_ALERT_DISAGREE).event Ev.DOMAIN_DISAGREE (evSource 1 x) [.i (s.viewDiff x / 2 ^ 48)]

/-- ASYM_TD0 or ASYM_TD1 of TIM_ALERT (R88). -/
def asymAlert (x : Nat) : Fld := ⟨R.TIM_ALERT, if x = 0 then 1 else 2, 1⟩

/-- An asymmetric path-delay step of domain `x` (R78, R79). `dm` and `de` are in 2⁻¹⁶ ns. -/
def State.asymStep (s : State) (x : Nat) (dm de : Int) : State :=
  let y := 1 - x
  let was := s.on (F.TIM_TDd_STAT_ASYM_STEP y)
  let yLocked := (s.dom y).state == .locked && !was
  let s1 := (s.put (F.TIM_TDd_STAT_ASYM_STEP x) 1).put (F.TIM_TDd_STAT_EST_VALID x) 0
  let s2 := s1.updDom x fun k => { k with line := [], hist := k.hist.take 4, estOn := false, estN := 0, estSum := 0, stepCnt := 0, solo := none, apart := false }
  let s3 := if (s2.dom x).state = .holdover then s2.showDom x else s2.heldOver x 2
  let s4 := (s3.flag (asymAlert x)).event Ev.ASYM_STEP (evSource 1 x)
    [.h x, .i dm, .i de]
  let s5 := s4.placeTime 4
  if yLocked then
    -- where they agree, AUTO goes over to y (R73); where not, AT stays where it is
    if (s5.viewDiff x).natAbs ≤ s5.get F.TIM_AGREE_THR_VALUE * 2 ^ 48 then (s5.updDom x fun k => { k with estOn := true }).judgeAt
    else ((s5.updDom x fun k => { k with apart := true }).disagree x).judgeAt
  else
    let s6 := if was ∧ (s5.dom y).stepCnt ≤ 16 then (s5.disagree x).updDom y fun k => { k with estOn := false } else s5
    (s6.updDom x fun k => { k with solo := some s6.tick }).judgeAt

/-- A measurement in the estimate of R78. -/
def State.estimate (s : State) (x : Nat) (e : Int) : State :=
  let k := s.dom x
  if k.estOn ∧ k.estN < 64 then s.updDom x fun k => { k with estN := k.estN + 1, estSum := k.estSum + (e * 2 ^ 47 - s.viewDiff x) } else s

/-- The state of a domain after a measurement (R67): the counts of measurements within and beyond LOCK_THR. A measurement on which a
symmetric path-delay step is found keeps the domain in its state and ends the run of those beyond (R67, R77). -/
def State.judgeDom (s : State) (d : Nat) (e : Int) (stepped : Bool) : State :=
  let ok := decide ((e.natAbs : Int) ≤ (s.get (F.TIM_TDd_QUAL_CFG_LOCK_THR d) : Int) * 131072)
  let s1 := s.updDom d fun k => { k with inLock := if ok then k.inLock + 1 else 0, outLock := if ok ∨ stepped then 0 else k.outLock + 1, sinceHold := k.sinceHold + 1 }
  let k := s1.dom d
  if stepped then s1 else match k.state with
  | .acquiring => if 16 ≤ k.inLock then s1.lockDom d else s1
  | .locked => if 4 ≤ k.outLock then s1.acquire d else s1
  | .holdover =>
    if s1.on (F.TIM_TDd_STAT_ASYM_STEP d) || s1.on (F.TIM_TDd_CTRL_FORCE_HOLD d) || s1.servoDead d then s1.updDom d fun k => { k with inLock := 0, sinceHold := 0 }
    else if 16 ≤ k.inLock then s1.lockDom d
    else if 16 ≤ k.sinceHold then s1.acquire d
    else s1
  | .off => s1

/-- A measurement reaches the servo behind a delay line of 4 (R68); in HOLDOVER it is not applied (R67). -/
def State.feed (s : State) (d : Nat) (m : Meas) : State :=
  let k := s.dom d
  if k.state = .holdover then s
  else
    let s1 := s.updDom d fun k => { k with line := (m :: k.line).take 4 }
    match k.line.drop 3 with
    | o :: _ => s1.servo d o
    | [] => s1

/-- ACQUIRING steps the view at the first measurement beyond STEP_THR (R67); measurements made before the step are
dropped. -/
def State.acquireStep (s : State) (d : Nat) (e : Int) : Option State :=
  let k := s.dom d
  if k.state = .acquiring ∧ ¬ k.stepped ∧ (s.get (F.TIM_TDd_QUAL_CFG_STEP_THR d) : Int) * 1000 * 131072 < (e.natAbs : Int) then
    let s1 := s.updView d fun v => { v with val := v.val - e * 2 ^ 47 }
    let s2 := s1.updDom d fun k => { k with stepped := true, line := [], hist := [], inLock := 0, outLock := 0, lastAt := none }
    some (if s2.tim.follow = some d then s2.slewCheck else s2)
  else none

/-- One measurement of a domain (R64, R67, R68, R77, R78): offset and mean path delay in 2⁻¹⁷ ns. OFS_RMS is taken over the
offsets there are, up to 64, and rounded down (R86, log 54). -/
def State.measure (s : State) (d : Nat) (e mpd : Int) : State :=
  let s1 := (s.countUp (F.TIM_TDd_STAT_MEAS_CNT d)).put (F.TIM_TDd_STAT_MSG_LOSS d) 0
  let s2 := s1.updDom d fun k => { k with lastMsg := s.tick, hist := ((mpd, e) :: k.hist).take 20, rms := (e :: k.rms).take 64, stepCnt := k.stepCnt + 1 }
  let l := (s2.dom d).rms
  let fr := s2.draw
  let s3 := (fr.2.wr (R.TIM_TDd_OFS_RMS d) (wd (isqrt ((l.map (fun x => x * x)).sum.toNat / (4 * l.length))))).wr
    (R.TIM_TDd_MPD d) (wd (min (2 ^ 32 - 1) (Config.freeNat fr.1)))
  match s3.acquireStep d e with
  | some t => t
  | none =>
    let h := (s3.dom d).hist
    let dm := stepChange (h.map (·.1))
    let de := stepChange (h.map (·.2))
    -- both are 16 times a change in 2⁻¹⁷ ns, so 32 times one in 2⁻¹⁶ ns
    let stepped := decide (h.length = 20) && decide ((s3.get F.TIM_ASYM_THR_VALUE : Int) * 32 < (dm.natAbs : Int))
    let diff := ((de.natAbs : Int) - (dm.natAbs : Int)).natAbs
    let asym := decide (diff ≤ 65536 * 32) || decide (4 * diff ≤ dm.natAbs)
    if stepped && asym then s3.asymStep d (dm / 32) (de / 32)
    else
      let s4 := if stepped then
          (s3.updDom d fun k => { k with hist := k.hist.take 4 }).event Ev.PATH_STEP (evSource 1 d) [.h d, .i (dm / 32)]
        else s3
      ((s4.estimate d e).feed d ⟨e, mpd, s.tim.frc⟩).judgeDom d e stepped

/-- The FRC cross-check of a troupe member (R312): its qualified view against the bus AT, per measurement. -/
def State.crossCheck (s : State) (d : Nat) : State :=
  if ¬ s.onBus ∨ ¬ s.qualified d then s
  else
    let diff := (s.tim.atVal - s.stk.busResid - (s.view d).val) / 2 ^ 48
    let s1 := s.wr R.STK_XCHECK (wd (tw 32 (satI 32 diff)))
    if (5 * 65536 : Int) < (diff.natAbs : Int) then
      let n := (s.dom d).xcheck + 1
      let s2 := s1.updDom d fun k => { k with xcheck := n }
      if n = 16 then (s2.flag F.STK_ALERT_XCHECK).event Ev.TROUPE_XCHECK (evSource 1 d) [.h d, .i diff] else s2
    else s1.updDom d fun k => { k with xcheck := 0 }

/-- The latency of an uplink, TX or RX, for its present link speed with the gearbox position (R65), 2⁻¹⁶ ns: taken from a
reception time and added to a transmission time (log 54). -/
def State.portLat (s : State) (port : Nat) (rx : Bool) : Nat := (s.rd (portCal (2 * port + b2n rx))).toNat

/-- The addresses of a PTP message over the transport that TIM_TDd_CTRL selects (R62): messages of the peer delay mechanism go to a group of their
own, event messages (types 0 to 3) to port 319 and general ones to 320. -/
def State.ptpHead (s : State) (d type : Nat) (t : Tx) : Tx :=
  let peer := type == 2 || type == 3 || type == 10
  let udp := if type < 8 then 319 else 320
  match s.get (F.TIM_TDd_CTRL_TRANSPORT d) with
  | 0 => { t with l2 := some (if peer then 0x0180C200000E else 0x011B19000000, 0x88F7) }
  | 1 => { t with udp := some { src := s.ipOf t.port false, dst := if peer then 0xE000006B else 0xE0000181, srcPort := udp, dstPort := udp, df := true } }
  | _ => { t with udp := some { v6 := true, src := s.ipOf t.port true, dst := if peer then 0xFF02 * 2 ^ 112 + 0x6B else 0xFF0E * 2 ^ 112 + 0x181
                                srcPort := udp, dstPort := udp } }

/-- A PTP message of a domain put on its bound port (R62): its type as IEEE 1588 numbers it, transport, domain number, LOGSYNC, and the times it
carries. Its further fields are those of the standard, which the spec does not repeat (log 49). -/
def State.ptpSend (s : State) (d type : Nat) (times : List Word) : State :=
  let w := type + s.get (F.TIM_TDd_CTRL_TRANSPORT d) * 16 + s.get (F.TIM_TDd_CTRL_PTP_DOM d) * 256 + s.get (F.TIM_TDd_CTRL_LOGSYNC d) * 65536
  s.uplinkSend (s.ptpHead d type { port := s.get (F.TIM_TDd_CTRL_PORT d), kind := .ptp, words := wd w :: times })

/-- The delay request of an exchange: Delay_Req (1), one-step or two-step with its transmission time in a second message, or
Pdelay_Req (2) (R62). -/
def State.delayReq (s : State) (d : Nat) (sent : Int) : State :=
  if s.on (F.TIM_TDd_CTRL_MECH d) then s.ptpSend d 2 []
  else if s.on (F.TIM_TDd_CTRL_TWO_STEP d) then (s.ptpSend d 1 []).ptpSend d 8 (numWords 3 (ts96 sent.toNat)) else s.ptpSend d 1 []

/-- PTP_MEASUREMENT (R62, R64, R65): an exchange ends. Times are in 2⁻¹⁶ ns, those of the hub's own port as its counter took them: the reception t2
is corrected by the port's RX latency, the transmission t3 by its TX latency, and a Pdelay exchange's mean by half of both. In
peer-to-peer mode the mean path delay is the Pdelay exchange's, and without one no offset is formed. The steward computes it, and without
the steward no offset arrives (R14). `own` is what the hub itself finds: the mean of the Pdelay exchange, if one has ended, and whether the servo
passes its self-check; one that fails it takes no measurement (R18). -/
def execPtpMeasurement (d : Nat) (t1 t2 t3 t4 : Int) (own : Option Int × Bool) (s : State) : Host.Outcome State Fault Refusal :=
  if 2 ≤ d ∨ (s.dom d).state = .off ∨ ¬ s.sys.steward then .next s
  else if ¬ own.2 ∧ ¬ s.servoDead d then .next (s.servoFail d)
  else
    let port := s.get (F.TIM_TDd_CTRL_PORT d)
    let rx : Int := (s.portLat port true : Int)
    let tx : Int := (s.portLat port false : Int)
    let r := t2 - rx - t1
    let mpd : Option Int := if s.on (F.TIM_TDd_CTRL_MECH d) then own.1.map (fun p => 2 * p - (rx + tx)) else some (r + (t4 - (t3 + tx)))
    match mpd with
    | none => .next s
    | some m => .next ((((s.delayReq d (t3 + tx)).measure d (2 * r - m - 2 * s.getI (F.TIM_TDd_ASYM_VALUE d)) m)).crossCheck d)

/-- DOMAIN_LOSS_TIMEOUT (R67). -/
def execDomainLossTimeout (d : Nat) (s : State) : Host.Outcome State Fault Refusal :=
  let k := s.dom d
  if 2 ≤ d ∨ k.state = .off ∨ s.tick < k.lastMsg + s.get (F.TIM_TDd_QUAL_CFG_LOSS_TMO d) * Config.second then .next s
  else
    let s1 := s.put (F.TIM_TDd_STAT_MSG_LOSS d) 1
    .next (if k.state = .holdover then s1 else s1.holdOver d 1)

/-! Ends of an asymmetric step (R78, R79). -/

/-- ASYM_STEP of a domain cleared (R79): it returns to the servo, and an estimate not yet formed ends (log 54). A LOCKED domain is qualified from
now on (R67, R75). -/
def State.endStep (s : State) (x : Nat) : State :=
  if ¬ s.on (F.TIM_TDd_STAT_ASYM_STEP x) then s
  else
    let s1 := (s.put (F.TIM_TDd_STAT_ASYM_STEP x) 0).updDom x fun k =>
      { k with estOn := false, estN := 0, estSum := 0, solo := none, inLock := 0, sinceHold := 0, apart := false }
    if s1.qualified x then (s1.updDom x fun k => { k with qualSince := some s.tick }).event Ev.QUALIFIED (evSource 1 x) [.h x] else s1

/-- accept(x) of R79: an estimate that is valid stays so. -/
def State.acceptStep (s : State) (x : Nat) : State := (((s.endStep x).showDom x).placeTime 5).judgeAt

/-- apply(x) of R79; an asymmetry beyond ±1 µs by command is case 7 of R434. -/
def State.applyAsym (s : State) (x : Nat) : State :=
  let a := s.getI (F.TIM_TDd_ASYM_VALUE x) + s.getI (F.TIM_TDd_ASYM_EST_VALUE x)
  let s1 := (s.wr (R.TIM_TDd_ASYM x) (wd (tw 32 a))).put (F.TIM_TDd_STAT_EST_VALID x) 0
  let s4 := ((s1.event Ev.ASYM_APPLIED (evSource 1 x) [.h x, .i a]).endStep x).showDom x
  let s5 := (if s.on (F.TIM_TDd_STAT_ASYM_STEP x) then s4.placeTime 5 else s4).placeTime 6
  let s6 := s5.judgeAt
  if 1000 * 65536 < a.natAbs then s6.unchecked 7 else s6

/-- ASYM_EST_COMPLETE (R78): after 64 measurements the estimate is valid, and AUTO applies it within ±1 µs; an estimate that
would lead beyond raises the domain's alert again. The mean is rounded to the register's units, half to even, and saturates there (log 54). -/
def execAsymEstComplete (d : Nat) (s : State) : Host.Outcome State Fault Refusal :=
  let k := s.dom d
  if k.estOn ∧ k.estN = 64 then
    let est := rhe k.estSum (64 * 2 ^ 48)
    let s1 := ((s.wr (R.TIM_TDd_ASYM_EST d) (wd (tw 32 (satI 32 est)))).put (F.TIM_TDd_STAT_EST_VALID d) 1).updDom d fun k => { k with estOn := false }
    let sum := s.getI (F.TIM_TDd_ASYM_VALUE d) + est
    .next (if ¬ s.on F.TIM_ASYM_AUTO_AUTO then s1 else if sum.natAbs ≤ 1000 * 65536 then s1.applyAsym d else s1.flag (asymAlert d))
  else .next s

/-- SOLO_HOLD_EXPIRY (R78). -/
def execSoloHoldExpiry (d : Nat) (s : State) : Host.Outcome State Fault Refusal :=
  match (s.dom d).solo with
  | some t =>
    if s.on (F.TIM_TDd_STAT_ASYM_STEP d) ∧ s.on F.TIM_ASYM_AUTO_SOLO ∧ t + s.get F.TIM_ASYM_AUTO_SOLO_HOLD * Config.second ≤ s.tick then
      .next (s.acceptStep d)
    else .next s
  | none => .next s

/-- A write of ASYM_APPLY (R79): ignored with WR_REFUSED while EST_VALID is clear. -/
def State.asymApply (s : State) (d : Nat) : State :=
  if s.on (F.TIM_TDd_STAT_EST_VALID d) then s.applyAsym d else s.flag F.TIM_ALERT_WR_REFUSED

/-- ASYM_APPLY (R79). Case 7 of R434 may arise. -/
def execAsymApply (d : Nat) (s : State) : Host.Outcome State Fault Refusal :=
  if 2 ≤ d ∨ ¬ s.liveMode then .next s else (s.asymApply d).finish

/-- STEP_ACCEPT (R79). -/
def State.stepAccept (s : State) (d : Nat) : State := if s.on (F.TIM_TDd_STAT_ASYM_STEP d) then s.acceptStep d else s

/-- STEP_ACCEPT (R79): without an ASYM_STEP there is nothing to accept. -/
def execStepAccept (d : Nat) (s : State) : Host.Outcome State Fault Refusal :=
  if 2 ≤ d ∨ ¬ s.liveMode then .next s else .next (s.stepAccept d)

/-! Best master and peer delay (R62). -/

/-- Whether a data set is better than another, by the order of the best-master comparison (log 21). -/
def Master.better (a b : Master) : Bool :=
  let key (m : Master) : List Nat := [m.prio1, m.cls, m.acc, m.var, m.prio2, m.ident, m.steps]
  decide (key a < key b)

/-- The best master of a domain on its bound port: one heard on another port is gone with it (R62). -/
def State.master (s : State) (d : Nat) : Option Master := (s.tim.masters.look d).filter fun m => m.port == s.get (F.TIM_TDd_CTRL_PORT d)

/-- PTP_ANNOUNCE_RX (R62): the slave-only selection keeps the best master heard on the bound port, in the domain number and over the
transport that TIM_TDd_CTRL selects. From a new master that offers unicast the hub requests Sync at LOGSYNC in a signalling message. -/
def execPtpAnnounceRx (d : Nat) (m : Announce) (s : State) : Host.Outcome State Fault Refusal :=
  if 2 ≤ d ∨ (s.dom d).state = .off ∨ ¬ s.sys.steward ∨ m.port ≠ s.get (F.TIM_TDd_CTRL_PORT d) ∨ m.domain ≠ s.get (F.TIM_TDd_CTRL_PTP_DOM d)
      ∨ m.transport ≠ s.get (F.TIM_TDd_CTRL_TRANSPORT d) then .next s
  else
    let new : Master := ⟨m.prio1, m.cls, m.acc, m.var, m.prio2, m.ident, m.steps, m.port⟩
    let take : Bool := match s.master d with
      | none => true
      | some o => o.ident == new.ident || new.better o
    let known : Bool := match s.master d with | some o => o.ident == new.ident | none => false
    let s1 := { s with tim := { s.tim with masters := s.tim.masters.set d new } }
    .next (if ¬ take then s else if m.unicast ∧ ¬ known then s1.ptpSend d 12 [] else s1)

/-- PDELAY_REQ_RX (R62): answered in peer-to-peer mode: one-step with the turn-around time, or two-step with reception
and transmission times in two messages. Times are in 2⁻¹⁶ ns, corrected by the port's latencies (R65). -/
def execPdelayReqRx (d t2 t3 : Nat) (s : State) : Host.Outcome State Fault Refusal :=
  let port := s.get (F.TIM_TDd_CTRL_PORT d)
  if 2 ≤ d ∨ (s.dom d).state = .off ∨ ¬ s.on (F.TIM_TDd_CTRL_MECH d) ∨ ¬ s.linkUp port then .next s
  else
    let got := t2 - s.portLat port true
    let sent := t3 + s.portLat port false
    if s.on (F.TIM_TDd_CTRL_TWO_STEP d) then
      .next ((s.ptpSend d 3 (numWords 3 (ts96 got))).ptpSend d 10 (numWords 3 (ts96 sent)))
    else .next (s.ptpSend d 3 (numWords 2 (sent - got)))

/-! Frequency source (R66). -/

/-- Rank of an SSM code, lower is better; none for a code that is never accepted. -/
def qlRank (q : Nat) : Option Nat := match q with | 2 => some 0 | 4 => some 1 | 8 => some 2 | 11 => some 3 | _ => none

/-- Whether the recovered clock of uplink `x` qualifies in AUTO (R66). -/
def State.clkOk (s : State) (x : Nat) : Bool :=
  match s.tim.rxClk.look x with
  | none => false
  | some none => !s.on F.TIM_FRC_SRC_ESMC_REQ
  | some (some q) =>
    match qlRank q, qlRank (s.get F.TIM_FRC_SRC_QL_MIN) with
    | some a, some b => decide (a ≤ b)
    | _, _ => false

/-- The frequency source that TIM_FRC_SRC selects now: 0 XO_IN, 1 UPA, 2 UPB (R66). A fixed uplink needs its clock, with a valid ESMC where
ESMC_REQ is set (R88); its quality level counts in AUTO only (log 54). -/
def State.frcSource (s : State) : Nat :=
  match s.get F.TIM_FRC_SRC_SEL with
  | 0 => 0
  | 3 => if s.clkOk 0 then 1 else if s.clkOk 1 then 2 else 0
  | k => match s.tim.rxClk.look (k - 1) with
    | none => 0
    | some q => if s.on F.TIM_FRC_SRC_ESMC_REQ ∧ q.isNone then 0 else k

/-- The source in use as the status registers show it. -/
def State.showFrc (s : State) : State :=
  let k := s.frcSource
  [0, 1].foldl (fun s d => s.put (F.TIM_TDd_STAT_SYNCE d) (b2n (decide (k = s.get (F.TIM_TDd_CTRL_PORT d) + 1)))) (s.put F.TIM_STAT_FRC_ACT k)

/-- The recovered clock of an uplink is lost; of the one in use that is logged, and the FRC falls back to the next source (R66). -/
def State.loseClk (s : State) (port lastQl : Nat) : State :=
  let used := decide (s.get F.TIM_STAT_FRC_ACT = port + 1)
  let s1 := ({ s with tim := { s.tim with rxClk := s.tim.rxClk.drop port } }).showFrc
  if used then (s1.flag F.TIM_ALERT_SYNCE_LOSS).event Ev.SYNCE_LOSS (evSource 1 port) [.h port, .h lastQl] else s1

/-- FRC_SOURCE_CHANGE (R66): the quality levels that arrive on the uplinks whose clock is recovered; the source in use
follows them phase-continuously. The clock of a port that is down is lost; its last quality level is the one held, or open where it
never had one (log 29). -/
def execFrcSourceChange (qlA qlB : Option (BitVec 4)) (s : State) : Host.Outcome State Fault Refusal :=
  let one (s : State) (x : Nat) (q : Option (BitVec 4)) : State :=
    if s.linkUp x then { s with tim := { s.tim with rxClk := s.tim.rxClk.set x (q.map BitVec.toNat) } }
    else s.loseClk x ((s.tim.rxClk.look x).join.getD (Config.eventCode Ev.SYNCE_LOSS 0))
  .next ((one (one s 0 qlA) 1 qlB).showFrc)

/-- SYNCE_LOSS (R66): the recovered clock in use is lost. -/
def execSynceLoss (port : Nat) (lastQl : BitVec 4) (s : State) : Host.Outcome State Fault Refusal :=
  .next (if s.get F.TIM_STAT_FRC_ACT = port + 1 then s.loseClk port lastQl.toNat else s)

/-! Machine reference, PPS, TD3 and snapshots (R58, R80, R81, R85, R88). -/

/-- AT at an FRC instant at or before now, 2⁻¹⁶ ns. -/
def State.atWhen (s : State) (frc : Nat) : Nat := ((s.tim.atVal - viewGain s.atBase (s.tim.frc - frc)) / 2 ^ 48).toNat

/-- Whether an interval of markers lies within 200 ppm of DIV / NOM_KHZ (R80). -/
def State.markerGood (s : State) (iv : Nat) : Bool :=
  let div := s.get F.TIM_MCLK_CFG_DIV * 1000000 * 65536
  let x : Int := (iv * s.get F.TIM_MCLK_CFG_NOM_KHZ : Nat) - (div : Nat)
  decide (x.natAbs * 1000000 ≤ 200 * div)

/-- The rate with which TD2 advances by DIV / NOM over a marker interval of the FRC (R80), in units of 2⁻⁴⁸. -/
def State.markerRate (s : State) (iv : Nat) : Int :=
  let real : Nat := iv * s.get F.TIM_MCLK_CFG_NOM_KHZ
  rhe (((s.get F.TIM_MCLK_CFG_DIV * 1000000 * 65536 : Nat) - (real : Int)) * 2 ^ 48) real

/-- MCLK_MARKER (R80): a marker edge at an FRC instant. TD2's rate moves toward the one with which it advances by DIV / NOM per marker; the spec
gives the loop its bandwidth and no law, so how far a marker moves it is free (log 20). A discarded marker is as one that never came, but for the interval of
the next (log 54). LOCK is set with the 1,024th good marker (log 54). -/
def execMclkMarker (ts : Nat) (s : State) : Host.Outcome State Fault Refusal :=
  if ¬ s.on F.TIM_MCLK_CFG_EN then .next s
  else
    let good : Bool := match s.tim.mLast with | some t => s.markerGood (ts - t) | none => false
    let kept := good || s.tim.mLast.isNone
    let s1 := { s with tim := { s.tim with
      mLast := some ts, mCount := s.tim.mCount + b2n kept, mPhase := if kept then (tickOf (s.atWhen ts)).2 else s.tim.mPhase
      mGoodAt := if kept then ts else s.tim.mGoodAt
      mGood := if good then min 1024 (s.tim.mGood + 1) else s.tim.mGood } }
    if ¬ good then .next s1
    else
      let fr := s1.draw
      let old := (s1.view 2).rate
      let aim := s.markerRate (match s.tim.mLast with | some t => ts - t | none => 0)
      let rate : Int := old + (aim - old) * ((Config.freeNat fr.1 % (2 ^ 32 + 1) : Nat) : Int) / 2 ^ 32
      let s2 := if fr.2.on F.TIM_MCLK_STAT_LOSS then fr.2 else fr.2.setRate 2 rate
      if s2.tim.mGood = 1024 then .next (((s2.put F.TIM_MCLK_STAT_LOSS 0).put F.TIM_MCLK_STAT_LOCK 1).putQual 2 true) else .next s2

/-- MCLK_LOSS (R80): no good marker for 4 marker periods. -/
def execMclkLoss (s : State) : Host.Outcome State Fault Refusal :=
  let div := s.get F.TIM_MCLK_CFG_DIV * 1000000 * 65536
  if s.on F.TIM_MCLK_CFG_EN ∧ ¬ s.on F.TIM_MCLK_STAT_LOSS ∧ 4 * div ≤ (s.tim.frc - s.tim.mGoodAt) * s.get F.TIM_MCLK_CFG_NOM_KHZ then
    let s1 := ({ s with tim := { s.tim with mGood := 0 } }).put F.TIM_MCLK_STAT_LOSS 1
    .next ((((s1.put F.TIM_MCLK_STAT_LOCK 0).putQual 2 false).flag F.TIM_ALERT_MCLK_LOSS).event Ev.MCLK_LOSS (evSource 1 2) [.h s.tim.mCount])
  else .next s

/-- PPS_IN_EDGE (R85): an edge `back` (2⁻¹⁶ ns) before now. -/
def execPpsInEdge (back : Nat) (s : State) : Host.Outcome State Fault Refusal :=
  if s.on F.TIM_PPS_CFG_IN_EN then .next (s.wr96 R.TIM_PPS_IN0 (ts96 (s.atUnits - back))) else .next s

/-- A view set by TIM_TDd_OFS2 (R58, R88): for TD0 and TD1 refused unless the domain is OFF, which an image's entries are not asked (R460). -/
def State.setOffset (s : State) (d : Nat) (ts : Nat) : State :=
  if d < 2 ∧ (s.dom d).state ≠ .off ∧ s.sys.mode ≠ .load then s.flag F.TIM_ALERT_WR_REFUSED
  else (s.wr96 (R.TIM_TDd_OFS0 d) ts).updView d fun v => { v with val := (ts96Units ts : Int) * 2 ^ 48 }

/-- TD_OFFSET_WRITE (R58). -/
def execTdOffsetWrite (d : Nat) (ts : BitVec 96) (s : State) : Host.Outcome State Fault Refusal :=
  if 4 ≤ d ∨ ¬ s.liveMode then .next s else .next (s.setOffset d ts.toNat)

/-- TD3's rate set (R81). -/
def State.setTd3 (s : State) (rate : Nat) : State :=
  ((s.wr (R.TIM_TDd_RATE_LO 3) (wd rate)).wr (R.TIM_TDd_RATE_HI 3) (wd (rate / 2 ^ 32 % 256))).setRate 3 (sx 40 rate)

/-- TD3_RATE_WRITE (R81). -/
def execTd3RateWrite (rate : BitVec 40) (s : State) : Host.Outcome State Fault Refusal := .next (if s.liveMode then s.setTd3 rate.toNat else s)

/-- A time in 2⁻⁶⁴ ns as a TS96, a negative one as 0. -/
def ts96Of (v : Int) : Nat := ts96 (v / 2 ^ 48).toNat

/-- The snapshot registers filled from one FRC value (R88). -/
def State.snap (s : State) : State :=
  let s1 := (s.wr64 R.TIM_SNAP_FRC0 s.tim.frc).wr R.TIM_SNAP_FRC2 (wd (s.tim.frc / 2 ^ 64 % 65536))
  let t := tickOf s.atUnits
  let s2 := (((s1.wr96 R.TIM_SNAP_AT0 (ts96 s.atUnits)).wr64 R.TIM_SNAP_TICK_LO t.1).wr R.TIM_SNAP_SUBTICK (wd t.2))
  (List.range 4).foldl (fun s d => s.wr96 (R.TIM_SNAP_TDd0 d) (ts96Of (s.view d).val)) s2

/-- SNAP_LATCH (R88). -/
def execSnapLatch (s : State) : Host.Outcome State Fault Refusal := .next (if s.liveMode then s.snap else s)

/-! Compare units (R82, R83). -/

/-- Compare unit `u`. -/
def State.updTcmp (s : State) (u : Nat) (f : Tcmp → Tcmp) : State :=
  { s with tim := { s.tim with tcmp := s.tim.tcmp.upd {} u f } }

/-- A FILTER_SYNC target of the ringmaster put on the troupe bus (R317). -/
def State.tcmpBus (s : State) (u target : Nat) : State := if s.get (F.TIM_TCMPu_CTRL_ACTION u) = 3 then s.busSync target else s

/-- The FILTER_SYNC target of an armed unit withdrawn from the troupe bus (R317). -/
def State.untcmpBus (s : State) (u : Nat) : State :=
  let k := s.tim.tcmp.val {} u
  if k.armed then s.unbusSync k.target else s

/-- TIM_TCMPu_CTRL.ARM (R82). -/
def State.armTcmp (s : State) (u : Nat) : State :=
  let target := s.rd64 (R.TIM_TCMPu_TICK_LO u)
  if target ≤ s.tick + 2 then (s.put (F.TIM_TCMPu_STAT_ERR_LATE u) 1).flag F.TIM_ALERT_TCMP_LATE
  else
    let s1 := (s.untcmpBus u).updTcmp u fun _ => ⟨true, target, (s.rd (R.TIM_TCMPu_PERIOD u)).toNat⟩
    (s1.wr (R.TIM_TCMPu_STAT u) 1).tcmpBus u target

/-- TIM_TCMPu_CTRL.DISARM (R82). -/
def State.disarmTcmp (s : State) (u : Nat) : State := ((s.untcmpBus u).updTcmp u fun k => { k with armed := false }).put (F.TIM_TCMPu_STAT_ARMED u) 0

/-- TCMP_ARM (R82). -/
def execTcmpArm (u : Nat) (s : State) : Host.Outcome State Fault Refusal := if 16 ≤ u ∨ ¬ s.liveMode then .next s else .next (s.armTcmp u)

/-- TCMP_DISARM (R82). -/
def execTcmpDisarm (u : Nat) (s : State) : Host.Outcome State Fault Refusal := if 16 ≤ u ∨ ¬ s.liveMode then .next s else .next (s.disarmTcmp u)

/-- A timing output changed. -/
def State.updTout (s : State) (t : Nat) (f : Tout → Tout) : State :=
  { s with tim := { s.tim with tout := s.tim.tout.upd {} t f } }

/-- A timing output in tick `n` (R84): it runs from its start to its stop, a stop overriding a start of the same tick (R83), and is active for
WIDTH ticks from each tick m with m mod Q = PHASE that is not before its start; low in LOAD and DORMANT (R45). A start of an output that
runs changes nothing. -/
def State.toutTick (s : State) (n t : Nat) : State :=
  let k := s.tim.tout.val {} t
  if ¬ k.running ∧ k.startAt.isNone ∧ k.stopAt.isNone then s else
  let due (x : Option Nat) : Bool := match x with | some a => decide (a ≤ n) | none => false
  let stop := k.stopAt == some n
  let run := (k.running || due k.startAt) && !stop
  let since := if !run then none else if k.running then k.since else k.startAt
  let q := s.get (F.TIM_TOUTt_PERIOD_PERIOD t)
  let into := if q = 0 then 0 else (n + q - s.get (F.TIM_TOUTt_PHASE_PHASE t) % q) % q
  let began := match since with | some a => decide (a + into ≤ n) | none => false
  let lvl := s.live && began && decide (into < s.get (F.TIM_TOUTt_WIDTH_WIDTH t))
  let s1 := s.updTout t fun k =>
    { running := run, level := lvl, since := since, startAt := if due k.startAt then none else k.startAt
      stopAt := if stop || !(due k.stopAt) then k.stopAt else none }
  s1.put (F.TIM_TOUTt_CTRL_RUNNING t) (b2n run)

/-- What a firing does (R82, R83): actions 1 to 4 only in RUN and LIMP. TOUT_START by a unit makes none of the checks that
the write of START makes (log 54). -/
def State.tcmpAct (s : State) (u m : Nat) : State :=
  let a := s.get (F.TIM_TCMPu_CTRL_ACTION u)
  let sel := s.get (F.TIM_TCMPu_CTRL_TOUT_SEL u)
  if 1 ≤ a ∧ a ≤ 4 ∧ ¬ s.running then (s.unbusSync m).put (F.TIM_TCMPu_STAT_VOID u) 1
  else
    let s1 := s.put (F.TIM_TCMPu_STAT_VOID u) 0
    match a with
    | 1 => s1.acqFire u
    | 2 => s1.scanFire (s.get (F.TIM_TCMPu_CTRL_GROUPS u))
    | 3 => s1.coreCmd m (.sync (2 + u))
    | 4 => s1.coreEvent (max s1.coreSoon m) (.tcmp u m)
    | 5 => (s1.updTout sel fun k => { k with startAt := some s.tick }).toutTick s.tick sel
    | 6 => (s1.updTout sel fun k => { k with stopAt := some s.tick }).toutTick s.tick sel
    | _ => s1

/-- TCMP_FIRE (R82): the unit has reached its target. Case 2 of R434 may arise as an enable takes effect. -/
def execTcmpFire (u : Nat) (s : State) : Host.Outcome State Fault Refusal :=
  let k := s.tim.tcmp.val {} u
  if ¬ k.armed ∨ s.tick < k.target then .next s
  else
    let s1 := (s.countUp (F.TIM_TCMPu_STAT_FIRES u)).tcmpAct u k.target
    let s2 := if k.period = 0 then s1.disarmTcmp u
      else (s1.updTcmp u fun k => { k with target := k.target + k.period }).tcmpBus u (k.target + k.period)
    s2.finish

/-- Whether the settings of a timing output let it start (R88). -/
def State.toutOk (s : State) (t : Nat) : Bool :=
  let q := s.get (F.TIM_TOUTt_PERIOD_PERIOD t)
  let w := s.get (F.TIM_TOUTt_WIDTH_WIDTH t)
  decide (2 ≤ q) && decide (q ≤ Config.second) && decide (s.get (F.TIM_TOUTt_PHASE_PHASE t) < q) && decide (1 ≤ w) && decide (w < q)

/-- TIM_TOUTt_CTRL.START (R84): from the next tick; refused outside the ranges of its settings. -/
def State.startTout (s : State) (t : Nat) : State :=
  if s.toutOk t then s.updTout t fun k => { k with startAt := some (s.tick + 1) } else s.flag F.TIM_ALERT_WR_REFUSED

/-- TIM_TOUTt_CTRL.STOP (R84): from the next tick. -/
def State.stopTout (s : State) (t : Nat) : State := s.updTout t fun k => { k with stopAt := some (s.tick + 1) }

/-- TOUT_START (R84). -/
def execToutStart (t : Nat) (s : State) : Host.Outcome State Fault Refusal := if 4 ≤ t ∨ ¬ s.liveMode then .next s else .next (s.startTout t)

/-- TOUT_STOP (R84). -/
def execToutStop (t : Nat) (s : State) : Host.Outcome State Fault Refusal := if 4 ≤ t ∨ ¬ s.liveMode then .next s else .next (s.stopTout t)

end Sys2Proof.Machine
end

