-- ==== Sys2Proof/Machine/Nvm.lean ====
section
/-! DEFINITION. Nvm.lean: the two flashes and their operations (R51, R382, R383), and the event recorder behind them (R407
to R422). -/
namespace Sys2Proof.Machine

/-! Flash contents (R383). -/

/-- What an erased byte reads. -/
def nvmErased : Byte := 0xFF

/-- The cells of a flash. -/
def State.flash (s : State) (f : Nat) : List Host.Cell := if f = 0 then s.part.nvm0 else s.part.nvm1

/-- A flash changed. -/
def State.setFlash (s : State) (f : Nat) (m : List Host.Cell) : State :=
  if f = 0 then { s with part := { s.part with nvm0 := m } } else { s with part := { s.part with nvm1 := m } }

/-- Bytes read from a flash. -/
def State.flashBytes (s : State) (f a n : Nat) : List Byte := Mem.bytes nvmErased (s.flash f) a n

/-- Whether a flash is in service. -/
def State.flashOk (s : State) (f : Nat) : Bool := s.part.nvmOk.getD f false

/-- Whether the log area of a flash takes records (R419, R424). -/
def State.logTakes (s : State) (f : Nat) : Bool := s.flashOk f && s.part.logOk.getD f false

/-- The log area of a flash. -/
def State.logArea (s : State) (f : Nat) : Tab (Option LogRec) := if f = 0 then s.part.log0 else s.part.log1

/-- The log area of a flash changed. -/
def State.updLog (s : State) (f : Nat) (g : Tab (Option LogRec) → Tab (Option LogRec)) : State :=
  if f = 0 then { s with part := { s.part with log0 := g s.part.log0 } } else { s with part := { s.part with log1 := g s.part.log1 } }

/-- Offset of the log area (R383). -/
def logBase : Nat := 0x2020000

/-- Logical sector of a log operation. -/
def NvmOp.logSector (o : NvmOp) : Nat := (o.off - logBase) / 65536

/-- Whether an operation works on the log area. -/
def NvmOp.onLog (o : NvmOp) : Bool := o.why == .log || o.why == .logClear

/-- Whether two operations belong to one piece of work. -/
def NvmOp.same (a b : NvmOp) : Bool :=
  a.why == b.why && (a.why == .log || a.why == .logClear || a.why == .bootRecord || a.off == b.off)

/-- Operations enter the queue (R383): none for a flash out of service, none on a log area that takes no records. -/
def State.nvmQueue (s : State) (ops : List NvmOp) : State :=
  { s with nvmq := s.nvmq ++ ops.filter (fun o => if o.onLog then s.logTakes o.flash else s.flashOk o.flash) }

/-- An operation has done what it does to its flash. -/
def State.nvmApply (s : State) (o : NvmOp) : State :=
  if o.onLog then
    if o.erase then s.updLog o.flash fun t => t.filter (fun (e : Nat × Option LogRec) => e.1 / 2048 != o.logSector)
    else s.updLog o.flash fun t => o.recs.foldl (fun t (e : Nat × LogRec) => t.set e.1 (some { e.2 with closedAt := none })) t
  else if o.erase then s.setFlash o.flash (Mem.clear (s.flash o.flash) o.off 65536)
  else s.setFlash o.flash (Mem.write nvmErased (s.flash o.flash) o.off o.data)

/-- The sequence numbers that a piece of log work carried. -/
def NvmOp.seqs (o : NvmOp) : List Nat := o.recs.map (·.2.seq)

/-! The life and misc area (R277, R383, R413). How it is laid out is open (log 64): BOOT, then for each flash the physical sector of each of the 120
logical log sectors, then a CRC-16, at the start of the area. -/

/-- Offset of the life and misc area. -/
def lifeBase : Nat := 0x2820000

/-- The physical sector that stands for a logical sector of a flash's log area (R413). -/
def State.physSector (s : State) (f l : Nat) : Nat := ((s.part.sectorMap.find? (fun e => e.1 == f && e.2.1 == l)).map (·.2.2)).getD l

/-- What the life and misc area is to hold. -/
def State.lifeBytes (s : State) : List Byte :=
  let b := leBytes 2 s.part.boot ++ (List.range 240).map fun i => BitVec.ofNat 8 (s.physSector (i / 120) (i % 120))
  b ++ leBytes 2 (crc16 b)

/-- The life and misc area written on both flashes, NVM0 first. -/
def State.writeLife (s : State) : State :=
  s.nvmQueue ([0, 1].flatMap fun f => [{ flash := f, erase := true, off := lifeBase, why := .life }, { flash := f, off := lifeBase, data := s.lifeBytes, why := .life }])

/-- The life and misc area as LOAD finds it: the first whole one of the flashes in service. -/
def State.lifeHeld (s : State) : Option (List Byte) :=
  (([0, 1].filter s.flashOk).map fun f => s.flashBytes f lifeBase 244).find? fun b => crc16 (b.take 242) == leVal (b.drop 242)

/-- BOOT and the sector map as the flashes hold them; where none does, those of the part stand. -/
def State.readLife (s : State) : State :=
  match s.lifeHeld with
  | none => s
  | some b =>
    let map := (List.range 240).filterMap fun i =>
      let p := (b.getD (2 + i) 0).toNat
      if p = i % 120 then none else some (i / 120, i % 120, p)
    { s with part := { s.part with boot := leVal (b.take 2), sectorMap := map } }

/-- Staged records given up: both flashes hold them, or the one in service does (R414). -/
def State.unstage (s : State) (seqs : List Nat) : State :=
  { s with log := { s.log with staged := s.log.staged.filter (fun r => r.closedAt.isNone || !(seqs.contains r.seq)) } }

/-- The anti-rollback count: bits burned from bit 0 upward (R387). -/
def State.arbCount (s : State) : Nat := ((List.range 64).find? (fun i => !s.part.arb.toNat.testBit i)).getD 64

/-- Anti-rollback bits burned up to a count, one at a time, each logged with the new count (R390); none while the hub braces
(R51). -/
def State.burnArb (s : State) (upTo : Nat) : State :=
  if s.bracingNow then { s with pwr := { s.pwr with arbTo := max s.pwr.arbTo upTo } }
  else
    ((List.range 64).filter (fun i => decide (s.arbCount ≤ i) && decide (i < upTo))).foldl (fun (s : State) i =>
      ({ s with part := { s.part with arb := s.part.arb ||| BitVec.ofNat 64 (2 ^ i) } }).event Ev.ARB_BURN (evSource 13 0) [.h (i + 1)]) s

/-- A piece of work has no operation left. A page frees its staged records and a clear is finished where a flash still takes records, which has
then done all of it; where none does, the records stay staged and CLEARING stays set (R414, R422). A boot record that confirms an image is followed
by the burns of R390. -/
def State.nvmFinish (s : State) (o : NvmOp) : State :=
  match o.why with
  | .log => if s.logTakes 0 || s.logTakes 1 then ({ s with log := { s.log with page := [] } }).unstage s.log.page else s
  | .logClear =>
    if s.logTakes 0 || s.logTakes 1 then
      let s1 := ({ s with log := { s.log with clear := none }, part := { s.part with fixNext := 8 } }).flag F.LOG_ALERT_CLEARED
      s1.unstage o.seqs
    else s
  | .bootRecord =>
    let there := s.flashOk 0 || s.flashOk 1
    let s1 := { s with upd := { s.upd with stage := if s.upd.stage = 3 then (if there then 4 else 0) else s.upd.stage, burnTo := 0 } }
    if there then s1.burnArb s.upd.burnTo else s1
  | .chunk => { s with upd := { s.upd with
      done := if s.flashOk 0 || s.flashOk 1 then s.upd.done + 1 else s.upd.done, inflight := s.upd.inflight - 1 } }
  | .repair => if s.flashOk o.flash then s.countUp F.UPD_NVM_REPAIRS else s
  | .header | .life => s

/-- The works that end as operations leave the queue. -/
def State.nvmSettle (s : State) (gone : List NvmOp) : State :=
  gone.foldl (fun (s : State) o => if s.nvmq.any (fun k => k.same o) then s else s.nvmFinish o) s

/-- The last operation of each work among operations that leave together. -/
def lastOps : List NvmOp → List NvmOp
  | [] => []
  | o :: r => if r.any (fun k => k.same o) then lastOps r else o :: lastOps r

/-- The first operation of the queue completes. A boot record is the newest one from its first copy on (R393). -/
def State.nvmDone (s : State) (o : NvmOp) (rest : List NvmOp) : State :=
  let s1 := ({ s with nvmq := rest }).nvmApply o
  let s2 := if o.why = .bootRecord ∧ ¬ o.erase then s1.wr R.UPD_BOOTREC (wd (leVal (o.data.drop 4 |>.take 4))) else s1
  s2.nvmSettle [o]

/-- Log operations of a flash dropped. -/
def State.dropOps (s : State) (p : NvmOp → Bool) : State :=
  let gone := s.nvmq.filter p
  ({ s with nvmq := s.nvmq.filter (fun o => !(p o)) }).nvmSettle (lastOps gone)

/-- A flash is lost to the NVM spare class (R382): what it was to do is dropped and the other carries on. The operations told
apart in EV_NVM_FAIL (their codes are open, log 29): 0 read, 1 erase, 2 program. -/
def State.loseFlash (s : State) (f opcode off : Nat) : State :=
  if ¬ s.flashOk f then s
  else
    let s1 := { s with part := { s.part with nvmOk := s.part.nvmOk.set f false, logOk := s.part.logOk.set f false } }
    let s2 := ((s1.flag F.UPD_ALERT_NVM_FAIL).event Ev.NVM_FAIL (evSource 13 f) [.h f, .h (Config.eventCode Ev.NVM_FAIL opcode), .h off]).put (if f = 0 then F.UPD_NVM_OK0 else F.UPD_NVM_OK1) 0
    ((s2.useSpare 7).exhaust 7).dropOps fun o => o.flash == f

/-- The first operation of the queue ends (R382). While the hub braces no erase goes on, and only a program that was under way as
bracing began completes (R51). A failed one is tried 3 times; in the log area the third failure waits for a spare sector (R418),
elsewhere the flash is lost. -/
def State.nvmOpEnd (s : State) (ok : Bool) : State :=
  match s.nvmq with
  | [] => s
  | o :: rest =>
    if 3 ≤ o.tries ∨ s.sys.porst ∨ (s.bracingNow ∧ (o.erase ∨ ¬ s.pwr.flying)) then s
    else
      let s1 := { s with pwr := { s.pwr with flying := false } }
      if ok then s1.nvmDone o rest
      else if o.tries < 2 ∨ o.onLog then { s1 with nvmq := { o with tries := o.tries + 1 } :: rest }
      else s1.loseFlash o.flash (if o.erase then 1 else 2) o.off

/-- What the flashes report (R382): an operation ends, a flash is lost because its reads fail, or it will give no valid SFDP, for which the next LOAD,
reading the tables as it begins, counts it as lost. -/
def State.nvmEvent (s : State) : NvmEnd → State
  | .done => s.nvmOpEnd true
  | .failed => s.nvmOpEnd false
  | .readLost f off => if s.sys.porst ∨ 2 ≤ f then s else s.loseFlash f 0 off
  | .noSfdp f => { s with part := { s.part with sfdp := s.part.sfdp.set f false } }

/-- LOAD reads the SFDP of each flash: one that gives none that will do is lost (R382). -/
def State.readSfdp (s : State) : State :=
  [0, 1].foldl (fun (s : State) f => if s.part.sfdp.getD f true then s else s.loseFlash f 0 0) s

/-- Every operation of the queue done at once: a warm reset begins with the flashes at rest. -/
def State.nvmFlush (s : State) : List NvmOp → State
  | [] => s
  | o :: rest => (s.nvmDone o rest).nvmFlush rest

/-- The flashes as a warm reset begins: the queue done, or, while the hub braces, only the page program that was under way (R51); the
rest waits for the end of bracing. -/
def State.nvmRest (s : State) : State :=
  if ¬ s.bracingNow then s.nvmFlush s.nvmq
  else match s.nvmq with
    | o :: rest => if s.pwr.flying then ({ s with pwr := { s.pwr with flying := false } }).nvmDone o rest else s
    | [] => s

/-- Whether the first operation of the queue is under way: while the hub braces only a program or an erase that bracing found under way is (R51). -/
def State.nvmAtWork (s : State) : Bool := !s.bracingNow || s.pwr.flying || s.pwr.suspended

/-- Power lost in an operation: the sector being erased or the page being programmed is left in an unknown state (free
bytes, log slots whose CRC fails), and nothing else of the queue happens. -/
def State.nvmCut (s : State) : State :=
  let s1 := { s with nvmq := [], log := { s.log with clear := none } }
  match s.nvmq with
  | [] => s1
  | o :: _ =>
    if ¬ s.nvmAtWork ∨ 3 ≤ o.tries then s1
    else if o.onLog then
      if o.erase then s1.updLog o.flash fun t => t.map fun (e : Nat × Option LogRec) => if e.1 / 2048 = o.logSector then (e.1, none) else e
      else s1.updLog o.flash fun t => o.recs.foldl (fun t (e : Nat × LogRec) => t.set e.1 none) t
    else
      let fr := s1.draw
      let n := if o.erase then 65536 else o.data.length
      fr.2.setFlash o.flash (Mem.write nvmErased (fr.2.flash o.flash) o.off (freeBytes fr.1 n))

/-! The event recorder (R410 to R419). -/

/-- The closed records that wait for a page, oldest first (R414). -/
def State.logWaiting (s : State) : List LogRec := (s.log.staged.filter (fun r => r.closedAt.isSome)).reverse

/-- Whether a page or a clear is under way. -/
def State.logBusy (s : State) : Bool := s.log.clear.isSome || s.nvmq.any (fun o => o.onLog)

/-- Slots of the carousel. -/
def carSlots : Nat := 229376

/-- The operations of one page on one flash: the sector is erased as the writer enters it (R415). -/
def logOps (f : Nat) (why : NvmUse) (slot : Nat) (recs : List LogRec) (erase : Bool) : List NvmOp :=
  let rs : Tab LogRec := recs.zipIdx.map fun (e : LogRec × Nat) => (slot + e.2, e.1)
  let at' := logBase + slot * 32
  (if erase && slot % 2048 = 0 then [({ flash := f, erase := true, off := at', why := why, recs := rs } : NvmOp)] else [])
    ++ [{ flash := f, off := at', why := why, recs := rs }]

/-- Whether a SEQ comes after another, SEQ wrapping (R409). -/
def seqAfter (a b : Nat) : Bool := a != b && decide ((a + 2 ^ 32 - b) % 2 ^ 32 < 2 ^ 31)

/-- A page of closed records goes to both flashes (R414, R415): into the carousel, and into the fixed area while that has
room after the last clear. -/
def State.logPage (s : State) : State :=
  let recs := s.logWaiting.take 8
  if recs = [] ∨ s.logBusy ∨ s.bracingNow ∨ ¬ (s.logTakes 0 || s.logTakes 1) then s
  else
    let car := 16384 + s.part.carNext
    let fix := recs.filter (fun (r : LogRec) => s.part.clearSeq == 0 || seqAfter r.seq s.part.clearSeq)
    let toFix := decide (s.part.fixNext < 16384) && fix != []
    let ops := [0, 1].flatMap (fun f => logOps f .log car recs true) ++ (if toFix then [0, 1].flatMap fun f => logOps f .log s.part.fixNext fix false else [])
    ({ s with log := { s.log with page := recs.map LogRec.seq }, part := { s.part with
      carNext := (s.part.carNext + 8) % carSlots, fixNext := if toFix then s.part.fixNext + 8 else s.part.fixNext } }).nvmQueue ops

/-- LOG_PAGE_WRITE (R414): 8 closed records wait, or the oldest has waited 10 s, or a shutdown programs what is closed
(R432). -/
def execLogPageWrite (s : State) : Host.Outcome State Fault Refusal :=
  let w := s.logWaiting
  let old : Bool := match w with | r :: _ => decide (r.closedAt.getD 0 + 20000000 ≤ s.tick) | [] => false
  if s.sys.porst then .next s
  else if 8 ≤ w.length ∨ old ∨ s.sys.shut.isSome then .next s.logPage else .next s

/-- LOG_RECORD_TIMEOUT (R410): an open record closes after 600 s. -/
def execLogRecordTimeout (s : State) : Host.Outcome State Fault Refusal :=
  match s.log.openAt with
  | some t => if t + 1200000000 ≤ s.tick then .next { s with log := { s.log with staged := closeOpen s.log s.tick, openAt := none } } else .next s
  | none => .next s

/-- The losses of one class reported (R412). -/
def State.reportLost (s : State) (cls : Nat) : State :=
  match s.log.lost.find? (fun e => e.1 == cls) with
  | some (_, n, t) =>
    if s.log.staged.length < Config.stagingSlots then
      ({ s with log := { s.log with lost := s.log.lost.filter (fun e => e.1 != cls) } }).event Ev.LOST (evSource 14 cls) [.w n, .w t]
    else s
  | none => s

/-- LOST_REPORT (R412): with slots free, one EV_LOST per class with losses, in ascending order. -/
def execLostReport (s : State) : Host.Outcome State Fault Refusal := .next ((List.range 256).foldl (fun s c => s.reportLost c) s)

/-- The operations that rewrite a log sector of a flash whole: it is erased, and each page of the records programmed. -/
def rewriteOps (f sector : Nat) (why : NvmUse) (recs : Tab LogRec) : List NvmOp :=
  { flash := f, erase := true, off := logBase + sector * 65536, why := why } ::
    (List.range 256).filterMap fun p =>
      let page := recs.filter fun (e : Nat × LogRec) => e.1 / 8 == sector * 256 + p
      if page.isEmpty then none else some { flash := f, off := logBase + (sector * 256 + p) * 256, why := why, recs := page }

/-- The records of a log sector that is to be rewritten on a flash: those of the other flash, and of staging (R418). -/
def State.sectorRecs (s : State) (f sector : Nat) : Tab LogRec :=
  if s.flashOk (1 - f) then
    (s.logArea (1 - f)).filterMap fun (e : Nat × Option LogRec) => if e.1 / 2048 = sector then e.2.map fun r => (e.1, r) else none
  else
    (s.logArea f).filterMap fun (e : Nat × Option LogRec) =>
      if e.1 / 2048 = sector then e.2.bind fun r => if s.log.staged.any (fun k => k.seq == r.seq) then some (e.1, r) else none else none

/-- LOG_SECTOR_SPARE (R418): a log operation has failed 3 times on a flash: the logical sector moves to the next unused
spare sector, the sector map is written, and its records are rewritten there before the operation is tried again, unless that erases the sector;
with the spares used up, logging ends on that flash. None of this begins while the hub braces (R416). -/
def execLogSectorSpare (flash sector : Nat) (s : State) : Host.Outcome State Fault Refusal :=
  match s.nvmq with
  | o :: rest =>
    if ¬ o.onLog ∨ o.tries < 3 ∨ o.flash ≠ flash ∨ o.logSector ≠ sector ∨ 2 ≤ flash ∨ s.bracingNow then .next s
    else
      let n := s.part.logSpare.getD flash 0
      if n < 8 then
        let again := (if o.erase then [] else rewriteOps flash sector o.why (s.sectorRecs flash sector)) ++ [{ o with tries := 0 }]
        let s1 := { s with
          nvmq := again ++ rest
          part := { s.part with
            logSpare := s.part.logSpare.set flash (n + 1)
            sectorMap := (flash, sector, 120 + n) :: s.part.sectorMap.filter (fun e => e.1 != flash || e.2.1 != sector) } }
        let s2 := s1.writeLife
        let s3 := ((s2.useSpare 8).flag F.LOG_ALERT_SPARE).event Ev.LOG_SPARE (evSource 14 flash) [.h flash, .h sector, .h (n + 1)]
        .next (if n = 7 then s3.exhaust 8 else s3)
      else .next (({ s with part := { s.part with logOk := s.part.logOk.set flash false } }).dropOps fun k => k.onLog && k.flash == flash)
  | [] => .next s

/-- The flashes that take no log records, as a bitmask (R419). -/
def State.logFailed (s : State) : Nat := b2n (!(s.logTakes 0)) + 2 * b2n (!(s.logTakes 1))

/-- The tombstone of R419. -/
def State.tombstone (s : State) (seq : Nat) : BitVec 128 :=
  let secs := s.logTime.toNat / 2 ^ 48 % 2 ^ 32
  let body := seq % 2 ^ 32 + secs * 2 ^ 32 + s.part.boot % 65536 * 2 ^ 64 + s.logFailed * 2 ^ 80 + min 4095 s.log.staged.length * 2 ^ 84
  BitVec.ofNat 128 (body + crc16 (leBytes 14 body) * 2 ^ 112)

/-- LOG_MEDIUM_FAIL (R419): neither flash takes log records, which is noted once from each LOAD on. One tombstone is burned per power-up, while any
is left; no OTP bit is burned while the hub braces (R51). -/
def execLogMediumFail (s : State) : Host.Outcome State Fault Refusal :=
  if s.logTakes 0 ∨ s.logTakes 1 ∨ s.sys.porst ∨ s.bracingNow ∨ s.log.noted then .next s
  else
    let seq := s.log.next
    let s1 := ({ s with log := { s.log with noted := true } }).event Ev.LOG_MEDIUM_FAIL (evSource 14 0) [.h s.logFailed, .h s.log.staged.length]
    let s2 := if s.log.tombBurned ∨ 32 ≤ s.part.tombs.length then s1
      else { s1 with part := { s1.part with tombs := s1.part.tombs ++ [s1.tombstone seq] }, log := { s1.log with tombBurned := true } }
    .next ((s2.flag F.LOG_ALERT_MEDIUM).raiseLimp 13)

/-! Log areas as they are read (R417, R420). -/

/-- The flashes whose log areas are read: those that take records; where none does, those that can still be read. -/
def State.logFlashes (s : State) : List Nat :=
  let l := [0, 1].filter s.logTakes
  if l.isEmpty then [0, 1].filter s.flashOk else l

/-- A log area with a slot taken from the flash that holds it whole. -/
def State.logMerged (s : State) : Tab LogRec :=
  s.logFlashes.foldl (fun (t : Tab LogRec) f => (s.logArea f).foldl (fun (t : Tab LogRec) (e : Nat × Option LogRec) =>
    match e.2, t.look e.1 with | some r, none => t.set e.1 r | _, _ => t) t) []

/-- The record with the highest SEQ among slots, SEQ wrapping. -/
def newestSlot : List (Nat × LogRec) → Option (Nat × LogRec)
  | [] => none
  | e :: r => some (r.foldl (fun (m : Nat × LogRec) (x : Nat × LogRec) => if seqAfter x.2.seq m.2.seq then x else m) e)

/-- A record put into its place among records by their distance from SEQ `k`. -/
def insertLog (k : Nat) (x : LogRec) : List LogRec → List LogRec
  | [] => [x]
  | y :: r => if (x.seq + 2 ^ 32 - k) % 2 ^ 32 ≤ (y.seq + 2 ^ 32 - k) % 2 ^ 32 then x :: y :: r else y :: insertLog k x r

/-- The records of slots in ascending SEQ, the oldest first (R420). -/
def bySeq (l : List (Nat × LogRec)) : List LogRec :=
  match newestSlot l with
  | none => []
  | some e => l.foldr (fun x t => insertLog ((e.2.seq + 1) % 2 ^ 32) x.2 t) []

/-- The records of an area, oldest first (R420): 0 fixed, 1 carousel, 2 staging. A sector under erasure is left out. -/
def State.logEntries (s : State) (area : Nat) : List LogRec :=
  let t := match s.nvmq with
    | o :: _ => if o.onLog && o.erase then s.logMerged.filter (fun (e : Nat × LogRec) => e.1 / 2048 != o.logSector) else s.logMerged
    | [] => s.logMerged
  match area with
  | 0 => bySeq (t.filter (fun (e : Nat × LogRec) => decide (e.1 < 16384)))
  | 1 => bySeq (t.filter (fun (e : Nat × LogRec) => decide (16384 ≤ e.1)))
  | _ => s.log.staged.reverse

/-- The 32 bytes of a log record (R407). -/
def LogRec.bytes (r : LogRec) : List Byte :=
  let b := leBytes 4 r.seq ++ leBytes 12 r.time.toNat ++ leBytes 2 r.code ++ leBytes 2 r.source ++ leBytes 2 r.rep ++ (r.data ++ List.replicate (8 - r.data.length) 0)
  b ++ leBytes 2 (crc16 b)

/-- The slot after the record with the highest SEQ of the carousel, at the next page boundary (R414, R417). -/
def State.carPoint (s : State) : Nat :=
  match newestSlot (s.logMerged.filter (fun (e : Nat × LogRec) => decide (16384 ≤ e.1))) with
  | none => 0
  | some top => ((top.1 - 16384) / 8 + 1) * 8 % carSlots

/-- The next SEQ at LOAD (R409): one more than the highest held in a log area or in staging. -/
def State.nextSeq (s : State) : Nat :=
  match newestSlot s.logMerged with
  | none => s.log.next
  | some e =>
    let n := (e.2.seq + 1) % 2 ^ 32
    if s.log.next = 0 ∧ s.log.staged = [] ∨ seqAfter n s.log.next then n else s.log.next

/-- Both log areas read at LOAD (R409, R417): torn slots come back from the other flash, and the write points and the next SEQ
follow from what is held; where pages still wait, as after a warm reset that found the hub bracing, the write points stay behind them. -/
def State.loadLog (s : State) : State :=
  let both := s.logFlashes.length == 2
  let torn (f : Nat) : List Nat := if s.logFlashes.contains f then ((s.logArea f).filter (fun (e : Nat × Option LogRec) => e.2.isNone)).map (·.1) else []
  let good (f i : Nat) : Option LogRec := if both then ((s.logArea (1 - f)).look i).join else none
  let fix (s : State) (f : Nat) : State := (torn f).foldl (fun (s : State) i =>
    match good f i with
    | some r => s.updLog f fun t => t.set i (some r)
    | none => s.updLog f fun t => t.drop i) s
  let all := (torn 0).length + (torn 1).length
  let got := (torn 0).countP (fun i => (good 0 i).isSome) + (torn 1).countP (fun i => (good 1 i).isSome)
  let s1 := fix (fix s 0) 1
  let fixed := s1.logMerged.filter (fun (e : Nat × LogRec) => decide (e.1 < 16384))
  let fixPoint := match fixed.getLast? with | some e => (e.1 / 8 + 1) * 8 | none => 0
  let clear := match fixed.head? with | some (0, r) => if r.code = Ev.LOG_CLEARED then r.seq else 0 | _ => 0
  let s2 := { s1 with
    part := if s1.nvmq.any (fun o => o.onLog) then s1.part else { s1.part with carNext := s1.carPoint, fixNext := fixPoint, clearSeq := clear }
    log := { s1.log with next := s1.nextSeq } }
  if all = 0 then s2 else (s2.event Ev.LOG_TORN (evSource 14 0) [.h (all - got), .h got]).flag F.LOG_ALERT_TORN

/-- Steps 3 and 4 of a clear (R421): the fixed area is erased on both flashes, and EV_LOG_CLEARED is programmed into fixed
slot 0. -/
def clearOps (r : LogRec) : List NvmOp :=
  let rs : Tab LogRec := [(0, r)]
  ([0, 1].flatMap fun f => (List.range 8).map fun k => ({ flash := f, erase := true, off := logBase + k * 65536, why := .logClear, recs := rs } : NvmOp))
    ++ [0, 1].map fun f => ({ flash := f, off := logBase, why := .logClear, recs := rs } : NvmOp)

/-- The clear that power cut short after its record reached the carousel is completed at LOAD (R422). -/
def State.resumeClear (s : State) : State :=
  match newestSlot (s.logMerged.filter (fun (e : Nat × LogRec) => decide (16384 ≤ e.1) && e.2.code == Ev.LOG_CLEARED)) with
  | none => s
  | some top =>
    if s.log.clear.isNone ∧ (s.part.clearSeq = 0 ∨ seqAfter top.2.seq s.part.clearSeq) then
      ({ s with log := { s.log with clear := some { seq := top.2.seq, step := 3, record := top.2 } }, part := { s.part with clearSeq := top.2.seq, fixNext := 0 } }).nvmQueue (clearOps top.2)
    else s

end Sys2Proof.Machine
end

