-- ==== Sys2Proof/Machine/Sid.lean ====
section
/-! DEFINITION. Sid.lean: identity slots and what they find (R154 to R158, R164, R166), and the write-back of
the life counters (R163, R169). -/
namespace Sys2Proof.Machine

/-! Identity slots (R155, R156). -/

/-- The next scan start of a group from tick `t` on; none where no scan starts. -/
def State.nextScan (s : State) (g t : Nat) : Option Nat :=
  match (s.grp g).first with
  | some f => if s.on (F.AFS_GRPg_CFG_EN g) then
      let p := s.get (F.AFS_GRPg_PERIOD_S g)
      some (cdiv (max t f) p * p) else none
  | none => none

/-- Whether LOAD runs its ROM checks and template reads (R157). -/
def State.idLoad (s : State) : Bool := s.sys.mode == .load && !s.sys.porst && s.sys.load == .running

/-- Whether ROM checks and template reads run (R155 to R157): during LOAD, and while slow inputs convert, which is in RUN, LIMP and, the rule
naming only those two, in HOLD until RAW freezes (DESIGN CHOICE, log 52). -/
def State.idReads (s : State) : Bool := s.idLoad || s.acquiring

/-- Whether identity slots run (R155 to R157, R163): those of ROM checks and reads, and in HOLD those of a write-back too. -/
def State.idTime (s : State) : Bool := s.idReads || s.sys.mode == .hold

/-- Whether an identity slot that begins in the tick in hand ends at least 4 ticks before the next scan start of its group, where scans start
(R156). -/
def State.idFits (s : State) (g kind : Nat) : Bool :=
  match (if s.acquiring then s.nextScan g s.tick else none) with
  | some n => decide (s.tick + idTicks kind + 4 ≤ n)
  | none => true

/-- The identity slot of an input whose transaction ends by the tick in hand (R155). -/
def State.idEnds (s : State) (ch kind : Nat) : Bool :=
  match (s.grp (chGrp ch)).idRun with
  | some r => r.ch == ch && r.kind == kind && decide (r.start + idTicks kind ≤ s.tick) && s.idTime
  | none => false

/-- An identity slot of a group has ended: its idle time goes on from there, and its result is kept in AUX (R158). -/
def State.idDone (s : State) (ch : Nat) (result : List Byte) : State :=
  let s1 := s.updGrp (chGrp ch) fun k => { k with idRun := none, idleFrom := match k.idRun with | some r => r.start + idTicks r.kind | none => k.idleFrom }
  { s1 with slow := { s1.slow with ident := (s.tick, ch, result) :: s1.slow.ident } }

/-- Ticks between two ROM checks of an input (R156). -/
def romPeriod : Nat := 20000000

/-- Whether a ROM check of an input is due by tick `t` (R156): once in LOAD (R157), every 10 s after it. -/
def State.romDueBy (s : State) (t ch : Nat) : Bool :=
  if s.sys.mode = .load then !(s.sid.val {} ch).checked else (s.on F.SID_CTRL_POLL_EN && s.on (F.CH_SIN_CFG_EN ch) && decide ((s.sid.val {} ch).due ≤ t))

/-- Whether a ROM check of an input is due in the tick in hand (R156). -/
def State.romDue (s : State) (ch : Nat) : Bool := s.romDueBy s.tick ch

/-- An input's next ROM check after one whose identity slot began in tick `t` (R156): the checks come every 10 s, and what a late one has missed
is not made up for. -/
def State.romNext (s : State) (ch t : Nat) : State :=
  (s.updSid ch fun e => { e with due := if e.due ≤ t ∧ s.sys.mode ≠ .load then e.due + ((t - e.due) / romPeriod + 1) * romPeriod else t + romPeriod }).put
    (F.CH_SID_STAT_NO_IDLE ch) 0

/-! Results (R164, R166). -/

/-- EV_TEDS_ERROR (R166, R168). -/
def State.tedsError (s : State) (ch page : Nat) : State :=
  (s.flag F.SID_ALERT_TEDS_ERR).event Ev.TEDS_ERROR (evSource 15 ch) [.h ch, .h page]

/-- An input's sensor is absent (R166). -/
def State.sensorAbsent (s : State) (ch : Nat) : State :=
  let had := (s.sid.val {} ch).rom.isSome
  let s1 := if had then
      ((s.flag F.SID_ALERT_ABSENT).event Ev.SENSOR_ABSENT (evSource 15 ch) [.h ch]).placeLife ch 4
    else s
  ((s1.updSid ch fun e => { due := e.due, checked := e.checked, lastOvr := e.lastOvr }).put (F.CH_SID_STAT_PRESENT ch) 0).showSid ch

/-- An input holds a sensor with an identity other than the one held (R164): its template is read next. -/
def State.sensorNew (s : State) (ch ident : Nat) (familyOk : Bool) : State :=
  let s1 := s.updSid ch fun e => { rom := some ident, reading := familyOk, stale := familyOk, due := e.due, checked := e.checked, lastOvr := e.lastOvr }
  let s2 := ((s1.flag F.SID_ALERT_NEW).event Ev.SENSOR_NEW (evSource 15 ch) [.h ch, .w ident]).placeLife ch 3
  ((if familyOk then s2 else s2.tedsError ch 0).put (F.CH_SID_STAT_PRESENT ch) 1).showSid ch

/-- The bytes of a ROM check's result. -/
def RomResult.bytes : RomResult → List Byte
  | .absent => [0]
  | .rom i _ => 1 :: leBytes 8 i.toNat
  | .crcBad => [2]

/-- What a ROM check found settles (R164, R166): a ROM identity whose CRC is wrong settles nothing, and outside LOAD the check stays due. -/
def State.romFound (s : State) (ch t : Nat) : RomResult → State
  | .crcBad => s.put (F.CH_SID_STAT_PRESENT ch) 1
  | .absent => (s.romNext ch t).sensorAbsent ch
  | .rom i ok =>
    if (s.sid.val {} ch).rom = some i.toNat then ((s.romNext ch t).put (F.CH_SID_STAT_PRESENT ch) 1).showSid ch
    else (s.romNext ch t).sensorNew ch i.toNat ok

/-- The coefficient set of a newly read sensor is on its way (R144, R164): at the first frame boundary after the
read, or after the steward, which forms it, runs again. -/
def State.sensorSet (s : State) (ch : Nat) : State :=
  let e := s.sid.val {} ch
  if s.sys.mode = .load then s.updSid ch fun e => { e with stale := false }
  else if e.stale ∧ e.valid ∧ s.sys.steward ∧ s.on (F.CH_SIN_CFG_POLY_SRC ch) ∧ ¬ s.cal.due.any (fun c => c.2.2.poly == some (ch, tmplSlots e.tmpl)) then
    s.changeCoef (nextFrame s.tick) 3 { poly := some (ch, tmplSlots e.tmpl) }
  else s

/-- The first tick of the identity slot in progress in an input's group. -/
def State.idStart (s : State) (ch : Nat) : Nat := match (s.grp (chGrp ch)).idRun with | some r => r.start | none => s.tick

/-- The read of a template has ended (R160, R164, R166). -/
def State.templateDone (s : State) (ch : Nat) : State :=
  let tm := (s.sid.val {} ch).tmpl
  if tmplValid tm then
    let c := tmplCounters tm
    let cs := (c.map (·.2)).getD [0, 0, 0, 0]
    let s1 := s.updSid ch fun e => { e with
      reading := false, valid := true, copySeq := (c.map (·.1)).getD 0
      time := cs.getD 0 0, cycles := cs.getD 1 0, charge := cs.getD 2 0, ovr := cs.getD 3 0 }
    let s2 := if c.isNone then s1.tedsError ch 5 else s1
    (s2.lifeCheck ch).sensorSet ch
  else ((s.updSid ch fun e => { e with reading := false, valid := false, stale := false }).tedsError ch 0).showSid ch

/-- A page of a template read in an identity slot (R164, R166): one whose CRC is wrong is read again at the next idle window, the first that
begins with a later scan of its group, up to 3 times. -/
def State.pageRead (s : State) (ch : Nat) (page : List Byte) (crcOk : Bool) : State :=
  let e := s.sid.val {} ch
  if crcOk then
    let s2 := s.updSid ch fun e => { e with tmpl := e.tmpl ++ page, page := e.page + 1, retries := 0 }
    if e.page = 7 then s2.templateDone ch else s2
  else if e.retries < 3 then
    s.updSid ch fun e => { e with retries := e.retries + 1, retryFrom := (s.nextScan (chGrp ch) (s.tick + 1)).getD s.tick }
  else ((s.updSid ch fun e => { e with reading := false, valid := false, stale := false }).tedsError ch e.page).showSid ch

/-- SID_NO_IDLE (R156): a due check has found no idle time for 30 s. -/
def execSidNoIdle (ch : Nat) (s : State) : Host.Outcome State Fault Refusal :=
  if ch < 256 ∨ 512 ≤ ch ∨ ¬ s.running ∨ ¬ s.romDue ch ∨ s.tick < (s.sid.val {} ch).due + 60000000 ∨ s.on (F.CH_SID_STAT_NO_IDLE ch) then .next s
  else .next ((s.put (F.CH_SID_STAT_NO_IDLE ch) 1).event Ev.SID_NO_IDLE (evSource 4 (chGrp ch)) [.h (chGrp ch)])

/-! Write-back (R163, R169). -/

/-- Every counted input is to be written back. -/
def State.wbAll (s : State) : State :=
  { s with sid := s.sid.map (fun (e : Nat × Sid) => (e.1, if s.tracked e.1 then ({ e.2 with wbDue := true } : Sid) else e.2)) }

/-- SID_WB_NOW (R169). -/
def execSidWbNow (s : State) : Host.Outcome State Fault Refusal := .next (if s.liveMode then s.wbAll else s)

/-- Whether identity slots of a group wait that decide a covered output, or come due before a write-back begun now would end (R158). -/
def State.idWaiting (s : State) (g : Nat) : Bool :=
  (grpChans g).any (fun ch => s.romDueBy (s.tick + idTicks 2) ch || (s.sid.val {} ch).reading)

/-- Whether a write-back of an input may begin in the tick in hand (R158, R163): due and counted, in idle time that no check or read
can use, while the hub does not brace and its steward runs; in HOLD too, which a shutdown may find (log 52). -/
def State.wbReady (s : State) (ch : Nat) : Bool :=
  (s.sid.val {} ch).wbDue && s.tracked ch && !s.bracingNow && s.sys.steward && !(s.acquiring && s.idWaiting (chGrp ch))
    && (s.running || s.sys.mode == .hold)

/-- The identity slot that a group begins in the tick in hand (R155, R156, R158): the next page of a read under way, a due ROM check or a
write-back, in this order and the lowest channel first, where it fits (log 52). -/
def State.idNext (s : State) (g : Nat) (chans : List Nat) : Option IdRun :=
  let l := (grpChans g).filter fun ch => chans.contains ch
  let pick (kind : Nat) (p : Nat → Bool) : Option IdRun :=
    if s.idFits g kind then (l.find? p).map fun ch => { ch := ch, start := s.tick, kind := kind } else none
  ((pick 1 fun ch => s.idReads && (s.sid.val {} ch).reading && decide ((s.sid.val {} ch).retryFrom ≤ s.tick)).or
    (pick 0 fun ch => s.idReads && s.romDue ch)).or (pick 2 s.wbReady)

/-- The inputs whose sensors identity slots reach: all 256 in LOAD (R157), later the enabled ones and those with a sensor. -/
def State.idChans (s : State) : List Nat :=
  if s.sys.mode = .load then (List.range 256).map (256 + ·) else s.slowEnabled ++ s.sid.map (·.1)

/-- Whether the converter of a group is idle in the tick in hand (R156): no scan is in progress, or its last sample is released in this tick. -/
def Grp.idle (k : Grp) (t : Nat) : Bool :=
  k.idRun.isNone && decide (k.idleFrom ≤ t) &&
    (match k.scan with
    | none => true
    | some sc => sc.todo.isEmpty && (match sc.slot with | some sl => decide (sl.start + sl.len ≤ t) | none => true))

/-- A group that is idle begins the identity slot that comes next (R155 to R158): below the boundary, whatever the steward does. -/
def State.idGo (s : State) (chans : List Nat) (g : Nat) : State :=
  if ¬ (s.grp g).idle s.tick then s
  else match s.idNext g chans with
    | some r => s.updGrp g fun k => { k with idRun := some r }
    | none => s

/-- The groups that are idle begin identity slots in the tick in hand. -/
def State.idTick (s : State) : State :=
  if ¬ s.idTime ∨ s.idChans = [] then s else (List.range 16).foldl (fun s g => s.idGo s.idChans g) s

/-- After an identity slot the next one of its group follows at once (R157). -/
def State.idOn (s : State) (ch : Nat) : State := s.idGo s.idChans (chGrp ch)

/-- ROM_CHECK (R155, R156): an identity slot ends with the result of a ROM check. -/
def execRomCheck (ch : Nat) (found : RomResult) (s : State) : Host.Outcome State Fault Refusal :=
  if ch < 256 ∨ 512 ≤ ch ∨ ¬ s.idEnds ch 0 then .next s
  else
    let s1 := (s.idDone ch (RomResult.bytes found)).updSid ch fun e => { e with checked := e.checked || decide (s.sys.mode = .load) }
    .next ((s1.romFound ch (s.idStart ch) found).idOn ch)

/-- TEMPLATE_READ (R164): an identity slot ends with one page of the template. -/
def execTemplateRead (ch : Nat) (page : List Byte) (crcOk : Bool) (s : State) : Host.Outcome State Fault Refusal :=
  let e := s.sid.val {} ch
  if ch < 256 ∨ 512 ≤ ch ∨ ¬ e.reading ∨ ¬ s.idEnds ch 1 then .next s
  else
    let bytes := (page ++ List.replicate 32 0).take 32
    let s1 := s.idDone ch (3 :: BitVec.ofNat 8 e.page :: (if crcOk then bytes else []))
    .next ((s1.pageRead ch bytes crcOk).idOn ch)

/-- Whether LOAD has checked every slow input and read every template that its checks found (R157). -/
def State.idLoaded (s : State) : Bool :=
  (List.range 256).all fun i => let e := s.sid.val {} (256 + i); e.checked && !e.reading

/-- The counters of an input are written to the copy with the lower sequence number, or the page write fails (R163, R166). -/
def State.wbDone (s : State) (ch : Nat) (ok : Bool) : State :=
  let e := s.sid.val {} ch
  let k := tmplTarget e.tmpl
  if ok then
    let seq := (((tmplCounters e.tmpl).map (·.1)).getD 0 + 1) % 2 ^ 32
    let new := copyBytes seq [e.time, e.cycles, e.charge, e.ovr]
    (s.updSid ch fun e => { e with
      wbDue := false, copySeq := seq, tmpl := e.tmpl.take (0xA0 + 32 * k) ++ new ++ e.tmpl.drop (0xC0 + 32 * k) }).placeLife ch 5
  else
    ((s.updSid ch fun e => { e with wbDue := false }).flag F.SID_ALERT_WB_FAIL).event Ev.SID_WB_FAIL (evSource 15 ch) [.h ch, .h k]

/-- LIFE_WRITEBACK (R155, R163): an identity slot ends in which one input's counters are written; the outcome is kept in AUX. While the hub braces
it writes no sensor memory (R51): the slot ends without the page write, and the write-back stays due. -/
def execLifeWriteback (ch : Nat) (ok : Bool) (s : State) : Host.Outcome State Fault Refusal :=
  let e := s.sid.val {} ch
  if ch < 256 ∨ 512 ≤ ch ∨ ¬ e.wbDue ∨ ¬ s.tracked ch ∨ ¬ s.idEnds ch 2 then .next s
  else if s.bracingNow then .next ((s.idDone ch [4]).idOn ch)
  else .next (((s.idDone ch [4, BitVec.ofNat 8 (tmplTarget e.tmpl), BitVec.ofNat 8 (b2n ok)]).wbDone ch ok).idOn ch)

end Sys2Proof.Machine
end

