-- ==== Sys2Proof/Machine/Power.lean ====
section
/-! DEFINITION. Power.lean: supply dips and bracing (R50 to R54), temperature (R456), correctable memory errors and the rows
that replace bad ones (R8, R18, R219), the preparation for power removal (R432) and REC_STATUS (R207). -/
namespace Sys2Proof.Machine

/-! Supplies (R50). Rows 0 to 6 are those of the table; row 7 is VDD_CA and row 8 stands for VDD_CB, which the table
gives in its row 7 (log 24). -/

/-- The reference level of a supply in mV: its nominal value, or the setpoint in force. -/
def State.supplyRef (s : State) (row : Nat) : Nat :=
  match row with
  | 7 => s.pwr.avsA
  | 8 => s.pwr.avsB
  | _ => [5000, 1800, 850, 1800, 900, 1100, 1800].getD row 0

/-- Whether a reading lies below the warning level, 5 % under the reference (R50). -/
def State.belowWarning (s : State) (row mV : Nat) : Bool := decide (mV * 100 < s.supplyRef row * 95)

/-- Whether a dip of the supply sets DIP (R50). -/
def supplyDips (row : Nat) : Bool := decide (row < 4)

/-- The row of the table that a supply stands in. -/
def supplyRow (row : Nat) : Nat := min row 7

/-- Whether the flash operation under way as bracing begins is a program, which runs to completion (R51). -/
def State.programming (s : State) : Bool := match s.nvmq with | o :: _ => !o.erase && decide (o.tries < 3) | [] => false

/-- Whether it is an erase, which is suspended (R51). -/
def State.erasing (s : State) : Bool := match s.nvmq with | o :: _ => o.erase && decide (o.tries < 3) | [] => false

/-- Whether a reading lies not above the resume level, 4 % under the reference (R50). -/
def State.belowResume (s : State) (row mV : Nat) : Bool := decide (mV * 100 ≤ s.supplyRef row * 96)

/-- Whether a reading lies below the reset level, 9 % under the reference (R50). -/
def State.belowReset (s : State) (row mV : Nat) : Bool := decide (mV * 100 < s.supplyRef row * 91)

/-- The supply that fell deepest: the largest fraction below its reference, the lower row on a tie (R54). -/
def State.deepest (s : State) : Nat × Nat :=
  let worse (a b : Nat × Nat) : Bool := decide ((s.supplyRef a.1 - a.2) * s.supplyRef b.1 < (s.supplyRef b.1 - b.2) * s.supplyRef a.1)
  match s.pwr.lows with
  | [] => (0, 0)
  | e :: r => r.foldl (fun (m x : Nat × Nat) => if worse m x then x else m) e

/-- A bracing interval that began in tick `b` is over (R51 to R54): it ended at the end of the 64th tick above resume level, whichever later tick
finds it so. The DIP span enters its list, EV_SUPPLY_DIP is logged, a suspended erase goes on, and the inactivity count of the update lock was
paused (R399). -/
def State.braceOver (s : State) (b : Nat) : State :=
  let e := s.pwr.lastLow + 64
  let deep := s.deepest
  let s1 := { s with
    pwr := { s.pwr with
      bracing := none, crossed := 0, lows := [], dipFrom := none, flying := false, suspended := false
      dips := (match s.pwr.dipFrom with | some f => (f, e) :: s.pwr.dips | none => s.pwr.dips).take 32 }
    upd := { s.upd with idleFrom := s.upd.idleFrom + (e + 1 - max b s.upd.idleFrom) } }
  s1.event Ev.SUPPLY_DIP (evSource 0 0) [.h s.pwr.crossed.toNat, .h (supplyRow deep.1), .h deep.2, .w (min 0xFFFFFFFF (e + 1 - b))]

/-- A bracing interval that is over by the tick in hand, and has not been reported, is. -/
def State.braceSettle (s : State) : State :=
  match s.pwr.bracing with
  | some b => if s.bracingNow then s else s.braceOver b
  | none => s

/-- A supply seen below its warning level (R51, R52): bracing begins with the first such tick, the DIP span with the first such tick
of a supply marked "Yes". A later reading of the same interval counts where it is lower. -/
def State.brace (s0 : State) (row mV : Nat) : State :=
  let s := s0.braceSettle
  let low := match s.pwr.lows.look row with | some v => min v mV | none => mV
  { s with pwr := { s.pwr with
    bracing := some (s.pwr.bracing.getD s.tick)
    crossed := s.pwr.crossed ||| BitVec.ofNat 8 (2 ^ supplyRow row)
    lows := s.pwr.lows.set row low
    dipFrom := if supplyDips row then some (s.pwr.dipFrom.getD s.tick) else s.pwr.dipFrom
    flying := if s.pwr.bracing.isNone then s.programming else s.pwr.flying
    suspended := if s.pwr.bracing.isNone then s.erasing else s.pwr.suspended
    lastLow := s.tick } }

/-- What the hub's supply comparators last saw of a supply (R444): whether it stands above its resume level, and how long all have. -/
def State.noteSupply (s : State) (row mV : Nat) : State :=
  let rest := s.pwr.low.filter (fun r => r != row)
  if s.belowResume row mV then { s with pwr := { s.pwr with low := row :: rest, okTicks := 0 } }
  else { s with pwr := { s.pwr with low := rest } }

/-! OTP burns (R299, R390, R391): none while the hub braces (R51); those due then follow when bracing ends. -/

/-- Revoke bits of image keys burned (R391). -/
def State.burnImageKeys (s : State) (mask : BitVec 4) : State :=
  if mask = 0 then s
  else if s.bracingNow then { s with pwr := { s.pwr with ikBurn := s.pwr.ikBurn ||| mask } }
  else ({ s with part := { s.part with ikRev := s.part.ikRev ||| mask } }).event Ev.IMG_KEY_REVOKED (evSource 13 0) [.h mask.toNat]

/-- Revoke bits of HMAC keys burned (R299). -/
def State.burnHmacKeys (s : State) (mask : BitVec 4) : State :=
  if mask = 0 then s
  else if s.bracingNow then { s with pwr := { s.pwr with hkBurn := s.pwr.hkBurn ||| mask } }
  else ({ s with part := { s.part with hkRev := s.part.hkRev ||| mask } }).event Ev.KEY_REVOKED (evSource 9 0) [.h mask.toNat]

/-! Temperature (R219, R456). -/

/-- A junction temperature shown; ALERT_N asserted above 110 °C until it falls below 105 °C, and the time above 105 °C kept (R456). -/
def State.noteTj (s : State) (tj : Int) : State :=
  let hot := decide (1050 < tj)
  ({ s with pwr := { s.pwr with
    hot := decide (1100 < tj) || (s.pwr.hot && decide (1050 ≤ tj))
    hotFrom := if hot then some (s.pwr.hotFrom.getD s.tick) else none
    hotNoted := hot && s.pwr.hotNoted } }).put F.SYS_ENV_TJ (tw 16 tj)

/-- Whether Tj has exceeded 105 °C for 1 s and this has not been logged yet (R456, log 57). -/
def State.hotDue (s : State) : Bool := !s.pwr.hotNoted && (match s.pwr.hotFrom with | some t => decide (t + Config.second ≤ s.tick) | none => false)

/-- THERMAL_EVENT (R456): the highest of the 9 readings, in 0.1 °C, and its sensor. Above 105 °C for 1 s the hub logs EV_THERMAL, once
until Tj has come down; it never throttles. -/
def execThermalEvent (tj : Int) (sensor : Nat) (s : State) : Host.Outcome State Fault Refusal :=
  if s.sys.porst then .next s
  else
    let s1 := s.noteTj tj
    .next (if s1.hotDue then ({ s1 with pwr := { s1.pwr with hotNoted := true } }).event Ev.THERMAL (evSource 0 0) [.i tj, .h sensor] else s1)

/-- The refresh interval at a temperature in °C (R21), returning to a longer one only 2 °C below the threshold that
shortened it (R219). -/
def refreshFor (old : Nat) (temp : Int) : Nat :=
  if 95 ≤ temp then 2
  else if 93 < temp ∧ old = 2 then 2
  else if 85 ≤ temp then 1
  else if 83 < temp ∧ 1 ≤ old then 1
  else 0

/-- DRAM_REFRESH_CHANGE (R219): the DRAM stack temperature is measured and the refresh interval follows it. -/
def execDramRefreshChange (temp : Int) (s : State) : Host.Outcome State Fault Refusal :=
  if s.sys.porst then .next s
  else .next ((s.put F.HST_DRAM_TEMP (tw 8 temp)).put F.HST_DRAM_REFI (refreshFor (s.get F.HST_DRAM_REFI) temp))

/-! Correctable errors (R8, R18). -/

/-- The SRAM arrays that have spare rows, among the memories as EV_MEM_CORR numbers them: 0 the DRAM, 1 the safety net, 2 the staging RAM
(log 14). -/
def sramArray (mem : Nat) : Bool := mem == 1 || mem == 2

/-- The correctable errors of a row within 6 h (R219). -/
def State.rowErrors (s : State) (mem row : Nat) : Nat :=
  s.sys.eccRows.countP fun e => e.1 == mem && e.2.1 == row && decide (s.tick < e.2.2 + 43200000000)

/-- A correctable error counted for its row; what is older than 6 h no longer counts. -/
def State.noteRow (s : State) (mem row : Nat) : State :=
  { s with sys := { s.sys with eccRows := (mem, row, s.tick) :: s.sys.eccRows.filter (fun e => decide (s.tick < e.2.2 + 43200000000)) } }

/-- The errors of a row that has been replaced are forgotten. -/
def State.dropRow (s : State) (mem row : Nat) : State :=
  { s with sys := { s.sys with eccRows := s.sys.eccRows.filter (fun e => !(e.1 == mem && e.2.1 == row)) } }

/-- A row of an SRAM array with 16 correctable errors in 6 h is replaced, as a DRAM row is (R18, R219). -/
def State.sramRow (s : State) (mem row : Nat) : State :=
  if s.rowErrors mem row < 16 then s
  else
    let used := s.part.sramUsed.val 0 mem
    let s1 := s.dropRow mem row
    if used < Config.sramSpares mem then
      let s2 := ({ s1 with part := { s1.part with sramUsed := s1.part.sramUsed.set mem (used + 1) } }).useSpare 6
      if used + 1 = Config.sramSpares mem then s2.exhaust 6 else s2
    else s1.exhaust 6

/-- ECC_CORRECTABLE_ERROR (R7, R8, R219): the word is corrected and written back, the memory's counter advances, the event
is logged, and the error counts for its row. -/
def execEccCorrectableError (mem : Nat) (addr : Word) (s : State) : Host.Outcome State Fault Refusal :=
  if s.sys.porst then .next s
  else
    let row := Config.memRow addr.toNat
    let s1 := { s with sys := { s.sys with eccCnt := s.sys.eccCnt.upd 0 mem (fun n => n + 1) } }
    let s2 := (s1.flag F.SYS_ALERT_MEM_CORR).event Ev.MEM_CORR (evSource 0 0) [.h mem, .w addr.toNat]
    .next (if sramArray mem then (s2.noteRow mem row).sramRow mem row else if mem = 0 then s2.noteRow 0 row else s2)

/-- The DRAM row whose repair is due (R219): the one whose 16th error in 6 h came last. -/
def State.rowDue (s : State) : Option Nat :=
  (s.sys.eccRows.find? fun e => e.1 == 0 && decide (16 ≤ s.rowErrors 0 e.2.1)).map fun e => e.2.1

/-- DRAM_ROW_REPAIR (R219, R18): the row that is due is replaced; with the last repair row of its bank group used the class is exhausted.
With no row left in the part nothing is replaced and the loss is in force. -/
def execDramRowRepair (groupFull : Bool) (s : State) : Host.Outcome State Fault Refusal :=
  match s.rowDue with
  | none => .next s
  | some row =>
    if s.sys.porst then .next s
    else
      let s0 := s.dropRow 0 row
      if 64 ≤ s.part.rowsUsed then .next (s0.exhaust 5)
      else
        let s1 := ({ s0 with part := { s0.part with rowsUsed := s0.part.rowsUsed + 1 } }).countUp F.HST_DRAM_PPR_USED
        let s2 := s1.useSpare 5
        .next (if groupFull ∨ s2.part.rowsUsed = 64 then s2.exhaust 5 else s2)

/-! Shutdown (R432). -/

/-- A SHUTDOWN write is accepted: the counters of every tracked sensor are to be written back and the closed records programmed;
SAFE_OFF is cleared. -/
def State.shutdown (s : State) : State := { s.wbAll with sys := { s.sys with shut := some s.tick, safeOff := false } }

/-- SYS_SHUTDOWN (R432). -/
def execSysShutdown (s : State) : Host.Outcome State Fault Refusal :=
  .next (if s.served then s.shutdown else s)

/-- Write-backs still pending. -/
def State.wbPending (s : State) : Nat := s.sid.countP (fun (e : Nat × Sid) => e.2.wbDue && s.tracked e.1)

/-- Whether every closed staged record is programmed, or no flash takes any. -/
def State.logSettled (s : State) : Bool := (s.logWaiting.isEmpty && !s.logBusy) || !(s.logTakes 0 || s.logTakes 1)

/-- SHUTDOWN_COMPLETE (R432): write-backs and programming are done, or 120 s have passed and what is pending is abandoned. -/
def execShutdownComplete (s : State) : Host.Outcome State Fault Refusal :=
  match s.sys.shut with
  | none => .next s
  | some t =>
    let n := s.wbPending
    let done (s : State) (n : Nat) : State :=
      ({ s with sys := { s.sys with shut := none, safeOff := true } }).event Ev.SHUTDOWN (evSource 0 0) [.h n]
    if n = 0 ∧ s.logSettled then .next (done s 0)
    else if t + 240000000 ≤ s.tick then
      .next (done { s with sid := s.sid.map fun (e : Nat × Sid) => (e.1, { e.2 with wbDue := false }) } n)
    else .next s

/-! REC_STATUS (R207). -/

/-- KiB of the datagrams of stream `m` not yet acknowledged, saturating (R207). -/
def State.unackedKib (s : State) (m : Nat) : Nat :=
  min 0xFFFFFFFF (cdiv (ringUsed ((s.stream m).ring.filter (fun d => decide ((s.stream m).rel ≤ d.seq)))) 1024)

/-- Spares of class `c` in use (R18). -/
def State.spareCount (s : State) (c : Nat) : Nat := if c = 2 then s.coreSpare else s.get (F.SYS_SPAREc_USED c)

/-- REC_STATUS of stream `m` for the frame that begins in the tick in hand (R207). -/
def State.recStatus (s : State) (tj power : BitVec 16) (m : Nat) : List Word :=
  let standby := s.red.roleA == .standby || s.red.roleB == .standby
  let spec := s.sys.mode.code + s.tim.atSrc % 4 * 8 + b2n (s.red.active == some .b) * 32 + b2n standby * 64
    + b2n s.replaceN * 128 + b2n s.alertN * 256 + b2n (s.red.bump.isSome || s.red.drill.isSome) * 512
  let pinned := if s.rawTicks = 0 then 0 else s.pinCount * 10000 / s.rawTicks
  let wins := s.hist.wins.countP (fun (e : Nat × Window) => decide (1 ≤ e.2.state) && decide (e.2.state ≤ 3))
  let jobs := s.jobs.countP (fun (e : Nat × Job) => e.2.state == 1 || e.2.state == 2)
  let spares := ((List.range 10).map fun c => b2n (s.spareCount c != 0) * 2 ^ c).sum
  mkRec 9 spec (tickWords s.tick ++ [wd s.cal.cur.serial, wd (s.unackedKib m), wd (pinned + wins * 65536), wd (jobs + s.net.retx.length * 65536),
    wd (tj.toNat + power.toNat * 65536), wd spares, s.rd R.LOG_SEQ])

/-- FRAME_STATUS (R207): at a frame boundary the hub's temperature and power are measured, and REC_STATUS is placed on every
live stream in TRIM, RUN and LIMP. -/
def execFrameStatus (tj power : BitVec 16) (s : State) : Host.Outcome State Fault Refusal :=
  if s.sys.porst ∨ s.tick % Config.frame ≠ 0 then .next s
  else
    let s1 := (s.noteTj (sx 16 tj.toNat)).put F.SYS_ENV_POWER power.toNat
    .next (s1.placeShared 1 s.tick s.tick (fun m => s1.recStatus tj power m))

end Sys2Proof.Machine
end

