-- ==== Sys2Proof/Machine/Sha.lean ====
section
/-! DEFINITION. Sha.lean: SHA-256, SHA-384, HMAC-SHA-256 (R258, R296, R384) and the check of an ECDSA P-384 signature
(R385), by the published standards (log 25). -/
namespace Sys2Proof.Machine

/-- A number cut into `n` words of `w` bits, the highest first. -/
def cutWords (w n x : Nat) : List Nat := (List.range n).map fun i => x >>> (w * (n - 1 - i)) % 2 ^ w

/-- The fractions of the cube roots of the first 80 primes, 64 bits each, five to a line: the round constants of SHA-384, and in their upper
halves those of SHA-256. -/
def cubeRoots : List Nat :=
  [0x428a2f98d728ae227137449123ef65cdb5c0fbcfec4d3b2fe9b5dba58189dbbc3956c25bf348b538,
   0x59f111f1b605d019923f82a4af194f9bab1c5ed5da6d8118d807aa98a303024212835b0145706fbe,
   0x243185be4ee4b28c550c7dc3d5ffb4e272be5d74f27b896f80deb1fe3b1696b19bdc06a725c71235,
   0xc19bf174cf692694e49b69c19ef14ad2efbe4786384f25e30fc19dc68b8cd5b5240ca1cc77ac9c65,
   0x2de92c6f592b02754a7484aa6ea6e4835cb0a9dcbd41fbd476f988da831153b5983e5152ee66dfab,
   0xa831c66d2db43210b00327c898fb213fbf597fc7beef0ee4c6e00bf33da88fc2d5a79147930aa725,
   0x06ca6351e003826f142929670a0e6e7027b70a8546d22ffc2e1b21385c26c9264d2c6dfc5ac42aed,
   0x53380d139d95b3df650a73548baf63de766a0abb3c77b2a881c2c92e47edaee692722c851482353b] ++
  [0xa2bfe8a14cf10364a81a664bbc423001c24b8b70d0f89791c76c51a30654be30d192e819d6ef5218,
   0xd69906245565a910f40e35855771202a106aa07032bbd1b819a4c116b8d2d0c81e376c085141ab53,
   0x2748774cdf8eeb9934b0bcb5e19b48a8391c0cb3c5c95a634ed8aa4ae3418acb5b9cca4f7763e373,
   0x682e6ff3d6b2b8a3748f82ee5defb2fc78a5636f43172f6084c87814a1f0ab728cc702081a6439ec,
   0x90befffa23631e28a4506cebde82bde9bef9a3f7b2c67915c67178f2e372532bca273eceea26619c,
   0xd186b8c721c0c207eada7dd6cde0eb1ef57d4f7fee6ed17806f067aa72176fba0a637dc5a2c898a6,
   0x113f9804bef90dae1b710b35131c471b28db77f523047d8432caab7b40c724933c9ebe0a15c9bebc,
   0x431d67c49c100d4c4cc5d4becb3e42b6597f299cfc657e2a5fcb6fab3ad6faec6c44198c4a475817]

/-- The fractions of the square roots of the first eight primes, 32 bits each: the initial state of SHA-256. -/
def sha256H : List Nat := cutWords 32 8 0x6a09e667bb67ae853c6ef372a54ff53a510e527f9b05688c1f83d9ab5be0cd19

/-- The fractions of the square roots of the next eight primes, 64 bits each: the initial state of SHA-384. -/
def sha384H : List Nat := cutWords 64 8
  0xcbbb9d5dc1059ed8629a292a367cd5079159015a3070dd17152fecd8f70e593967332667ffc00b318eb44a8768581511db0c2e0d64f98fa747b5481dbefa4fa4

/-- Round constants of SHA-384. -/
def sha512K : List Nat := cubeRoots.flatMap (cutWords 64 5)

/-- Round constants of SHA-256. -/
def sha256K : List Nat := (sha512K.take 64).map (fun k => k >>> 32)

/-- The figures in which the two hashes differ: word bits, rotations of the two sums and the two schedule functions (two
rotations and a shift each), round constants and initial state. -/
structure ShaKind where
  /-- word width -/
  w : Nat
  /-- rotations of the sum over e -/
  e : Nat × Nat × Nat
  /-- rotations of the sum over a -/
  a : Nat × Nat × Nat
  /-- schedule function 0 -/
  s0 : Nat × Nat × Nat
  /-- schedule function 1 -/
  s1 : Nat × Nat × Nat
  /-- round constants -/
  k : List Nat
  /-- initial state -/
  h : List Nat

/-- SHA-256. -/
def sha256Kind : ShaKind := ⟨32, (6, 11, 25), (2, 13, 22), (7, 18, 3), (17, 19, 10), sha256K, sha256H⟩

/-- SHA-384. -/
def sha384Kind : ShaKind := ⟨64, (14, 18, 41), (28, 34, 39), (1, 8, 7), (19, 61, 6), sha512K, sha384H⟩

/-- Rotation to the right in a `w`-bit word. -/
def rotR (w n x : Nat) : Nat := (x >>> n) ||| (x <<< (w - n) % 2 ^ w)

/-- Exclusive or of three rotations. -/
def sum3 (w : Nat) (r : Nat × Nat × Nat) (x : Nat) : Nat := rotR w r.1 x ^^^ rotR w r.2.1 x ^^^ rotR w r.2.2 x

/-- Exclusive or of two rotations and a shift. -/
def sched (w : Nat) (r : Nat × Nat × Nat) (x : Nat) : Nat := rotR w r.1 x ^^^ rotR w r.2.1 x ^^^ (x >>> r.2.2)

/-- One round: the window holds the next 16 message words, the state its eight words, the first in front. The words move one place on; the new
first word and the word in place 4 take the round's sums. -/
def shaRound (p : ShaKind) (r : List Nat × List Nat) (k : Nat) : List Nat × List Nat :=
  let v (i : Nat) : Nat := r.2.getD i 0
  let w (i : Nat) : Nat := r.1.getD i 0
  let pick := (v 4 &&& v 5) + ((2 ^ p.w - 1 - v 4) &&& v 6)
  let most := (v 0 &&& v 1) ||| (v 2 &&& (v 0 ||| v 1))
  let add := k + w 0 + pick + sum3 p.w p.e (v 4) + v 7
  let next := w 0 + w 9 + sched p.w p.s0 (w 1) + sched p.w p.s1 (w 14)
  let st := (add + most + sum3 p.w p.a (v 0)) :: (r.2.take 7).set 3 (v 3 + add)
  (r.1.tail ++ [next % 2 ^ p.w], st.map (fun x => x % 2 ^ p.w))

/-- One block of 16 message words. -/
def shaBlock (p : ShaKind) (h : List Nat) (block : List Nat) : List Nat :=
  let r := (p.k.foldl (shaRound p) (block, h)).2
  (h.zip r).map fun x => (x.1 + x.2) % 2 ^ p.w

/-- Bytes cut into groups of `n`, `fuel` groups at most. -/
def groupsOf (n : Nat) : Nat → List Byte → List (List Byte)
  | 0, _ => []
  | _, [] => []
  | k + 1, bs => bs.take n :: groupsOf n k (bs.drop n)

/-- The padded message. -/
def shaPad (p : ShaKind) (bs : List Byte) : List Byte :=
  let blk := 2 * p.w
  let len := p.w / 4
  let z := (2 * blk - (bs.length + 1 + len) % blk) % blk
  bs ++ [0x80#8] ++ List.replicate z 0#8 ++ beBytes len (8 * bs.length)

/-- The hash as its eight state words. -/
def shaWords (p : ShaKind) (bs : List Byte) : List Nat :=
  let m := shaPad p bs
  (groupsOf (2 * p.w) m.length m).foldl (fun h b => shaBlock p h ((groupsOf (p.w / 8) 16 b).map beVal)) p.h

/-- SHA-256 of bytes: 32 bytes. -/
def sha256 (bs : List Byte) : List Byte := (shaWords sha256Kind bs).flatMap (beBytes 4)

/-- SHA-384 of bytes: 48 bytes. -/
def sha384 (bs : List Byte) : List Byte := ((shaWords sha384Kind bs).take 6).flatMap (beBytes 8)

/-- HMAC-SHA-256 with a key of at most 64 bytes (R296, R297). -/
def hmac256 (key bs : List Byte) : List Byte :=
  let k := key ++ List.replicate (64 - key.length) 0#8
  sha256 (k.map (fun b => b ^^^ 0x5c#8) ++ sha256 (k.map (fun b => b ^^^ 0x36#8) ++ bs))

/-! ECDSA over P-384 (R385). -/

/-- The field prime. -/
def p384P : Nat := 2 ^ 384 - 2 ^ 128 - 2 ^ 96 + 2 ^ 32 - 1

/-- The group order. -/
def p384N : Nat :=
  0xffffffffffffffffffffffffffffffffffffffffffffffffc7634d81f4372ddf581a0db248b0a77aecec196accc52973

/-- The curve's coefficient b. -/
def p384B : Nat :=
  0xb3312fa7e23ee7e4988e056be3f82d19181d9c6efe8141120314088f5013875ac656398d8a2ed19d2a85c8edd3ec2aef

/-- The base point. -/
def p384G : Nat × Nat :=
  (0xaa87ca22be8b05378eb1c71ef320ad746e1d3b628ba79b9859f741e082542a385502f25dbf55296c3a545e3872760ab7,
   0x3617de4a96262c6f5d9e98bf9292dc29f8f41dbd289a147ce9da3113b5f0b8c00a60b1ce1d7e819d7a431d7c90ea0e5f)

/-- A power modulo `m`, over `k` bits of the exponent. -/
def powMod (m : Nat) : Nat → Nat → Nat → Nat → Nat
  | 0, _, _, acc => acc
  | k + 1, b, e, acc => powMod m k (b * b % m) (e / 2) (if e % 2 = 1 then acc * b % m else acc)

/-- The inverse modulo a prime of 384 bits. -/
def invMod (m x : Nat) : Nat := powMod m 384 (x % m) (m - 2) 1

/-- Difference in the field. -/
def subP (a b : Nat) : Nat := (a + p384P - b % p384P) % p384P

/-- The sum of two points; none is the point at infinity. -/
def addPt (a b : Option (Nat × Nat)) : Option (Nat × Nat) :=
  match a, b with
  | none, q => q
  | p, none => p
  | some (x1, y1), some (x2, y2) =>
    if x1 = x2 ∧ (y1 + y2) % p384P = 0 then none
    else
      let l := if x1 = x2 then (3 * x1 * x1 + p384P - 3) * invMod p384P (2 * y1) % p384P
        else subP y2 y1 * invMod p384P (subP x2 x1) % p384P
      let x3 := subP (l * l) (x1 + x2)
      some (x3, subP (l * subP x1 x3) y1)

/-- A multiple of a point, over `k` bits. -/
def mulPt : Nat → Nat → Option (Nat × Nat) → Option (Nat × Nat) → Option (Nat × Nat)
  | 0, _, _, acc => acc
  | k + 1, n, p, acc => mulPt k (n / 2) (addPt p p) (if n % 2 = 1 then addPt acc p else acc)

/-- The point that a compressed key of 49 bytes stands for (R387). -/
def keyPoint (key : List Byte) : Option (Nat × Nat) :=
  match key with
  | c :: xs =>
    let x := beVal xs
    let r := (x * x * x + (p384P - 3) * x + p384B) % p384P
    let y := powMod p384P 384 r ((p384P + 1) / 4) 1
    if xs.length ≠ 48 ∨ (c ≠ 2 ∧ c ≠ 3) ∨ p384P ≤ x ∨ y * y % p384P ≠ r then none
    else some (x, if y % 2 = c.toNat % 2 then y else (p384P - y) % p384P)
  | [] => none

/-- Whether a signature (r then s, 48 bytes each, big-endian) verifies over bytes with a compressed key (R385). -/
def ecdsaOk (key msg sig : List Byte) : Bool :=
  let r := beVal (sig.take 48)
  let t := beVal ((sig.drop 48).take 48)
  match keyPoint key with
  | none => false
  | some q =>
    if r = 0 ∨ t = 0 ∨ p384N ≤ r ∨ p384N ≤ t then false
    else
      let w := invMod p384N t
      let z := beVal (sha384 msg)
      match addPt (mulPt 384 (z * w % p384N) (some p384G) none) (mulPt 384 (r * w % p384N) (some q) none) with
      | some (x, _) => x % p384N == r
      | none => false

end Sys2Proof.Machine
end

