-- ==== Sys2Proof/Machine/Reply.lean ====
section
/-! DEFINITION. Reply.lean: management requests and their responses (R291), sessions (R296 to R299), the update lock
(R399) and the steward's restart (R14, R15). -/
namespace Sys2Proof.Machine

/-! Statuses (R291). -/

/-- Done. -/
def St.OK : Nat := 0
/-- A resource or lock is held. -/
def St.BUSY : Nat := 1
/-- Not allowed in the present mode. -/
def St.MODE : Nat := 2
/-- A value, address, tick or sequence is out of range. -/
def St.RANGE : Nat := 3
/-- Privileged and not authorised. -/
def St.AUTH : Nat := 4
/-- A register refused the write. -/
def St.ACCESS : Nat := 5
/-- Payload length or layout wrong. -/
def St.FORMAT : Nat := 6
/-- TYPE not known. -/
def St.UNKNOWN : Nat := 7

/-- What the handling of a request answers, with the state it leaves. -/
structure Ans where
  /-- status, bits [7:0] of word 0 -/
  status : Nat
  /-- detail, bits [31:16] of word 0 -/
  detail : Nat := 0
  /-- words after word 0 -/
  words : List Word := []
  /-- the state left -/
  s : State

/-- An answer of a status alone. -/
def State.ans (s : State) (status : Nat) (detail : Nat := 0) : Ans := { status := status, detail := detail, s := s }

/-- OK with words. -/
def State.ok (s : State) (words : List Word := []) : Ans := { status := St.OK, words := words, s := s }

/-! Headers (R274). -/

/-- The source of a request as kept responses know it: the service port, or an address on the uplinks. -/
def srcKey (r : Req) : Nat := if r.svc then 0 else r.src + 1

/-! Sessions (R296 to R298). -/

/-- 1 for the service port, 0 for the uplinks (R298). -/
def srcBit (svc : Bool) : Nat := if svc then 1 else 0

/-- The update lock released without completion (R399): cause 0 ABORT, 1 inactivity, 2 session end. -/
def State.releaseLock (s : State) (cause : Nat) : State :=
  if s.upd.lock.isNone then s
  else
    (({ s with upd := { s.upd with lock := none, endReq := none, stage := if s.upd.stage ≤ 2 then 0 else s.upd.stage } }).flag
      F.UPD_ALERT_ABORT).event Ev.UPD_ABORT (evSource 13 0) [.h cause]

/-- A session ends, with the update lock it holds (R399). -/
def State.endSession (s : State) (id : Word) : State :=
  let s1 := { s with net := { s.net with
    sessions := s.net.sessions.filter (fun k => k.id != id), chals := s.net.chals.filter (fun k => k.id != id) } }
  if s.upd.lock = some id then s1.releaseLock 2 else s1

/-- Every session ends (R298). -/
def State.endSessions (s : State) : State :=
  let s1 := { s with net := { s.net with sessions := [], chals := [] } }
  if s.upd.lock.isSome then s1.releaseLock 2 else s1

/-- An ERR_AUTH on a source (R298): after 5 within 60 s its AUTH_CHALLENGE is answered BUSY for 60 s. -/
def State.authFail (s : State) (svc : Bool) (slot stage : Nat) : State :=
  let recent := (svc, s.tick) :: s.net.fails.filter (fun f => decide (s.tick < f.2 + 120000000))
  let locks := decide (5 ≤ recent.countP (fun f => f.1 == svc))
  let s1 := { s with net := { s.net with
    fails := if locks then recent.filter (fun f => f.1 != svc) else recent
    lockout := if locks then (svc, s.tick + 120000000) :: s.net.lockout.filter (fun f => f.1 != svc) else s.net.lockout } }
  (s1.flag F.NSP_ALERT_AUTH_FAIL).event Ev.AUTH_FAIL (evSource 9 slot) [.h (srcBit svc), .h slot, .h stage]

/-- Whether a source is locked out of AUTH_CHALLENGE. -/
def State.lockedOut (s : State) (svc : Bool) : Bool := s.net.lockout.any (fun f => f.1 == svc && decide (s.tick < f.2))

/-- Whether an HMAC key slot is programmed and not revoked (R296). -/
def State.hmacSlotOk (s : State) (slot : Nat) : Bool := decide ((s.part.hk.getD slot []).length = 32) && !s.part.hkRev.toNat.testBit slot

/-- The trailer of a privileged request (R297): the state with its session's counter moved on, or the ERR_AUTH it
receives. `n` is how many payload words come before the trailer. A trailer is none of the steps of R296, and the code that stands for
it in EV_AUTH_FAIL is open (log 29). -/
def State.authTrailer (s : State) (typ n : Nat) (r : Req) : State ⊕ State :=
  match r.words.drop n with
  | [id, ctr, t0, t1, t2, t3] =>
    match s.net.sessions.find? (fun k => k.id == id) with
    | none => .inr (s.authFail r.svc 0 (Config.eventCode Ev.AUTH_FAIL 0))
    | some k =>
      let tag := (hmac256 k.sk (reqHeader typ r ++ wordBytes (r.words.take (n + 2)))).take 16
      if k.ctr < ctr.toNat ∧ tag = wordBytes [t0, t1, t2, t3] then
        .inl { s with net := { s.net with sessions := s.net.sessions.map fun (e : Session) =>
          if e.id = id then { e with ctr := ctr.toNat, last := s.tick } else e } }
      else .inr ((s.endSession id).authFail r.svc k.slot (Config.eventCode Ev.AUTH_FAIL 0))
  | _ => .inr (s.authFail r.svc 0 (Config.eventCode Ev.AUTH_FAIL 0))

/-- The session that a trailer names. -/
def trailerId (n : Nat) (r : Req) : Word := (r.words.drop n).getD 0 0

/-- The bytes that steps 3 and 4 sign (R296). -/
def State.authText (s : State) (label : List Byte) (id : Word) (nc nh : List Byte) : List Byte :=
  label ++ leBytes 8 s.part.serial.toNat ++ leBytes 2 s.hubId ++ leBytes 4 id.toNat ++ nc ++ nh

/-- "LWA1". -/
def lwa1 : List Byte := [0x4C, 0x57, 0x41, 0x31]
/-- "LWA2". -/
def lwa2 : List Byte := [0x4C, 0x57, 0x41, 0x32]
/-- "LWS1". -/
def lws1 : List Byte := [0x4C, 0x57, 0x53, 0x31]

/-- AUTH_CHALLENGE (R296, R298): the hub draws a session ID and its nonce (free values, log 11). -/
def State.challenge (s : State) (r : Req) : Ans :=
  match r.words with
  | [w0, a, b, c, d] =>
    let slot := w0.toNat % 4
    if s.lockedOut r.svc ∨ 4 ≤ s.net.sessions.length + s.net.chals.length then s.ans St.BUSY
    else if ¬ s.hmacSlotOk slot then (s.authFail r.svc slot 1).ans St.AUTH
    else
      let n := s.sys.freeCtr
      let id := Config.freeWord n
      let nh := (List.range 4).map fun i => Config.freeWord (n + 1 + i)
      let s1 := { s with sys := { s.sys with freeCtr := n + 5 }
                         net := { s.net with chals := { id := id, slot := slot, nc := wordBytes [a, b, c, d], nh := wordBytes nh, svc := r.svc, last := s.tick } :: s.net.chals } }
      s1.ok (id :: nh ++ [wd s.part.serial.toNat, wd (s.part.serial.toNat / 2 ^ 32)])
  | _ => s.ans St.FORMAT

/-- AUTH_RESPONSE (R296): Tc is checked, the session key formed and Th answered. -/
def State.authenticate (s : State) (r : Req) : Ans :=
  match r.words with
  | id :: tc =>
    if tc.length ≠ 8 then s.ans St.FORMAT
    else
      match s.net.chals.find? (fun k => k.id == id) with
      | none => (s.authFail r.svc 0 3).ans St.AUTH
      | some k =>
        let s1 := { s with net := { s.net with chals := s.net.chals.filter (fun c => c.id != id) } }
        let key := s.part.hk.getD k.slot []
        if ¬ s.hmacSlotOk k.slot ∨ wordBytes tc ≠ hmac256 key (s.authText lwa1 id k.nc k.nh) then (s1.authFail r.svc k.slot 3).ans St.AUTH
        else
          let sk := hmac256 key (lws1 ++ leBytes 4 id.toNat ++ k.nc ++ k.nh)
          let s2 := { s1 with net := { s1.net with sessions := { id := id, slot := k.slot, sk := sk, last := s.tick, svc := r.svc } :: s1.net.sessions } }
          (s2.event Ev.AUTH_OK (evSource 9 k.slot) [.h (srcBit r.svc), .h k.slot, .h id.toNat]).ok (bytesWords (hmac256 key (s.authText lwa2 id k.nc k.nh)))
  | [] => s.ans St.FORMAT

/-- Revoke bits of HMAC slots (R299): refused where it would leave no valid slot. The sessions of a revoked slot end (R298). -/
def State.revokeHmac (s : State) (mask : BitVec 4) : Option State :=
  let left := (List.range 4).any (fun i => s.hmacSlotOk i && !(mask ||| s.pwr.hkBurn).toNat.testBit i)
  if ¬ left then none else some (s.burnHmacKeys mask)

/-- The sessions of revoked slots end (R298). -/
def State.endRevoked (s : State) : State :=
  let ids := (s.net.sessions.filter (fun k => s.part.hkRev.toNat.testBit k.slot)).map (·.id)
  ids.foldl (fun (s : State) id => s.endSession id) s

/-- HMAC_KEY_REVOKE (R299): refused, it sets NSP_ALERT.WR_REFUSED. -/
def execHmacKeyRevoke (mask : BitVec 4) (s : State) : Host.Outcome State Fault Refusal :=
  if ¬ s.served then .next s
  else
    match s.revokeHmac mask with
    | some t => .next t.endRevoked
    | none => .next (s.flag F.NSP_ALERT_WR_REFUSED)

/-- SESSION_TIMEOUT (R298): 60 s without a privileged request. -/
def execSessionTimeout (id : Word) (s : State) : Host.Outcome State Fault Refusal :=
  let due := s.net.sessions.any (fun k => k.id == id && decide (k.last + 120000000 ≤ s.tick))
    || s.net.chals.any (fun k => k.id == id && decide (k.last + 120000000 ≤ s.tick))
  .next (if due then s.endSession id else s)

/-- AUTH_LOCKOUT_END (R298). -/
def execAuthLockoutEnd (svc : Bool) (_src : Nat) (s : State) : Host.Outcome State Fault Refusal :=
  .next { s with net := { s.net with lockout := s.net.lockout.filter (fun f => f.1 != svc || decide (s.tick < f.2)) } }

/-! Responses (R291). -/

/-- Word 0 of a response. -/
def Ans.word0 (a : Ans) : Word := wd (a.status + a.detail % 65536 * 65536)

/-- The header of a response (R291): TYPE + 0x80, the hub's own HUB_ID and BOOT, STREAM 0, the request's SEQ. -/
def State.respHead (s : State) (k : Resp) : NspHead := { typ := k.typ + 0x80, hubId := s.hubId, seq := k.seq, boot := s.part.boot }

/-- A response as it leaves an uplink (R291): to the address and port that the request came from. -/
def State.respTx (s : State) (k : Resp) : Tx :=
  { port := k.port, kind := .response, seq := k.seq, words := k.words, nsp := some (s.respHead k)
    udp := some (s.udpOn k.port k.v6 ((k.src - 1) / 65536) 47319 ((k.src - 1) % 65536)), tag := s.vlanTag k.port }

/-- A response goes out where its request came in: on the service port, on an uplink, or back to the ringmaster (R300, R323). -/
def State.sendResp (s : State) (svc : Bool) (k : Resp) : State :=
  let bytes := (s.respHead k).bytes k.words
  if svc then { s with net := { s.net with svcState := 2, svcResp := bytes, svcPos := 0 } }
  else if k.port < 3 then s.send (s.respTx k)
  else s.stkSend (k.port - 3) { kind := .packet, seq := k.seq } { kind := 8, cls := kindClass 8, dest := 0 } (bytesWords bytes)

/-- A request is answered: the response is sent and kept among the last 64 (R291). -/
def Ans.reply (a : Ans) (typ : Nat) (r : Req) : State :=
  let k : Resp := { src := srcKey r, typ := typ, seq := r.seq, words := a.word0 :: a.words, port := r.port, v6 := r.v6 }
  let s1 := if a.status = St.OK then a.s else a.s.countUp F.NSP_MGMT_CNT_REFUSED
  let s2 := s1.sendResp r.svc k
  { s2 with net := { s2.net with resps := (k :: s2.net.resps).take 64 } }

/-- The kept response to a request (R291). -/
def State.kept (s : State) (typ : Nat) (r : Req) : Option Resp :=
  s.net.resps.find? (fun k => k.src == srcKey r && k.typ == typ && k.seq == r.seq)

/-- Whether a request names this hub (R275, R291). -/
def State.names (s : State) (r : Req) : Bool := r.stream == 15 || r.hubId == s.hubId

/-! The steward (R14, R15). -/

/-- The steward is restarted (R14, R15): every session ends, management goes unanswered, the servos hold over. The
fourth restart within 60 s sets SYS_ALERT.STEWARD. -/
def State.stewardDown (s : State) : State :=
  let recent := s.tick :: s.sys.restarts.filter (fun t => decide (s.tick < t + 120000000))
  let s1 := { s with sys := { s.sys with steward := false, restarts := recent } }
  let s2 := s1.endSessions.event Ev.STEWARD_RESTART (evSource 0 0) [.h recent.length]
  if 4 ≤ recent.length then s2.flag F.SYS_ALERT_STEWARD else s2

/-- STEWARD_WATCHDOG_EXPIRY (R14, R15). -/
def execStewardWatchdogExpiry (s : State) : Host.Outcome State Fault Refusal :=
  .next (if s.sys.porst ∨ ¬ s.sys.steward then s else s.stewardDown)

/-- STEWARD_RESUME (R14, R164): the restarted steward serves again, and forms the coefficient sets of the sensors read while it did not. -/
def execStewardResume (s : State) : Host.Outcome State Fault Refusal :=
  if s.sys.porst ∨ s.sys.restarts = [] ∨ s.sys.steward then .next s
  else
    let s1 := { s with sys := { s.sys with steward := true } }
    .next ((s1.sid.map (·.1)).foldl (fun s ch => if (s.sid.val {} ch).reading then s else s.sensorSet ch) s1)

/-! The end of bracing (R51). -/

/-- The burns that waited for the end of bracing. -/
def State.burnDue (s : State) : State :=
  let s1 := { s with pwr := { s.pwr with arbTo := 0, ikBurn := 0, hkBurn := 0 } }
  ((s1.burnArb s.pwr.arbTo).burnImageKeys s.pwr.ikBurn).burnHmacKeys s.pwr.hkBurn

/-- BRACING_END (R51, R53, R54, R414): bracing has ended, at the end of the 64th tick above resume level (log 57): deferred work goes on and a page
of the log is written. -/
def execBracingEnd (s : State) : Host.Outcome State Fault Refusal :=
  match s.pwr.bracing with
  | none => .next s
  | some b =>
    if s.tick < s.pwr.lastLow + 64 then .next s
    else .next (s.braceOver b).burnDue.endRevoked.logPage

end Sys2Proof.Machine
end

