-- ==== Sys2Proof/Machine/Image.lean ====
section
/-! DEFINITION. Image.lean: the hub image in its slots (R383 to R389) and the boot records that name it (R392 to
R394). -/
namespace Sys2Proof.Machine

/-! Bytes. -/

/-- `n` bytes from offset `a`. -/
def cut (bs : List Byte) (a n : Nat) : List Byte := (bs.drop a).take n

/-- A little-endian field. -/
def fldAt (bs : List Byte) (a n : Nat) : Nat := leVal (cut bs a n)

/-! The header (R385). -/

/-- Offset of a slot: 0 A, 1 B (R383). -/
def slotBase (slot : Nat) : Nat := 0x20000 + slot % 2 * 0x1000000

/-- IMG_VER. -/
def hdrVer (h : List Byte) : Nat := fldAt h 0x18 4
/-- ARB. -/
def hdrArb (h : List Byte) : Nat := fldAt h 0x1C 1
/-- KEY_SLOT. -/
def hdrKey (h : List Byte) : Nat := fldAt h 0x1D 1
/-- N_SECT. -/
def hdrSects (h : List Byte) : Nat := fldAt h 0x1E 2
/-- BODY_LEN. -/
def hdrBody (h : List Byte) : Nat := fldAt h 0x20 4
/-- CHUNK_CNT. -/
def hdrChunks (h : List Byte) : Nat := fldAt h 0x24 4
/-- Bytes of the chunk table. -/
def hdrTable (h : List Byte) : Nat := 32 * hdrChunks h

/-- A section's entry: type, offset, length. -/
def hdrSect (h : List Byte) (i : Nat) : Nat × Nat × Nat :=
  (fldAt h (0x90 + 16 * i) 2, fldAt h (0x94 + 16 * i) 4, fldAt h (0x98 + 16 * i) 4)

/-- Whether two sections share a byte. -/
def sectsMeet (a b : Nat × Nat × Nat) : Bool := decide (a.2.1 < b.2.1 + b.2.2) && decide (b.2.1 < a.2.1 + a.2.2)

/-- Whether no two sections of a list overlap. -/
def sectsApart : List (Nat × Nat × Nat) → Bool
  | [] => true
  | a :: r => !(r.any (fun b => sectsMeet a b)) && sectsApart r

/-- N_SECT, BODY_LEN, CHUNK_CNT and the section table as R385 sets out. -/
def hdrLayout (h : List Byte) : Bool :=
  let n := hdrSects h
  let sects := (List.range n).map (hdrSect h)
  decide (2 ≤ n) && decide (n ≤ 16) && decide (1 ≤ hdrBody h) && decide (hdrBody h ≤ 16711680)
    && hdrChunks h == cdiv (hdrBody h) 65536
    && sects.all (fun e => decide (1 ≤ e.1) && decide (e.1 ≤ 7) && e.2.1 % 4 == 0 && decide (e.2.1 + e.2.2 ≤ hdrBody h))
    && (List.range n).all (fun i => fldAt h (0x92 + 16 * i) 2 == 0)
    && [1, 2].all (fun t => sects.any (fun e => e.1 == t)) && sectsApart sects
    && (cut h (0x90 + 16 * n) (256 - 16 * n)).all (fun b => b == 0)

/-- Whether an image key slot is programmed and not revoked (R387). -/
def State.imageKeyOk (s : State) (slot : Nat) : Bool := decide ((s.part.ik.getD slot []).length = 49) && !s.part.ikRev.toNat.testBit slot

/-- The status of the first check of R388 that a header fails; none where it is acceptable. -/
def State.headerBad (s : State) (h : List Byte) : Option Nat :=
  if fldAt h 0 4 ≠ 0x534C564B ∨ fldAt h 4 2 ≠ 1 then some 0x40
  else if fldAt h 8 4 ≠ 0x53480448 then some 0x41
  else if fldAt h 0x10 8 ≠ 0 ∧ fldAt h 0x10 8 ≠ s.part.serial.toNat then some 0x42
  else if ¬ s.imageKeyOk (hdrKey h) then some 0x43
  else if ¬ ecdsaOk (s.part.ik.getD (hdrKey h) []) (h.take 0x190) (cut h 0x190 96) then some 0x44
  else if hdrArb h < s.arbCount then some 0x45
  else if ¬ hdrLayout h then some 0x46
  else none

/-! A slot on the flashes (R384, R389). -/

/-- The flashes in service. -/
def State.flashes (s : State) : List Nat := [0, 1].filter s.flashOk

/-- Whether every section of a body has the CRC-32C of its entry in the section table (R385). -/
def sectionsWhole (h body : List Byte) : Bool :=
  (List.range (hdrSects h)).all fun i => let e := hdrSect h i; crc32c (cut body e.2.1 e.2.2) == fldAt h (0x9C + 16 * i) 4

/-- The header of a slot on a flash. -/
def State.slotHeader (s : State) (f slot : Nat) : List Byte := s.flashBytes f (slotBase slot) 512

/-- Whether the head sector of a slot is good on a flash: an acceptable header and a chunk table that matches TABLE_DIGEST. -/
def State.headGood (s : State) (f slot : Nat) : Bool :=
  let h := s.slotHeader f slot
  (s.headerBad h).isNone && sha384 (s.flashBytes f (slotBase slot + 0x200) (hdrTable h)) == cut h 0x60 48

/-- Bytes of chunk `c`. -/
def chunkLen (h : List Byte) (c : Nat) : Nat := min 65536 (hdrBody h - 65536 * c)

/-- Chunk `c` of a slot on a flash. -/
def State.chunkBytes (s : State) (f slot : Nat) (h : List Byte) (c : Nat) : List Byte :=
  s.flashBytes f (slotBase slot + 0x10000 + 65536 * c) (chunkLen h c)

/-- Whether bytes match a chunk's table entry (R384). -/
def chunkMatches (table : List Byte) (c : Nat) (bs : List Byte) : Bool := (sha384 bs).take 32 == cut table (32 * c) 32

/-- Header, table, body and the bad sectors (flash and chunk; chunk 255 stands for the head sector) of a slot that is valid
(R389): its section table is as R385 sets out, the CRCs of the sections among it, which can be checked here alone (log 59). -/
def State.slotImage (s : State) (slot : Nat) : Option (List Byte × List Byte × List Byte × List (Nat × Nat)) :=
  match s.flashes.find? (fun f => s.headGood f slot) with
  | none => none
  | some f0 =>
    let h := s.slotHeader f0 slot
    let table := s.flashBytes f0 (slotBase slot + 0x200) (hdrTable h)
    let good (c : Nat) : List Nat := s.flashes.filter (fun f => chunkMatches table c (s.chunkBytes f slot h c))
    let chunks := List.range (hdrChunks h)
    let body := chunks.flatMap fun c => match good c with | f :: _ => s.chunkBytes f slot h c | [] => []
    if chunks.any (fun c => (good c).isEmpty) ∨ sha384 body ≠ cut h 0x30 48 ∨ ¬ sectionsWhole h body then none
    else
      let heads := (s.flashes.filter (fun f => s.flashBytes f (slotBase slot) (0x200 + hdrTable h) != h ++ table)).map fun f => (f, 255)
      let bad := chunks.flatMap fun c => (s.flashes.filter (fun f => !(good c).contains f)).map fun f => (f, c)
      some (h, table, body, heads ++ bad)

/-- The operations that rewrite one bad sector from the good copy (R389). -/
def sectorOps (why : NvmUse) (slot : Nat) (h table body : List Byte) (f c : Nat) : List NvmOp :=
  let off := if c = 255 then slotBase slot else slotBase slot + 0x10000 + 65536 * c
  let data := if c = 255 then h ++ table else cut body (65536 * c) (chunkLen h c)
  [{ flash := f, erase := true, off := off, why := why }, { flash := f, off := off, data := data, why := why }]

/-! Boot records (R392, R393). -/

/-- The four copies in the order in which they are written. -/
def bootCopies : List (Nat × Nat) := [(0, 0), (1, 0), (0, 0x10000), (1, 0x10000)]

/-- SEQ of a record. -/
def brSeq (b : List Byte) : Nat := fldAt b 4 4
/-- SLOT. -/
def brSlot (b : List Byte) : Nat := fldAt b 8 1
/-- TRIAL. -/
def brTrial (b : List Byte) : Bool := fldAt b 9 1 == 1
/-- TRIES. -/
def brTries (b : List Byte) : Nat := fldAt b 10 1

/-- Whether a record is valid (R392). -/
def brValid (b : List Byte) : Bool :=
  fldAt b 0 4 == 0x4C425243 && fldAt b 0x3C 4 == crc32c (b.take 0x3C) && decide (brSlot b ≤ 1) && decide (fldAt b 9 1 ≤ 1)
    && decide (brTries b ≤ 3)

/-- Whether a record names its slot: the slot's header matches its digest (R392). -/
def brNames (b h : List Byte) : Bool := cut b 0x20 16 == (sha384 h).take 16

/-- The 64 bytes of a record. -/
def brBytes (seq slot : Nat) (trial : Bool) (tries flags ver other arb : Nat) (h : List Byte) : List Byte :=
  let b := leBytes 4 0x4C425243 ++ leBytes 4 seq ++ leBytes 1 slot ++ leBytes 1 (b2n trial) ++ leBytes 1 tries ++ leBytes 1 flags
    ++ leBytes 4 ver ++ leBytes 4 other ++ leBytes 1 arb ++ List.replicate 11 0 ++ (sha384 h).take 16 ++ List.replicate 12 0
  b ++ leBytes 4 (crc32c b)

/-- The valid records among the copies, in the order of R393. -/
def State.bootRecs (s : State) : List (List Byte) :=
  ((bootCopies.filter (fun c => s.flashOk c.1)).map fun c => s.flashBytes c.1 c.2 64).filter brValid

/-- The record with the highest SEQ, the first of equal ones (R394). -/
def State.topRec (s : State) : Option (List Byte) :=
  match s.bootRecs with
  | [] => none
  | b :: r => some (r.foldl (fun m x => if brSeq m < brSeq x then x else m) b)

/-- The newest record, one that is being written included. -/
def State.newestRec (s : State) : Option (List Byte) :=
  match (s.nvmq.filter (fun o => o.why == .bootRecord && !o.erase)).getLast? with
  | some o => some o.data
  | none => s.topRec

/-- IMG_VER of a slot, 0 where it is not valid. -/
def State.slotVer (s : State) (slot : Nat) : Nat := match s.slotImage slot with | some i => hdrVer i.1 | none => 0

/-- A boot record written to the four copies with the next SEQ (R393); its SEQ and the state. -/
def State.writeBootRec (s : State) (slot : Nat) (trial : Bool) (tries flags : Nat) (h : List Byte) : Nat × State :=
  let seq := match s.newestRec with | some b => brSeq b + 1 | none => 1
  let b := brBytes seq slot trial tries flags (hdrVer h) (s.slotVer (1 - slot)) (hdrArb h) h
  (seq, s.nvmQueue (bootCopies.flatMap fun c =>
    [{ flash := c.1, erase := true, off := c.2, why := .bootRecord }, { flash := c.1, off := c.2, data := b, why := .bootRecord }]))

end Sys2Proof.Machine
end

