-- ==== Sys2Proof/Machine/Update.lean ====
section
/-! DEFINITION. Update.lean: field update (R398 to R404), confirmation (R403), image keys (R391) and the repair of flash
sectors (R389). -/
namespace Sys2Proof.Machine

/-- The slot that an update writes: the one the running image does not occupy, slot A in DORMANT (R397). -/
def State.inactive (s : State) : Nat := if s.upd.runHdr = [] then 0 else 1 - s.upd.runSlot

/-- Whether an activation is pending: the newest record is TRIAL with TRIES 0 and names the inactive slot (R400). -/
def State.activationPending (s : State) : Bool :=
  match s.newestRec with
  | some b => brTrial b && brTries b == 0 && brSlot b == s.inactive && s.upd.runHdr != []
  | none => false

/-- A pending activation cancelled (R400): a record names the running slot CONFIRMED. -/
def State.cancelActivation (s : State) : State :=
  let w := s.writeBootRec s.upd.runSlot false 0 0 s.upd.runHdr
  ({ w.2 with upd := { w.2.upd with stage := 0 } }).event Ev.UPD_CANCEL (evSource 13 s.inactive) [.h s.inactive, .w w.1]

/-- Pages of 256 bytes programmed from an offset on both flashes, NVM0 first (R383). -/
def progBoth (why : NvmUse) (off : Nat) (bs : List Byte) : List NvmOp := [0, 1].map fun f => { flash := f, off := off, data := bs, why := why }

/-- A sector erased on both flashes. -/
def eraseBoth (why : NvmUse) (off : Nat) : List NvmOp := [0, 1].map fun f => { flash := f, erase := true, off := off, why := why }

/-- Where a download of header `h` goes on (R400): the first chunk that fails on either flash, 0x200 if the table fails. -/
def State.resumeAt (s : State) (h : List Byte) : Nat :=
  let b := slotBase s.inactive
  let table (f : Nat) := s.flashBytes f (b + 0x200) (hdrTable h)
  if s.flashes.any (fun f => sha384 (table f) != cut h 0x60 48) then 0x200
  else
    match (List.range (hdrChunks h)).find? (fun c => s.flashes.any (fun f => !(chunkMatches (table f) c (s.chunkBytes f s.inactive h c)))) with
    | some c => 0x10000 + 65536 * c
    | none => 0x10000 + hdrBody h

/-- A refused UPDATE_BEGIN (R399): EV_UPD_REFUSED with source and status. -/
def State.refuseBegin (s : State) (r : Req) (status : Nat) : Ans :=
  ((s.flag F.UPD_ALERT_REFUSED).event Ev.UPD_REFUSED (evSource 13 0) [.h (srcBit r.svc), .h status]).ans status

/-- UPDATE_BEGIN of a session (R398 to R400, R404): the header is judged, then the lock, then what runs. While the download it
would disturb is being verified, or its boot record written, the answer is BUSY. What an earlier download still programs no longer counts (R402). -/
def State.beginUpdate (s : State) (r : Req) : Ans :=
  let id := trailerId 128 r
  let h := wordBytes (r.words.take 128)
  match s.headerBad h with
  | some st => s.refuseBegin r st
  | none =>
    if s.upd.stage = 3 ∨ (s.upd.lock.isSome ∧ (s.upd.lock ≠ some id ∨ s.upd.stage ≠ 1)) then s.refuseBegin r St.BUSY
    else if s.upd.trial then s.refuseBegin r 0x47
    else if s.flashes = [] then s.refuseBegin r 0x4D
    else
      let s1 := if s.activationPending then s.cancelActivation else s
      let b := slotBase s.inactive
      let same := s.flashes.all (fun f => s.flashBytes f b 512 == h)
      let next := if same then s1.resumeAt h else 0x200
      let table := match s.flashes with | f :: _ => if same && decide (0x10000 ≤ next) then s.flashBytes f (b + 0x200) (hdrTable h) else [] | [] => []
      let s2 := { s1 with nvmq := s1.nvmq.map (fun (o : NvmOp) => if o.why == NvmUse.chunk then { o with why := NvmUse.header } else o), upd := { s1.upd with
        inflight := 0, lock := some id, lockSvc := r.svc, hdr := h, table := table, buf := [], next := next
        done := if next < 0x10000 then 0 else min (hdrChunks h) ((next - 0x10000) / 65536)
        stage := 1, idleFrom := s.tick, endReset := false, endReq := none } }
      let s3 := if same then s2 else s2.nvmQueue (eraseBoth .header b ++ progBoth .header b h)
      let s4 := if same ∧ next = 0x10000 + hdrBody h then { s3 with upd := { s3.upd with done := hdrChunks h } } else s3
      (s4.event Ev.UPD_BEGIN (evSource 13 0) [.h (srcBit r.svc), .h (hdrVer h), .h next]).ok [wd next]

/-- An update answer with NEXT in word 1 (R398). -/
def State.updAns (s : State) (status detail : Nat) : Ans := { status := status, detail := detail, words := [wd s.upd.next], s := s }

/-- An update request that is refused. -/
def State.updRefused (s : State) (status detail : Nat) : Ans := (s.flag F.UPD_ALERT_REFUSED).updAns status detail

/-- Whether a session holds the update lock in the download stage. -/
def State.holdsLock (s : State) (id : Word) : Bool := s.upd.lock == some id && s.upd.stage == 1

/-- Bytes of the table taken in (R401): with the last of them the table is checked and programmed. -/
def State.takeTable (s : State) (bs : List Byte) : Ans :=
  let t := s.upd.table ++ bs
  if t.length < hdrTable s.upd.hdr then
    ({ s with upd := { s.upd with table := t, next := s.upd.next + bs.length } }).updAns St.OK 0
  else if sha384 t ≠ cut s.upd.hdr 0x60 48 then
    ({ s with upd := { s.upd with table := [], next := 0x200 } }).updRefused 0x4A 0
  else
    (({ s with upd := { s.upd with table := t, next := 0x10000 } }).nvmQueue (progBoth .header (slotBase s.inactive + 0x200) t)).updAns St.OK 0

/-- Bytes of the body taken in, of one chunk (R401): a complete chunk is checked, then its sector erased and programmed on both
flashes. -/
def State.takeBody (s : State) (bs : List Byte) : Ans :=
  let c := (s.upd.next - 0x10000) / 65536
  let buf := s.upd.buf ++ bs
  let next := s.upd.next + bs.length
  if buf.length < chunkLen s.upd.hdr c then ({ s with upd := { s.upd with buf := buf, next := next } }).updAns St.OK 0
  else if ¬ chunkMatches s.upd.table c buf then
    ({ s with upd := { s.upd with buf := [], next := 0x10000 + 65536 * c } }).updRefused 0x49 0
  else
    let off := slotBase s.inactive + 0x10000 + 65536 * c
    (({ s with upd := { s.upd with buf := [], next := next, inflight := s.upd.inflight + 1 } }).nvmQueue
      (eraseBoth .chunk off ++ progBoth .chunk off buf)).updAns St.OK 0

/-- UPDATE_CHUNK of a session (R398, R401): while the hub braces it is answered BUSY (R51). -/
def State.chunk (s : State) (r : Req) : Ans :=
  let n := r.words.length - 6
  let id := trailerId n r
  let s0 := if s.upd.lock = some id then { s with upd := { s.upd with idleFrom := s.tick } } else s
  match r.words.take n with
  | off :: len :: data =>
    let off := off.toNat
    let len := len.toNat
    if len < 4 ∨ 1024 < len ∨ len % 4 ≠ 0 then s0.updRefused St.RANGE 0
    else if data.length * 4 ≠ len then s0.updRefused St.FORMAT 0
    else if ¬ s0.holdsLock id then s0.updRefused 0x4E 0
    else if s.bracingNow then s0.updAns St.BUSY 0
    else if s.flashes = [] then s0.updRefused 0x4D 0
    else if off ≠ s.upd.next then s0.updRefused 0x48 (s.upd.next / 1024)
    else
      let bs := wordBytes data
      let endAt := 0x10000 + hdrBody s.upd.hdr
      if off < 0x10000 then
        if 0x200 + hdrTable s.upd.hdr < off + len then s0.updRefused St.RANGE 0 else s0.takeTable bs
      else if cdiv endAt 4 * 4 < off + len then s0.updRefused St.RANGE 0
      else
        let bs := bs.take (endAt - off)
        let room := chunkLen s.upd.hdr ((off - 0x10000) / 65536) - s.upd.buf.length
        let begins := s.upd.buf = [] || decide (room < bs.length)
        if begins ∧ 2 ≤ s.upd.inflight + b2n (!s.upd.buf.isEmpty) then s0.updAns St.BUSY 0
        else
          let a := s0.takeBody (bs.take room)
          if a.status = St.OK ∧ room < bs.length then a.s.takeBody (bs.drop room) else a
  | _ => s0.updRefused St.FORMAT 0

/-- UPDATE_END of a session (R398, R402): an abort, or the start of the verification, whose response follows it; none is
the answer that waits. -/
def State.endUpdate (s : State) (r : Req) : State × Option Ans :=
  let id := trailerId 1 r
  let w := (r.words.getD 0 0).toNat
  let s0 := if s.upd.lock = some id then { s with upd := { s.upd with idleFrom := s.tick } } else s
  let now (a : Ans) : State × Option Ans := (s, some a)
  if 4 ≤ w then now (s0.updRefused St.FORMAT 0)
  else if ¬ s0.holdsLock id then now (s0.updRefused 0x4E 0)
  else if w.testBit 1 then now ((s0.releaseLock 0).ok [0])
  else if s.flashes = [] then now (s0.updRefused 0x4D 0)
  else if s.upd.done < hdrChunks s.upd.hdr ∨ s.upd.inflight ≠ 0 then now (s0.updRefused 0x4B 0)
  else ({ s0 with upd := { s0.upd with
      stage := 2, endReset := w.testBit 0, endReq := some { src := srcKey r, typ := 0x32, seq := r.seq, port := if r.svc then 2 else r.port, v6 := r.v6 } }
                  net := { s0.net with svcState := if r.svc then 1 else s0.net.svcState } }, none)

/-- The answer to the UPDATE_END that waited, sent to where it came from. -/
def Ans.replyEnd (a : Ans) (e : Resp) : State :=
  let k : Resp := { e with words := a.word0 :: a.words }
  let s1 := if a.status = St.OK then a.s else a.s.countUp F.NSP_MGMT_CNT_REFUSED
  let s2 := s1.sendResp (e.port == 2) k
  { s2 with net := { s2.net with resps := (k :: s2.net.resps).take 64 } }

/-- A verified slot activated (R402): bad sectors are rewritten from the good copy, the boot record is written (TRIAL; CONFIRMED
in DORMANT, where the anti-rollback count is burned as well, R397), the lock is released. The answer follows the record (`State.endAnswer`). -/
def State.activateSlot (s : State) (im : List Byte × List Byte × List Byte × List (Nat × Nat)) : State :=
  let dormant := s.sys.mode == .dormant
  let h := im.1
  let slot := s.inactive
  let s1 := s.nvmQueue (im.2.2.2.flatMap fun b => sectorOps .repair slot h im.2.1 im.2.2.1 b.1 b.2)
  let w := s1.writeBootRec slot (!dormant) 0 0 h
  let s2 := (w.2.event Ev.UPD_VERIFIED (evSource 13 slot) [.h slot, .h (hdrVer h)]).event Ev.UPD_ACTIVATED (evSource 13 slot) [.h slot, .w w.1]
  { s2 with upd := { s2.upd with lock := none, stage := 3, burnTo := if dormant then hdrArb h else s2.upd.burnTo } }

/-- The answer to an UPDATE_END that has led to an activation, once the boot record is written (R402): OK with its SEQ, or UPD_FLASH where no flash took
it. A reset follows 100 ms later where it was asked for, and always in DORMANT (R42). -/
def State.endAnswer (s : State) : State :=
  match s.upd.endReq with
  | some e =>
    let s1 := { s with upd := { s.upd with endReq := none } }
    let dormant := s.sys.mode == .dormant
    if s.upd.stage = 4 then
      let seq := match s.newestRec with | some b => brSeq b | none => 0
      (({ s1 with sys := { s1.sys with
        resetAt := if dormant || s.upd.endReset then some (s.tick + 200000) else s1.sys.resetAt
        updReset := if dormant then true else s1.sys.updReset } }).ok [wd seq]).replyEnd e
    else if s.upd.stage = 0 then (s1.flag F.UPD_ALERT_REFUSED |>.ans 0x4D).replyEnd e
    else s
  | none => s

/-- NVM_OPERATION_COMPLETE (R382): work on a flash ends; an UPDATE_END that waited for it is answered (R402). -/
def execNvmOperationComplete (res : NvmEnd) (s : State) : Host.Outcome State Fault Refusal := .next (s.nvmEvent res).endAnswer

/-- UPDATE_VERIFY_COMPLETE (R402): the slot read back from both flashes is valid, or fails on both. -/
def execUpdateVerifyComplete (s : State) : Host.Outcome State Fault Refusal :=
  match s.upd.endReq with
  | none => .next s
  | some e =>
    if s.upd.stage ≠ 2 ∨ ¬ s.sys.steward then .next s
    else
      match s.slotImage s.inactive with
      | some im => .next (s.activateSlot im)
      | none => .next ((({ s with upd := { s.upd with stage := 1, endReq := none } }).flag F.UPD_ALERT_REFUSED).ans 0x4C |>.replyEnd e)

/-- UPDATE_LOCK_TIMEOUT (R399): 60 s without CHUNK or END from the holder; bracing pauses the count. -/
def execUpdateLockTimeout (s : State) : Host.Outcome State Fault Refusal :=
  .next (if s.upd.lock.isSome ∧ s.upd.stage = 1 ∧ ¬ s.bracingNow ∧ s.upd.idleFrom + 120000000 ≤ s.tick then s.releaseLock 1 else s)

/-- A running TRIAL image confirmed (R403): the record names the running slot CONFIRMED, the burns of R390 follow it. -/
def State.confirm (s : State) (auto : Bool) : State :=
  let w := s.writeBootRec s.upd.runSlot false 0 0 s.upd.runHdr
  (({ w.2 with upd := { w.2.upd with trial := false, burnTo := hdrArb s.upd.runHdr } }).put F.UPD_STAT_TRIES 0).event Ev.UPD_CONFIRMED (evSource 13 s.upd.runSlot)
    [.h s.upd.runSlot, .h (b2n auto)]

/-- A CONFIRM write (R403): refused while the running image is not TRIAL. -/
def State.updConfirm (s : State) : Option State := if s.upd.trial then some (s.confirm false) else none

/-- UPD_CONFIRM (R403). -/
def execUpdConfirm (s : State) : Host.Outcome State Fault Refusal := .next (if s.served then s.updConfirm.getD (s.flag F.UPD_ALERT_WR_REFUSED) else s)

/-- Ticks of RUN before an automatic confirmation (R403). -/
def State.confirmTicks (s : State) : Nat := s.get F.UPD_CFG_CONFIRM_S * Config.second

/-- AUTO_CONFIRM (R403): CONFIRM_S seconds of RUN have passed. -/
def execAutoConfirm (s : State) : Host.Outcome State Fault Refusal :=
  match s.upd.runFrom with
  | some t =>
    .next (if s.upd.trial ∧ s.on F.UPD_CFG_AUTO_CONFIRM ∧ s.sys.mode = .run ∧ s.sys.steward ∧ t + s.confirmTicks ≤ s.tick then s.confirm true else s)
  | none => .next s

/-- A CANCEL write (R406): refused where no activation is pending. -/
def State.updCancel (s : State) : Option State := if s.activationPending then some s.cancelActivation else none

/-- UPD_CANCEL (R400, R406). -/
def execUpdCancel (s : State) : Host.Outcome State Fault Refusal := .next (if s.served then s.updCancel.getD (s.flag F.UPD_ALERT_WR_REFUSED) else s)

/-- Revoke bits of image keys (R391): refused for the slot of the running image, and where no valid slot would be left. -/
def State.revokeImage (s : State) (mask : BitVec 4) : Option State :=
  let runs := s.upd.runHdr != [] && mask.toNat.testBit (hdrKey s.upd.runHdr)
  let left := (List.range 4).any (fun i => s.imageKeyOk i && !(mask ||| s.pwr.ikBurn).toNat.testBit i)
  if runs ∨ ¬ left then none else some (s.burnImageKeys mask)

/-- IMAGE_KEY_REVOKE (R391): refused, it sets UPD_ALERT.WR_REFUSED. -/
def execImageKeyRevoke (mask : BitVec 4) (s : State) : Host.Outcome State Fault Refusal :=
  .next (if s.served then (s.revokeImage mask).getD (s.flag F.UPD_ALERT_WR_REFUSED) else s)

/-- NVM_SECTOR_REPAIR (R389): after RUN has begun, the first bad sector of the running slot on a flash is rewritten from the good
copy. -/
def execNvmSectorRepair (flash : Nat) (s : State) : Host.Outcome State Fault Refusal :=
  if ¬ s.running ∨ ¬ s.sys.steward ∨ s.nvmq.any (fun o => o.why == .repair && o.flash == flash) then .next s
  else
    match s.slotImage s.upd.runSlot with
    | some im =>
      match im.2.2.2.find? (fun b => b.1 == flash) with
      | some b => .next (s.nvmQueue (sectorOps .repair s.upd.runSlot im.1 im.2.1 im.2.2.1 b.1 b.2))
      | none => .next s
    | none => .next s

end Sys2Proof.Machine
end

