-- ==== Sys2Proof/Machine/RegView.lean ====
section
/-! DEFINITION. RegView.lean: what a read of a register answers (R426 to R428): the stored word, with the read-only
fields that show the hub's state put in from that state. -/
namespace Sys2Proof.Machine

/-- What a field shows: lowest bit, number of bits, value. -/
abbrev Shown := List (Nat × Nat × Nat)

/-- The index of an address in a row of `n` registers `stride` apart. -/
def regIdx (base stride n a : Nat) : Option Nat :=
  if base ≤ a ∧ (a - base) % stride = 0 ∧ (a - base) / stride < n then some ((a - base) / stride) else none

/-- RED_STAT code of a role (R329). -/
def Role.code : Role → Nat
  | .bist => 0 | .proving => 1 | .standby => 2 | .catchup => 3 | .active => 4 | .shadow => 5 | .halted => 6 | .retired => 7

/-- Bits of a list of flags, lowest first. -/
def packBools (l : List Bool) : Nat := l.foldr (fun b n => b2n b + 2 * n) 0

/-- The 32 bits of a saturated signed figure. -/
def sat32s (x : Int) : Nat := tw 32 (satI 32 x)

/-! SYS (R431). -/

/-- The fields of the SYS block that show state. -/
def State.showSys (s : State) (a : Nat) : Shown :=
  if a = R.SYS_MODE then [(0, 3, s.sys.mode.code), (4, 3, s.sys.prev.code)]
  else if a = R.SYS_STAT then
    [(0, 1, b2n s.alertN), (1, 1, b2n s.replaceN), (2, 1, b2n s.holdN), (3, 1, b2n (s.sys.trimPend.isSome && s.bumping)),
     (4, 1, b2n s.bracingNow), (5, 1, b2n s.sys.safeOff), (6, 1, b2n s.sys.steward), (8, 4, s.sys.pos), (12, 2, s.sys.svcAddr)]
  else if a = R.SYS_ALERT_SUM then [(0, 16, s.alertSum)]
  else if a = R.SYS_SPAREc 2 then
    [(0, 12, s.coreSpare)]
  else []

/-! TIM (R88). -/

/-- The fields of the TIM block that show state. -/
def State.showTim (s : State) (a : Nat) : Shown :=
  if a = R.TIM_AT_RESID then [(0, 32, sat32s (s.resid / 2 ^ 48))]
  else match regIdx (R.TIM_TDd_RATE_LO 0) 0x40 4 a with
  | some d => [(0, 32, tw 40 (s.view d).rate)]
  | none =>
    match regIdx (R.TIM_TDd_RATE_HI 0) 0x40 4 a with
    | some d => [(0, 8, tw 40 (s.view d).rate / 2 ^ 32)]
    | none => []

/-! AFF, AFS, SID, FLT (R122, R153, R169, R192). -/

/-- The slice that feeds a fast channel now. -/
def State.feederNow (s : State) (ch : Nat) : Option Nat := s.feeder ch s.tick

/-- The set whose taps stand: under TAPS the hub writes new ones in the tick before their boundary (R376). -/
def State.tapSet (s : State) : CoefSet :=
  let c := (s.cal.due.filter (fun e => decide (e.1 ≤ s.tick + 1))).foldl (fun c e => CoefSet.change c e.2.2) s.cal.cur
  if c.digital then s.cal.cur else c

/-- The taps and coefficients of the slice that feeds a fast channel now. -/
def State.sliceNow (s : State) (ch : Nat) : SliceCoef := s.tapSet.slices.val {} ((s.feederNow ch).getD (ownSlice ch))

/-- The tap in force on a fast channel (R103): trim part and user part, saturated. -/
def State.tapNow (s : State) (ch : Nat) : Int := clampI (-256) 255 ((s.sliceNow ch).tap + s.tapUser ch)

/-- The range of the last sample that a fast channel's slice converted. -/
def State.lastRange (s : State) (ch : Nat) : Nat :=
  let sl := (s.feederNow ch).getD (ownSlice ch)
  match s.fe.conv.reverse.findSome? (fun c => match c.words[sl]? with | some w => if isMarker w then none else some (markerReason w) | none => none) with
  | some r => r
  | none => (s.fe.last.val {} ch).r

/-- The fields of the AFF block that show state. In LOAD and DORMANT no unit votes and no spare is joined to an input: AFF_ILK_VOTE and
SPARE_INPUT then show their reset words (log 51). -/
def State.showAff (s : State) (a : Nat) : Shown :=
  if a = R.AFF_ILK_STAT then [(0, 16, s.ilkPins.toNat), (16, 16, s.part.ilkOut.toNat)]
  else if a = R.AFF_ILK_VOTE then
    if s.sys.mode = .load ∨ s.sys.mode = .dormant then [] else [(0, 16, s.coreVotes.toNat), (16, 16, s.backupVotes.toNat)]
  else match regIdx (R.AFF_BANKb_STAT 0) 4 8 a with
    | some b => if s.live then [(8, 5, (s.crossbar b s.tick).getD 31)] else []
    | none => []

/-- The fields of the FLT block that show state. Where the sum of the costs is no whole number of cycles the spec states no
rounding (R191, log 7). -/
def State.showFlt (s : State) (a : Nat) : Shown :=
  if a = R.FLT_STAT then [(0, 10, s.budget / 256 + (if s.budget % 256 = 0 then 0 else Config.freeRound s.budget % 2))]
  else if a = R.FLT_FARROW_DATA then
    let i := s.getWas F.FLT_FARROW_IDX_IDX
    [(0, 20, tw 20 ((farrowRom.getD (i / 8) []).getD (i % 8) 0))]
  else []

/-- The fields of a fast channel's block that show state; QUIET shows the count modulo 128 (log 51), and no slice is shown
before LOAD ends, the first of whose conversions a channel takes. Under DIGITAL every offset tap is 0 (R357). -/
def State.showFast (s : State) (ch off : Nat) : Shown :=
  let k := s.core.fast.val {} ch
  match off with
  | 0x004 => [(16, 9, tw 9 (s.tapNow ch))]
  | 0x008 =>
    let sl := (s.feederNow ch).getD (ownSlice ch)
    let sub := sl % 25 == 24
    [(0, 2, s.lastRange ch), (2, 5, if s.live then sl % 25 else 0), (7, 1, b2n sub), (8, 1, b2n (s.part.lostCh.contains ch)),
     (9, 7, (s.fe.slices.val {} sl).quiet), (16, 16, s.fe.ovrCnt.val 0 ch)]
  | 0x00C => let x := s.fe.last.val {} ch; [(0, 24, tw 24 x.x), (24, 2, x.r)]
  | 0x104 => [(16, 6, cicShift (s.fltN ch) (s.fltD ch))]
  | 0x114 => [(0, 23, s.fltGd2 ch)]
  | 0x118 => [(0, 17, s.fltP ch)]
  | 0x11C => [(0, 16, s.fltU ch), (16, 16, k.left)]
  | 0x120 => [(0, 17, tw 17 (s.skewAt ch s.tick))]
  | 0x124 => [(0, 16, if s.live then min 65535 (s.chanCost ch) else 0)]
  | 0x304 => [(0, 24, tw 24 (s.cal.cur.fz.val 0 ch))]
  | _ =>
    match regIdx 0x320 4 4 off with
    | some r =>
      let c := s.sliceNow ch
      let fz := if s.tapSet.digital then 0 else fzSteps (s.tapSet.fz.val 0 ch)
      [(0, 14, tw 14 (c.ofsTap.getD r 0 + fz)), (16, 13, tw 13 (c.gainTap.getD r 0))]
    | none => []

/-- The fields of a slow channel's block that show state. -/
def State.showSlowCh (s : State) (ch off : Nat) : Shown :=
  if off = 0x018 then
    let g := chGrp ch
    let exc := (List.range 3).any fun k => s.usesExc ch k && ((s.grp g).exc.look k).isSome
    [(0, 19, if s.live then s.slotTicks ch else 0), (20, 1, b2n exc), (21, 1, b2n (s.convFor g != g && (s.grp g).takeover.isNone)), (22, 1, b2n (s.part.lostGrp.contains g))]
  else []

/-! TRG, HST, CMP (R244, R245, R269). -/

/-- The fields of the TRG block that show state. -/
def State.showTrg (s : State) (a : Nat) : Shown :=
  if a = R.TRG_STAT then [(0, 9, (List.range 256).countP (fun d => s.descFree d s.tick)), (16, 5, s.hist.held.length)] else []

/-- The fields of the HST block that show state. -/
def State.showHst (s : State) (a : Nat) : Shown :=
  if a = R.HST_STAT then
    [(0, 9, s.hist.wins.countP (fun (e : Nat × Window) => decide (1 ≤ e.2.state) && decide (e.2.state ≤ 3))),
     (16, 16, if s.rawTicks = 0 then 0 else s.pinCount * 10000 / s.rawTicks)]
  else if a = R.HST_RAW_TICKS then [(0, 32, s.rawTicks)]
  else if a = R.HST_PINNED then [(0, 32, s.pinCount)]
  else if a = R.HST_PIN_LIMIT then [(0, 32, s.pinLimit)]
  else if a = R.HST_OLDEST_LO then [(0, 32, s.oldest s.tick)]
  else if a = R.HST_OLDEST_HI then [(0, 32, s.oldest s.tick / 2 ^ 32)]
  else match regIdx (R.HST_WINd_STAT 0) 0x10 256 a with
  | some d =>
    let w := s.win d
    [(0, 3, w.state), (4, 4, w.src), (8, 1, b2n w.late), (9, 1, b2n w.clamped), (10, 1, b2n w.auto), (12, 2, w.form)]
  | none =>
    match regIdx (R.HST_WINd_CUT_LO 0) 0x10 256 a, regIdx (R.HST_WINd_CUT_HI 0) 0x10 256 a with
    | some d, _ => [(0, 32, (s.win d).cut)]
    | _, some d => [(0, 32, (s.win d).cut / 2 ^ 32)]
    | _, _ => []

/-- Whether a unit runs a job. -/
def State.unitBusy (s : State) (u : Nat) : Bool := s.jobs.any (fun (e : Nat × Job) => e.2.state == 2 && e.2.unit == u)

/-- The fields of the CMP block that show state: a window's job shows OP 2 and the window's RATIO (R263, R265). -/
def State.showCmp (s : State) (a : Nat) : Shown :=
  if a = R.CMP_STAT then
    [(0, 9, s.jobs.countP (fun (e : Nat × Job) => e.2.state == 1)), (12, 1, b2n (s.unitBusy 0)), (13, 1, b2n (s.unitBusy 1)),
     (14, 1, b2n (s.unitBusy 2))]
  else if a = R.CMP_POOL_FREE then [(0, 32, largestFree s.poolBytes 0 s.extents / 1024)]
  else if a < R.CMP_JOBj_CTRL 0 ∨ R.CMP_JOBj_CTRL 256 ≤ a then []
  else
    let j := (a - R.CMP_JOBj_CTRL 0) / 0x20
    let k := s.job j
    match (a - R.CMP_JOBj_CTRL 0) % 0x20 with
    | 0 => (match k.win with | some d => [(0, 2, 2), (4, 3, (s.win d).ratio)] | none => [])
    | 0x14 => [(0, 3, k.state), (4, 4, k.err), (8, 2, k.result), (10, 5, k.kseen), (15, 1, b2n k.merged), (16, 9, k.failCh), (25, 1, b2n k.win.isSome)]
    | 0x18 => [(0, 32, k.blocks)]
    | 0x1C => [(0, 32, k.commit)]
    | _ => []

/-! NSP, STK, RED, CAL, UPD, LOG (R302, R328, R355, R381, R406, R424). -/

/-- The fields of the NSP block that show state. -/
def State.showNsp (s : State) (a : Nat) : Shown :=
  if a = R.NSP_STAT then [(5, 11, s.net.retx.length), (16, 3, s.net.sessions.length)]
  else if a = R.NSP_BOOT then [(0, 16, s.part.boot)]
  else if a = R.NSP_KEY then
    [(0, 4, packBools ((List.range 4).map fun i => decide ((s.part.hk.getD i []).length = 32))), (4, 4, s.part.hkRev.toNat)]
  else match regIdx (R.NSP_UPx_MAC_LO 0) 0x80 2 a, regIdx (R.NSP_UPx_MAC_HI 0) 0x80 2 a with
  | some x, _ => [(0, 32, (s.mac x).toNat)]
  | _, some x => [(0, 16, (s.mac x).toNat / 2 ^ 32)]
  | _, _ =>
    if a < R.NSP_STRm_CFG 0 ∨ R.NSP_STRm_CFG 16 ≤ a then []
    else
      let st := s.stream ((a - R.NSP_STRm_CFG 0) / 0x40)
      match (a - R.NSP_STRm_CFG 0) % 0x40 with
      | 0x20 => [(0, 32, st.seq)]
      | 0x24 => [(0, 16, st.seq / 2 ^ 32)]
      | 0x28 => [(0, 32, st.rel)]
      | 0x2C => [(0, 16, st.rel / 2 ^ 32)]
      | 0x30 => [(0, 20, min 0xFFFFF (cdiv (ringUsed (st.ring.filter (fun d => !d.sent))) 1024))]
      | _ => []

/-- STK_STAT.ROLE (R328): 0 alone, 1 ringmaster, 2 member, 3 deputy acting. A ringmaster with no other hub joined is a hub alone. -/
def State.stkRole (s : State) : Nat :=
  if s.stk.deputy then 3
  else if s.sys.pos = 0 then (if s.stk.ports.any (fun (e : Nat × StkPort) => e.2.up) then 1 else 0)
  else if s.joined then 2 else 0

/-- The fields of the STK block that show state. -/
def State.showStk (s : State) (a : Nat) : Shown :=
  if a = R.STK_STAT then [(0, 4, s.sys.pos), (4, 5, if s.sys.mode = .load then 0 else max 1 (s.get F.STK_STAT_SIZE)), (9, 2, s.stkRole), (11, 1, b2n s.stk.lock), (16, 16, s.stk.dropped.toNat)]
  else if a = R.STK_POOL_STAT then [(16, 1, b2n s.stk.poolOn)]
  else match regIdx (R.STK_PORTx_STAT 0) 0x20 2 a with
  | some x => [(0, 1, b2n (s.stk.ports.val {} x).up)]
  | none => []

/-- The fields of the RED block that show state. -/
def State.showRed (s : State) (a : Nat) : Shown :=
  if a = R.RED_STAT then
    [(0, 1, b2n (s.red.active == some .b)), (1, 3, s.red.roleA.code), (4, 3, s.red.roleB.code),
     (7, 1, b2n s.red.bump.isSome), (8, 1, b2n s.red.drill.isSome),
     (9, 1, b2n (s.red.noCoreAt.isSome && s.red.active.isNone)), (10, 1, b2n (s.sys.mode == .hold)), (12, 3, s.get F.RED_WV_STAT_LANES)]
  else
    let next := match s.red.drillFrom with | some t => if s.on F.RED_DRILL_CFG_EN then t + s.drillPeriod else 0 | none => 0
    if a = R.RED_DRILL_NEXT_LO then [(0, 32, next)]
    else if a = R.RED_DRILL_NEXT_HI then [(0, 32, next / 2 ^ 32)]
    else if a = R.RED_JOURNAL then [(0, 11, s.journalUsed)]
    else match regIdx (R.RED_COREx_STAT 0) 4 2 a with
    | some x =>
      let c : CoreId := if x = 0 then .a else .b
      [(0, 8, min 255 (s.sys.eccCnt.val 0 (3 + x))), (13, 1, b2n (s.part.retired.contains c)),
       (16, 4, min 15 ((s.coreFails c).countP (fun t => decide (s.tick < t + 86400 * Config.second))))]
    | none => []

/-- The fields of the CAL block that show state. METHOD reads DIGITAL from the end of LOAD to the first full trim (R358), and 0 before. -/
def State.showCal (s : State) (a : Nat) : Shown := if a = R.CAL_STAT then [(0, 1, b2n (s.live && s.cal.cur.digital))] else []

/-- Seconds of RUN before the running TRIAL image is confirmed (R406). -/
def State.confirmLeft (s : State) : Nat :=
  if ¬ s.upd.trial ∨ ¬ s.on F.UPD_CFG_AUTO_CONFIRM then 0
  else match s.upd.runFrom with
    | some t => cdiv (s.confirmTicks - (s.tick - t)) Config.second
    | none => s.get F.UPD_CFG_CONFIRM_S

/-- The fields of the UPD block that show state. -/
def State.showUpd (s : State) (a : Nat) : Shown :=
  if a = R.UPD_STAT then
    [(0, 1, s.upd.runSlot), (1, 1, b2n s.upd.trial), (4, 1, b2n s.upd.lock.isSome), (5, 1, b2n (s.upd.lock.isSome && s.upd.lockSvc)),
     (6, 3, s.upd.stage)]
  else if a = R.UPD_CONFIRM_LEFT then [(0, 16, s.confirmLeft)]
  else if a = R.UPD_VER_RUN then [(0, 32, hdrVer s.upd.runHdr)]
  else if a = R.UPD_VER_OTHER then [(0, 32, s.slotVer s.inactive)]
  else if a = R.UPD_ARB then [(0, 7, s.arbCount), (8, 7, hdrArb s.upd.runHdr)]
  else if a = R.UPD_PROG then [(0, 25, s.upd.next)]
  else if a = R.UPD_CHUNKS then [(0, 8, s.upd.done), (8, 8, hdrChunks s.upd.hdr)]
  else if a = R.UPD_KEY then
    [(0, 4, packBools ((List.range 4).map fun i => decide ((s.part.ik.getD i []).length = 49))), (4, 4, s.part.ikRev.toNat),
     (12, 2, hdrKey s.upd.runHdr)]
  else if a = R.UPD_SERIAL_LO then [(0, 32, s.part.serial.toNat)]
  else if a = R.UPD_SERIAL_HI then [(0, 32, s.part.serial.toNat / 2 ^ 32)]
  else if a = R.UPD_NVM then [(0, 1, b2n (s.flashOk 0)), (1, 1, b2n (s.flashOk 1))]
  else []

/-- The fields of the LOG block that show state. -/
def State.showLog (s : State) (a : Nat) : Shown :=
  if a = R.LOG_STAT then
    [(0, 1, b2n (s.logTakes 0)), (1, 1, b2n (s.logTakes 1)), (2, 1, b2n s.log.clear.isSome), (3, 1, b2n (decide (16384 ≤ s.part.fixNext))),
     (4, 6, s.part.tombs.length), (16, 12, s.log.staged.length)]
  else if a = R.LOG_CAR_OLDEST then [(0, 32, ((s.logEntries 1).head?.map (·.seq)).getD 0)]
  else if a = R.LOG_CLEAR_SEQ then [(0, 32, s.part.clearSeq)]
  else if a = R.LOG_SPARE then [(0, 4, s.part.logSpare.getD 0 0), (4, 4, s.part.logSpare.getD 1 0)]
  else []

/-! Reading (R426, R428). -/

/-- The channel and the offset of a per-channel address. -/
def chanOf (a : Nat) : Nat × Nat := ((a - 0x100000) / 0x800, (a - 0x100000) % 0x800)

/-- The fields at an address that show state. -/
def State.shown (s : State) (a : Nat) : Shown :=
  if a < 0x100000 then
    match a / 0x10000 with
    | 0 => s.showSys a | 1 => s.showTim a | 2 => s.showAff a | 5 => s.showFlt a | 6 => s.showTrg a | 7 => s.showHst a
    | 8 => s.showCmp a | 9 => s.showNsp a | 10 => s.showStk a | 11 => s.showRed a | 12 => s.showCal a | 13 => s.showUpd a
    | 14 => s.showLog a | _ => []
  else
    let c := chanOf a
    if c.1 < 192 then s.showFast c.1 c.2 else if 256 ≤ c.1 ∧ c.1 < 512 then s.showSlowCh c.1 c.2 else []

/-- The word a register holds as software sees it. A reserved address, and the blocks of CH 192 to 255, read 0 (R426). -/
def State.view1 (s : State) (a : Nat) : Word :=
  (s.shown a).foldl (fun (w : Word) f => (Fld.mk a f.1 f.2.1).into w f.2.2) (s.rd a)

/-- A read of a register (R428): the lowest word of a group latches the group, and the others then answer what was latched. -/
def State.readReg (s : State) (a : Nat) : Word × State :=
  match groupOf a with
  | none => (s.view1 a, s)
  | some (low, k) =>
    if a = low then
      (s.view1 a, { s with latch := (List.range k).foldl (fun (t : Tab Word) i => t.set (low + 4 * i) (s.view1 (low + 4 * i))) s.latch })
    else ((s.latch.look a).getD (s.view1 a), s)

/-- Consecutive registers read upwards from an address. -/
def State.readRegs (s : State) (a : Nat) : Nat → List Word × State
  | 0 => ([], s)
  | n + 1 =>
    let r := s.readReg a
    let t := r.2.readRegs (a + 4) n
    (r.1 :: t.1, t.2)

end Sys2Proof.Machine
end

