-- ==== Sys2Proof/Machine/RegWrite.lean ====
section
/-! DEFINITION. RegWrite.lean: what a write of a register does (R6, R426 to R431): who owns the address, which values
and moments are refused, what is stored, and the effect. The refusals are those of the register tables of each
chapter; a value outside a range that a table states is refused although the table does not say so (DEDUCED from R435,
log 27). -/
namespace Sys2Proof.Machine

/-- What a write ends in: none where it is accepted, otherwise the status of its refusal; and the state. -/
abbrev Wrote := Option Nat × State

/-! Owners (R426). -/

/-- The block that owns an address: its number, 0 for SYS where none does (R425, R426). -/
def ownerBlock (a : Nat) : Nat :=
  let ofs := a % 0x800
  if a < 0x100000 then a / 0x10000
  else if a < 0x160000 then
    if ofs < 0x40 then 2 else if ofs < 0x44 then 9 else if 0x100 ≤ ofs ∧ ofs < 0x260 then 5
    else if 0x300 ≤ ofs ∧ ofs < 0x330 then 12 else 0
  else if 0x180000 ≤ a ∧ a < 0x200000 then
    if ofs < 0xC0 then 3 else if ofs < 0xE0 then 4 else if ofs < 0xEC then 5 else if 0xF0 ≤ ofs ∧ ofs < 0xF4 then 9 else 0
  else 0

/-- The WR_REFUSED bit of a block (R426): LOG has none, and SYS_ALERT's stands for it. -/
def refusedFlag : Nat → Fld
  | 1 => F.TIM_ALERT_WR_REFUSED | 2 => F.AFF_ALERT_WR_REFUSED | 3 => F.AFS_ALERT_WR_REFUSED
  | 4 => F.SID_ALERT_WR_REFUSED | 5 => F.FLT_ALERT_WR_REFUSED | 6 => F.TRG_ALERT_WR_REFUSED
  | 7 => F.HST_ALERT_WR_REFUSED | 8 => F.CMP_ALERT_WR_REFUSED | 9 => F.NSP_ALERT_WR_REFUSED
  | 10 => F.STK_ALERT_WR_REFUSED | 11 => F.RED_ALERT_WR_REFUSED | 12 => F.CAL_ALERT_WR_REFUSED
  | 13 => F.UPD_ALERT_WR_REFUSED
  | _ => F.SYS_ALERT_WR_REFUSED

/-- A write refused with a status: the owner's WR_REFUSED is set (R293, R426). -/
def State.refuse (s : State) (a status : Nat) : Wrote := (some status, s.flag (refusedFlag (ownerBlock a)))

/-- Index `n` of an address within its row. -/
def RegRow.ix (r : RegRow) (a n : Nat) : Nat :=
  match r.dims, n with
  | (_, st) :: _, 0 => (a - r.base) / st
  | (_, st) :: (_, st2) :: _, _ => (a - r.base) % st / st2
  | _, _ => 0

/-! Values refused whatever else the hub holds. `b` is the base of the register's row, `v` the value that would
result from the write. -/

/-- Whether a number lies outside a range. -/
def outside (lo hi n : Nat) : Bool := decide (n < lo) || decide (hi < n)

/-- TIM (R88), and MCLK_IN judged where tracking is enabled (log 27). -/
def badTim (b : Nat) (v : Word) : Bool :=
  let g (f : Fld) : Nat := f.ofWord v
  if b = R.TIM_CTRL then g F.TIM_CTRL_AT_MODE == 3
  else if b = R.TIM_FRC_SRC then (qlRank (g F.TIM_FRC_SRC_QL_MIN)).isNone
  else if b = R.TIM_SLEW_MAX then outside 1 10000 (g F.TIM_SLEW_MAX_VALUE)
  else if b = R.TIM_JOIN_MAX then outside 0 1000000 (g F.TIM_JOIN_MAX_VALUE)
  else if b = R.TIM_REVERT then outside 1 86400 (g F.TIM_REVERT_HOLD)
  else if b = R.TIM_ASYM_THR then decide (v.toNat < 0x8000)
  else if b = R.TIM_PPS_CFG then outside 1 500 (g F.TIM_PPS_CFG_WIDTH)
  else if b = R.TIM_MCLK_CFG then
    g F.TIM_MCLK_CFG_EN == 1 && (outside 10000 500000 (g F.TIM_MCLK_CFG_NOM_KHZ) || g F.TIM_MCLK_CFG_DIV == 0
      || decide (10000 * g F.TIM_MCLK_CFG_DIV < g F.TIM_MCLK_CFG_NOM_KHZ))
  else if b = R.TIM_TDd_CTRL 0 then g (F.TIM_TDd_CTRL_TRANSPORT 0) == 3
  else if b = R.TIM_TDd_QUAL_CFG 0 then g (F.TIM_TDd_QUAL_CFG_LOSS_TMO 0) == 0
  else if b = R.TIM_TCMPu_CTRL 0 then g (F.TIM_TCMPu_CTRL_ACTION 0) == 7
  else false

/-- AFF (R102, R122). -/
def badAff (b : Nat) (v : Word) : Bool :=
  let g (f : Fld) : Nat := f.ofWord v
  if b = R.AFF_BANKb_CTRL 0 then decide (24 ≤ g (F.AFF_BANKb_CTRL_MAN_INPUT 0))
  else if b = R.CH_AFE_CTRL 0 then
    let lo := g (F.CH_AFE_CTRL_RNG_MIN 0); let hi := g (F.CH_AFE_CTRL_RNG_MAX 0)
    decide (hi < lo) || (g (F.CH_AFE_CTRL_RNG_MODE 0) == 0 && outside lo hi (g (F.CH_AFE_CTRL_RNG_INIT 0)))
      || g (F.CH_AFE_CTRL_SRD_K 0) == 7
  else false

/-- AFS and SID (R153, R169). -/
def badAfs (b : Nat) (v : Word) : Bool :=
  let g (f : Fld) : Nat := f.ofWord v
  if b = R.AFS_GRPg_PERIOD 0 then outside 500 120000000 v.toNat
  else if b = R.AFS_GRPg_IEXCA 0 then decide (150 < g (F.AFS_GRPg_IEXCA_CODE 0))
  else if b = R.AFS_GRPg_IEXCB 0 then decide (150 < g (F.AFS_GRPg_IEXCB_CODE 0))
  else if b = R.AFS_GRPg_VEXC 0 then g (F.AFS_GRPg_VEXC_MV 0) != 0 && outside 1000 5000 (g (F.AFS_GRPg_VEXC_MV 0))
  else if b = R.CH_SIN_CFG 256 then g (F.CH_SIN_CFG_REF 256) == 3 || decide (6 ≤ g (F.CH_SIN_CFG_WIN 256))
  else if b = R.CH_SIN_SLOT 256 then outside 8 128 (g (F.CH_SIN_SLOT_DSCH 256)) || decide (199788 < g (F.CH_SIN_SLOT_SETTLE 256))
  else if b = R.CH_SIN_BO 256 then outside 8 40 (g (F.CH_SIN_BO_BO_T 256)) || outside 10 2400 (g (F.CH_SIN_BO_BO_THR 256))
  else if b = R.CH_SIN_TSRC 256 then outside 256 511 (g (F.CH_SIN_TSRC_CH 256))
  else if b = R.CH_SID_CFG 256 then outside 256 511 (g (F.CH_SID_CFG_TCH 256))
  else false

/-- FLT (R192). -/
def badFlt (b : Nat) (v : Word) : Bool :=
  let g (f : Fld) : Nat := f.ofWord v
  if b = R.CH_FLT_CFG 0 then
    let w := g (F.CH_FLT_CFG_W 0)
    w % 2 == 0 || decide (11 < w) || decide (w < g (F.CH_FLT_CFG_RANK 0)) || outside 1 5 (g (F.CH_FLT_CFG_N 0))
      || decide (4 < g (F.CH_FLT_CFG_NNOTCH 0)) || outside 1 64 (g (F.CH_FLT_CFG_L 0))
  else if b = R.CH_FLT_DCIC 0 then outside 1 1000 (g (F.CH_FLT_DCIC_D 0))
  else if b = R.CH_SLW_CFG 256 then g (F.CH_SLW_CFG_MED 256) == 3
  else false

/-- The configuration word of a condition that R224 and R225 refuse; a signal condition on CH 192 to 255, channels
that do not exist, is refused too (log 27). -/
def badCnd (v : Word) : Bool :=
  let w := v.toNat
  let k := cndType w
  decide (11 ≤ k) || ((1 ≤ k && k ≤ 4) && decide (2 ≤ cndDir w)) || ((k == 5 || k == 8) && cndDir w == 3)
    || (cndSignal w && ((256 ≤ cndCh w && !(cndSrc w)) || outside 0 191 (cndCh w) && decide (cndCh w < 256)))
    || (k == 5 && cndSrc w)

/-- TRG (R224, R233, R244). -/
def badTrg (b : Nat) (v : Word) : Bool :=
  let g (f : Fld) : Nat := f.ofWord v
  if b = R.TRG_CTRL then g F.TRG_CTRL_MODE == 3 || outside 2 15 (g F.TRG_CTRL_BUS_LAT)
  else if b = R.TRG_AUTO then outside 1 3600000 (g F.TRG_AUTO_VALUE)
  else if b = R.TRG_CNDc_CFG 0 then badCnd v
  else if b = R.TRG_CNDc_D 0 then
    g (F.TRG_CNDc_D_D 0) == 0 || outside 1 (g (F.TRG_CNDc_D_D 0)) (g (F.TRG_CNDc_D_COUNT 0))
  else if b = R.TRG_SRCq_CTRL 0 then g (F.TRG_SRCq_CTRL_COMB 0) == 3
  else if b = R.TRG_SRCq_TGT 0 then g (F.TRG_SRCq_TGT_FORM 0) == 3 || decide (6 ≤ g (F.TRG_SRCq_TGT_RATIO 0))
  else false

/-- HST and CMP (R245, R263, R269). -/
def badHst (b : Nat) (v : Word) : Bool :=
  let g (f : Fld) : Nat := f.ofWord v
  if b = R.HST_PIN_MAX then decide (7500 < g F.HST_PIN_MAX_VALUE)
  else if b = R.CMP_CTRL then decide (23 < g F.CMP_CTRL_KMAX)
  else if b = R.CMP_WIN_POOL then g F.CMP_WIN_POOL_MIB == 0
  else if b = R.CMP_JOBj_CTRL 0 then decide (2 ≤ g (F.CMP_JOBj_CTRL_OP 0)) || decide (6 ≤ g (F.CMP_JOBj_CTRL_RATIO 0))
  else if b = R.CMP_JOBj_IN 0 ∨ b = R.CMP_JOBj_OUT 0 then v.toNat % 4 != 0
  else false

/-- NSP (R302); the prefix lengths of IPv4 and IPv6 addresses are at most 32 and 128 (log 27). -/
def badNsp (b : Nat) (v : Word) : Bool :=
  let g (f : Fld) : Nat := f.ofWord v
  if b = R.NSP_CTRL then g F.NSP_CTRL_MODE == 3
  else if b = R.NSP_DGRAM then outside 4096 8896 (g F.NSP_DGRAM_PAYLOAD) || g F.NSP_DGRAM_PAYLOAD % 4 != 0
  else if b = R.NSP_UPx_CFG 0 then
    g (F.NSP_UPx_CFG_SPEED 0) == 3 || g (F.NSP_UPx_CFG_FEC 0) == 3 || outside 1500 9000 (g (F.NSP_UPx_CFG_MTU 0))
  else if b = R.NSP_UPx_IP4_CFG 0 then decide (32 < v.toNat)
  else if b = R.NSP_UPx_IP6_CFG 0 then decide (128 < v.toNat)
  else if b = R.NSP_STRm_CFG 0 then g (F.NSP_STRm_CFG_KIND 0) == 3
  else if b = R.NSP_STRm_RATE 0 then decide (25000 < g (F.NSP_STRm_RATE_MBPS 0))
  else if b = R.NSP_STRm_BURST 0 then outside 9 4096 (g (F.NSP_STRm_BURST_KIB 0))
  else false

/-- STK, RED, CAL and UPD (R328, R355, R381, R406). -/
def badRest (b : Nat) (v : Word) : Bool :=
  let g (f : Fld) : Nat := f.ofWord v
  if b = R.STK_CTRL then g F.STK_CTRL_FUNNEL == 3
  else if b = R.STK_POOL then g F.STK_POOL_BORROW == 3
  else if b = R.STK_MUL then g F.STK_MUL_M == 3
  else if b = R.STK_HOP_ASYM then decide (1000 < (sx 11 (g F.STK_HOP_ASYM_VALUE)).natAbs)
  else if b = R.RED_HOLD_POST then decide (60000 < g F.RED_HOLD_POST_MS)
  else if b = R.RED_REVERT_HOLDOFF then outside 1 3600 (g F.RED_REVERT_HOLDOFF_S)
  else if b = R.RED_DRILL_CFG then outside 1 2160 (g F.RED_DRILL_CFG_PERIOD)
  else if b = R.CAL_CTRL then g F.CAL_CTRL_METHOD == 3
  else if b = R.CAL_OUT_THR then outside 1 4096 (g F.CAL_OUT_THR_VALUE)
  else if b = R.CAL_FZ_CTRL then decide (191 < g F.CAL_FZ_CTRL_CH)
  else if b = R.UPD_CFG then outside 60 65535 (g F.UPD_CFG_CONFIRM_S)
  else false

/-- Whether a register refuses a value that would result from a write. -/
def badValue (b : Nat) (v : Word) : Bool :=
  badTim b v || badAff b v || badAfs b v || badFlt b v || badTrg b v || badHst b v || badNsp b v || badRest b v

/-- Both fields of an opposed pair written 1 (R427): ARM and DISARM, START and STOP. -/
def bothOf (b : Nat) (v : Word) : Bool :=
  let n := v.toNat
  if b = R.TIM_TCMPu_CTRL 0 then n.testBit 8 && n.testBit 9
  else if b = R.TIM_TOUTt_CTRL 0 ∨ b = R.TRG_SRCq_CTRL 0 ∨ b = R.FLT_SYNC_CTRL then n.testBit 0 && n.testBit 1
  else false

/-! Refusals that depend on other registers or on what the hub is doing. -/

/-- Whether source `q` is guarded (R244): armed, or named in AFF_ILKp_TSRC of an enabled pin. -/
def State.srcGuarded (s : State) (q : Nat) : Bool :=
  (s.core.srcs.val {} q).armed
    || (List.range 16).any (fun p => bitOf (s.get F.AFF_ILK_EN_EN) p && bitOf (s.get (F.AFF_ILKp_TSRC_MASK p)) q)

/-- Whether condition `c` is guarded (R244): named by a guarded source. -/
def State.cndGuarded (s : State) (c : Nat) : Bool :=
  (List.range 16).any (fun q => s.srcGuarded q && (s.srcConds q).contains c)

/-- The width rule of R174, D^N ≤ 2⁴⁸. -/
def widthOk (d n : Nat) : Bool := decide (d ^ n ≤ 2 ^ 48)

/-- Whether a slow channel's slot would be longer than 400,000 ticks (R129). -/
def State.slotLong (s : State) (a : Nat) (v : Word) (ch : Nat) : Bool := decide (400000 < (s.wr a v).slotTicks ch)

/-- Refusals of CH_AFE_CTRL, CH_SIN_CFG, CH_SIN_SLOT, CH_FLT_CFG and CH_FLT_DCIC that depend on other registers (R127, R129,
R171, R174, R322). -/
def State.badChan (s : State) (b a i : Nat) (old v : Word) : Bool :=
  let g (f : Fld) : Nat := f.ofWord v
  let ch := 256 + i
  if b = R.CH_AFE_CTRL 0 then
    (g (F.CH_AFE_CTRL_SRD_K 0) != 0 && s.on (F.CH_FLT_CFG_SKEW_EN i))
      || (v.toNat.testBit 0 && !(old.toNat.testBit 0) && !((s.wr a v).phaseOk i))
  else if b = R.CH_SIN_CFG 256 then
    (g (F.CH_SIN_CFG_EN 256) == 1 && !(s.slowEnOk ch))
      || (g (F.CH_SIN_CFG_REF 256) == 2 && i % 16 != 15 && s.on (F.CH_SIN_CFG_EN (256 + i / 16 * 16 + 15)))
      || s.slotLong a v ch
  else if b = R.CH_SIN_SLOT 256 then s.slotLong a v ch
  else if b = R.CH_FLT_CFG 0 then
    (g (F.CH_FLT_CFG_SKEW_EN 0) == 1 && s.srdK i != 0) || !(widthOk (s.get (F.CH_FLT_DCIC_D i)) (g (F.CH_FLT_CFG_N 0)))
  else if b = R.CH_FLT_DCIC 0 then !(widthOk (g (F.CH_FLT_DCIC_D 0)) (s.get (F.CH_FLT_CFG_N i)))
  else false

/-- Actions of the TIM block refused with the whole write (R79, R88): ASYM_APPLY without a valid estimate, START of an output whose settings lie outside
their ranges. -/
def State.badTimAct (s : State) (b i sc : Nat) : Bool :=
  (b == R.TIM_TDd_CTRL 0 && decide (i < 2) && sc.testBit 21 && !s.on (F.TIM_TDd_STAT_EST_VALID i))
    || (b == R.TIM_TOUTt_CTRL 0 && sc.testBit 0 && !s.toutOk i)

/-- Refusals of TRG registers that depend on others (R233, R244): `sc` holds the ARM and DISARM bits of the write. -/
def State.badSrc (s : State) (b i : Nat) (old v : Word) (sc : Nat) : Bool :=
  let g (f : Fld) : Nat := f.ofWord v
  let cnd := b = R.TRG_CNDc_CFG 0 ∨ b = R.TRG_CNDc_A 0 ∨ b = R.TRG_CNDc_B 0 ∨ b = R.TRG_CNDc_D 0
  let src := b = R.TRG_SRCq_CND0 0 ∨ b = R.TRG_SRCq_CND1 0 ∨ b = R.TRG_SRCq_HOLDOFF 0 ∨ b = R.TRG_SRCq_PRE 0
    ∨ b = R.TRG_SRCq_POST 0 ∨ b = R.TRG_SRCq_TGT 0 ∨ b = R.TRG_SRCq_MASKw 0 0
  if cnd then s.cndGuarded i
  else if b = R.TRG_SRCq_CTRL 0 then !(sc != 0 && v == old) && s.srcGuarded i
  else if src then
    s.srcGuarded i || (b == R.TRG_SRCq_PRE 0 && decide (s.rawTicks < v.toNat))
      || (b == R.TRG_SRCq_TGT 0 && !(s.streamReadout (g (F.TRG_SRCq_TGT_STREAM 0))))
  else false

/-- A spare that substitutes, or has failed, keeps its bank's control (R111). -/
def State.badBank (s : State) (b i : Nat) : Bool := b == R.AFF_BANKb_CTRL 0 && decide (2 ≤ s.get (F.AFF_BANKb_STAT_SPARE_STATE i))

/-- The window pool is no larger than JOB (R269). -/
def State.badPool (s : State) (b : Nat) (v : Word) : Bool :=
  b == R.CMP_WIN_POOL && decide (s.get F.HST_REGIONS_JOB * 256 < F.CMP_WIN_POOL_MIB.ofWord v)

/-- A job that is held takes no write but an ABORT alone of one that no window owns (R263, R267). -/
def State.jobBusy (s : State) (b i : Nat) (old v : Word) (sc : Nat) : Bool :=
  decide (R.CMP_JOBj_CTRL 0 ≤ b) && decide (b < R.CMP_JOBj_CTRL 0 + 0x20) && s.jobHeld i
    && !(b == R.CMP_JOBj_CTRL 0 && v == old && sc == 2 ^ 9 && (s.job i).win.isNone)

/-! What the core acts on (R342). -/

/-- Whether an address holds configuration of the trigger: TRG_AUTO, conditions and sources. -/
def coreConfig (a : Nat) : Bool := a == R.TRG_AUTO || (decide (R.TRG_CNDc_CFG 0 ≤ a) && decide (a < 0x61000))

/-- Whether a write changes settings of a channel that the core reads at its ticks; an enable is journaled as such (R186, R148). -/
def chanChange (b a : Nat) (old v : Word) : Bool :=
  coreChan a && ((old ^^^ v) &&& (if b = R.CH_AFE_CTRL 0 ∨ b = R.CH_SIN_CFG 256 then ~~~1 else ~~~0)) != 0

/-- Whether a write needs room in the command journal. -/
def needsJournal (b a : Nat) (old v : Word) : Bool :=
  coreConfig b || b == R.AFF_ILK_CTRL || b == R.FLT_SYNC_CTRL || chanChange b a old v
    || ((b == R.CH_AFE_CTRL 0 || b == R.CH_SIN_CFG 256) && (old ^^^ v).toNat.testBit 0)

/-- A word stored with the word it replaces journaled for the next tick, at which it takes effect (R244, R342). -/
def State.storeCore (s : State) (a : Nat) (old v : Word) : State :=
  if s.running then (s.journalCmd (s.tick + 1) (.regWrite a old)).wr a v
  else
    let s1 := s.wr a v
    match cndOfAddr a with | some c => s1.clearCnd c | none => s1

/-- A word stored; one that the core acts on in RUN or LIMP takes effect at the next tick (R244, R342), and so does one that the hardware reads in
every tick (R429). -/
def State.storeWord (s : State) (b a : Nat) (old v : Word) : State :=
  if coreConfig a || chanChange b a old v then s.storeCore a old v
  else if s.sys.wrote.any (fun e => e.1 == a) then s.wr a v
  else ({ s with sys := { s.sys with wrote := (a, old) :: s.sys.wrote } }).wr a v

/-! Effects. `sc` holds the bits of SC fields written 1. -/

/-- Effects in the TIM block. -/
def State.timEffect (s : State) (b i : Nat) (old v : Word) (sc : Nat) : State :=
  let en := v.toNat.testBit 0
  if b = R.TIM_CTRL then s.judgeAt
  else if b = R.TIM_FRC_SRC then s.showFrc
  else if b = R.TIM_SNAP_CTRL then (if sc.testBit 0 then s.snap else s)
  else if b = R.TIM_MCLK_CFG then
    -- the wait for the first markers begins as EN is set (R80)
    if ¬ v.toNat.testBit 31 then ({ s with tim := { s.tim with mGood := 0, mLast := none } }.put F.TIM_MCLK_STAT_LOCK 0).putQual 2 false
    else if old.toNat.testBit 31 then s else { s with tim := { s.tim with mGoodAt := s.tim.frc } }
  else if b = R.TIM_TDd_CTRL 0 ∧ i < 2 then
    let s1 := if en != old.toNat.testBit 0 then s.domEnable i en else s
    let s2 := (s1.domForce i (v.toNat.testBit 20)).showFrc
    let s3 := if sc.testBit 21 then s2.asymApply i else s2
    if sc.testBit 22 then s3.stepAccept i else s3
  else if b = R.TIM_TDd_CTRL 2 then (if i = 1 then s.putQual 3 en else s)
  else if b = R.TIM_TDd_ASYM 0 then (if 1000 * 65536 < (sx 32 v.toNat).natAbs then s.unchecked 7 else s)
  else if b = R.TIM_TCMPu_CTRL 0 then
    if sc.testBit 8 then s.armTcmp i else if sc.testBit 9 then s.disarmTcmp i else s
  else if b = R.TIM_TOUTt_CTRL 0 then
    if sc.testBit 0 then s.startTout i else if sc.testBit 1 then s.stopTout i else s
  else s

/-- Effects of the enables (R146, R148, R186), and of POLL_EN, from which on ROM checks are due (R156). In LOAD the enables an image sets wait for its end. -/
def State.enableEffect (s : State) (load : Bool) (b i : Nat) (old v : Word) : State :=
  let now := v.toNat.testBit 0
  if b = R.SID_CTRL ∧ v.toNat.testBit 1 ∧ ¬ old.toNat.testBit 1 then
    { s with sid := s.sid.map fun (e : Nat × Sid) => (e.1, { e.2 with due := max e.2.due s.tick }) }
  else if now == old.toNat.testBit 0 then s
  else if b = R.AFS_GRPg_CFG 0 then (if now then s.grpOn i else s.grpOff i)
  else if load then s
  else if b = R.CH_AFE_CTRL 0 then (if now then s.fastWantOn i else s.fastWantOff i)
  else if b = R.CH_SIN_CFG 256 then (if now then s.slowOn (256 + i) else s.slowOff (256 + i))
  else s

/-- A write of CH_AFE_CTRL that changes SRD_K or a range field starts the range logic of the channel afresh (R101). -/
def State.rangeEffect (s : State) (b i : Nat) (old v : Word) : State :=
  if b = R.CH_AFE_CTRL 0 ∧ (old ^^^ v) &&& 0x73332#32 ≠ 0 then s.updRange i fun k => { k with reinit := true } else s

/-- Effects of the source and interlock commands (R118, R229). -/
def State.trgEffect (s : State) (load : Bool) (b i sc : Nat) : State :=
  if b = R.TRG_SRCq_CTRL 0 then
    let c : Option CoreCmd := if sc.testBit 0 then some (.srcArm i) else if sc.testBit 1 then some (.srcDisarm i) else none
    match c with
    | some c => if load then s.applyCmd s.tick c else s.armAt (s.armTick 0) c
    | none => s
  else if b = R.AFF_ILK_CTRL then s.put F.AFF_ILK_CTRL_REARM (s.get F.AFF_ILK_CTRL_REARM ||| sc)
  else s

/-- Effects in the other blocks. SPARE_MAN set in a slot of rolling trim discards the slot and pauses the bank (R376); any other write of the bank's
control while the spare is rolling trim's is case 6 of R434 (log 60). Rolling trim runs only while RT_EN is set (R365). -/
def State.restEffect (s : State) (b i sc : Nat) : State :=
  if b = R.AFF_BANKb_CTRL 0 then
    (if s.get (F.AFF_BANKb_STAT_SPARE_STATE i) = 1 ∧ ¬ s.on (F.AFF_BANKb_CTRL_SPARE_MAN i) then s.unchecked 6 else s).parkSpare i
  else if b = R.CAL_CTRL then (if s.on F.CAL_CTRL_RT_EN then s else s.rtStop)
  else if b = R.SID_CTRL then (if sc.testBit 0 then s.wbAll else s)
  else if b = R.CH_SID_CFG 256 then s.lifeCheck (256 + i)
  else if b = R.CH_SIN_POLYk_IDX 256 0 ∨ b = R.CH_SIN_POLYk_C 256 0 then s.updEn (256 + i) fun e => { e with polyNew := true }
  else if b = R.FLT_SYNC_CTRL then
    if sc.testBit 0 then s.syncArm else if sc.testBit 1 then s.syncDisarm else s
  else if b = R.HST_WINd_CTRL 0 then
    let s1 := if sc.testBit 0 then s.readWindow i else s
    if sc.testBit 1 then s1.cancelWindow i else s1
  else if b = R.CMP_JOBj_CTRL 0 then
    let s1 := if sc.testBit 8 then s.jobStart i else s
    if sc.testBit 9 then s1.jobAbort i else s1
  else if b = R.CAL_FZ_CTRL then
    let s1 := if sc.testBit 0 then s.fzStart else s
    if sc.testBit 1 then s1.fzClear (s1.get F.CAL_FZ_CTRL_CH) else s1
  else if b = R.STK_CMD then
    if sc.testBit 0 && s.stk.deputy then { s with stk := { s.stk with resume := true } } else s
  else s

/-! Commands that the hub may refuse as a whole. -/

/-- A scheduled warm reset (R42, R48): 100 ms after the write; one that is scheduled already stays. The life
counters are to be written back (R163). -/
def State.warmReset (s : State) (svc : Bool) (slot : Nat) : State :=
  let s1 := { s with sys := { s.sys with resetAt := some (match s.sys.resetAt with | some t => min t (s.tick + 200000) | none => s.tick + 200000) } }
  s1.wbAll.event Ev.WARM_RESET (evSource 0 0) [.h (srcBit svc), .h slot]

/-- An action after another, where both are accepted. -/
def thenDo (o : Option State) (on : Bool) (f : State → Option State) : Option State := if on then o.bind f else o

/-- A write of SYS_CTRL, RED_CMD, UPD_CMD, UPD_KEY or NSP_KEY (R429). A write that sets nothing does nothing; one action
refused refuses the whole. None of them is open to an image (log 27). -/
def State.command (s : State) (load svc : Bool) (slot a : Nat) (v : Word) : Option Wrote :=
  let n := v.toNat
  let done (o : Option State) (status : Nat) : Wrote := match o with | some t => (none, t) | none => s.refuse a status
  if a = R.SYS_CTRL then
    if n % 8 = 0 then some (none, s)
    else if load then some (s.refuse a St.ACCESS)
    else
      let t := if n.testBit 0 then s.trimRequest else (s, none)
      match t.2 with
      | some true => some (s.refuse a St.BUSY)
      | some false => some (some St.MODE, s)
      | none =>
        let s1 := if n.testBit 1 then t.1.warmReset svc slot else t.1
        some (none, if n.testBit 2 then s1.shutdown else s1)
  else if a = R.RED_CMD then
    if n % 4 = 0 then some (none, s)
    else if load then some (s.refuse a St.ACCESS)
    else some (done (thenDo (thenDo (some s) (n.testBit 0) State.redSwap) (n.testBit 1) State.redRestart) St.ACCESS)
  else if a = R.UPD_CMD then
    if n % 4 = 0 then some (none, s)
    else if load then some (s.refuse a St.ACCESS)
    else some (done (thenDo (thenDo (some s) (n.testBit 0) State.updConfirm) (n.testBit 1) State.updCancel) St.ACCESS)
  else if a = R.UPD_KEY ∨ a = R.NSP_KEY then
    let mask : BitVec 4 := BitVec.ofNat 4 (n / 256)
    if mask = 0 then some (none, s)
    else if load then some (s.refuse a St.ACCESS)
    else if a = R.UPD_KEY then some (done (s.revokeImage mask) St.RANGE)
    else some (done ((s.revokeHmac mask).map State.endRevoked) St.RANGE)
  else none

/-! Groups of words (R428). -/

/-- What a complete group takes effect as. -/
def State.groupEffect (s : State) (lo : Nat) : State :=
  match rowAt lo with
  | some r =>
    if r.base = R.TIM_TDd_OFS0 0 then
      s.setOffset (r.ix lo 0) (s.rd64 lo + (s.rd (lo + 8)).toNat * 2 ^ 64)
    else if r.base = R.TIM_TDd_RATE_LO 0 then s.setTd3 (s.rd64 lo % 2 ^ 40)
    else s
  | none => s

/-- A word of a group written: the lower ones are held until the highest comes, with which all take effect (R428). -/
def State.writeGroup (s : State) (lo n a : Nat) (v : Word) : State :=
  if a < lo + 4 * (n - 1) then { s with held := s.held.set a v }
  else
    let lower := (List.range (n - 1)).map (fun i => lo + 4 * i)
    let s1 := lower.foldl (fun (s : State) b => match s.held.look b with | some w => s.wr b w | none => s) (s.wr a v)
    ({ s1 with held := lower.foldl (fun (h : Tab Word) b => h.drop b) s1.held }).groupEffect lo

/-! Privilege (R429). -/

/-- The privileged fields of a register (R429). -/
def privMask (a : Nat) : Nat :=
  if a = R.SYS_CTRL then 6
  else if a = R.RED_CMD ∨ a = R.UPD_CMD then 3
  else if a = R.UPD_KEY ∨ a = R.NSP_KEY then 0xF00
  else 0

/-- Whether a value written to an address sets a privileged field. -/
def setsPriv (a : Nat) (v : Word) : Bool := v.toNat &&& privMask a != 0

/-! One register written. -/

/-- The fields of a per-channel register that R430 marks RUN-safe. -/
def runSafe (b : Nat) : Word := if b = R.CH_AFE_CTRL 0 ∨ b = R.CH_SIN_CFG 256 ∨ b = R.CH_CAL_CFG 0 then 1 else 0

/-- Whether the enable bit of the channel that a per-channel address belongs to reads 1 (R430). -/
def State.chanEnabled (s : State) (a : Nat) : Bool :=
  let ch := (a - 0x100000) / 0x800
  if ch < 192 then s.on (F.CH_AFE_CTRL_EN ch) else s.on (F.CH_SIN_CFG_EN ch)

/-- Case 8 of R434: a field that is not RUN-safe is written while its channel's enable bit is 1, whatever its value. In a register that also
holds a RUN-safe field a write that leaves the others as they are is one of that field (log 6). -/
def State.case8 (s : State) (b a : Nat) (old v : Word) : Bool :=
  decide (0x100000 ≤ a) && s.chanEnabled a && (runSafe b == 0 || ((old ^^^ v) &&& ~~~(runSafe b)) != 0)

/-- The word a write leaves in a register: RW and LO fields stored, RW1C bits cleared, the rest kept (R6, R427). -/
def RegRow.result (r : RegRow) (old v : Word) : Word :=
  let m := wd (r.rw ||| r.lo)
  ((old &&& ~~~m) ||| (v &&& m)) &&& ~~~(v &&& wd r.w1c)

/-- What a stream's bucket holds is settled before its RATE or BURST changes (R287). -/
def State.settleBucket (s : State) (b m : Nat) : State :=
  if b = R.NSP_STRm_RATE 0 ∨ b = R.NSP_STRm_BURST 0 then s.updStream m fun st => { st with tokens := s.tokensNow m, lastFill := s.tick } else s

/-- A write to an implemented register with a field that can be written, its groups and commands aside. What depends on other registers is not judged
in LOAD (R460), nor does a spare move there. The spec does not say when an SC action is accepted but for REARM: the hub accepts each within the write,
and the bit reads 0 again at once, also where the action itself comes later (log 46). What a write does by itself it does in its own tick; a
field that the hardware only reads is read with its new value from the next tick on (R429, log 46). -/
def State.writeField (s : State) (load : Bool) (r : RegRow) (a : Nat) (v : Word) : Wrote :=
  let b := r.base
  let i := r.ix a 0
  let old := s.rd a
  let new := r.result old v
  let sc := v.toNat &&& r.sc
  if badValue b new || bothOf b v then s.refuse a St.ACCESS
  else if !load && (s.badChan b a i old new || s.badSrc b i old new sc || s.badTimAct b i sc || s.badBank b i || s.badPool b new) then s.refuse a St.ACCESS
  else if !load && needsJournal b a old new && s.journalFull then (some St.BUSY, s.journalRefuse (refusedFlag (ownerBlock a)))
  else if !load && b == R.CH_AFE_CTRL 0 && new.toNat.testBit 0 && !(old.toNat.testBit 0) && !(decide (s.budget + (s.wr a new).chanCost i ≤ 333 * 256)) then
    (some St.ACCESS, (s.refuse a St.ACCESS).2.flag F.FLT_ALERT_BUDGET)
  else
    let s0 := s.settleBucket b i
    let s1 := if !load && s0.case8 b a old new then s0.unchecked 8 else s0
    let s2 := if r.w1c = 0 then s1.storeWord b a old new else s1.wr a new
    let s3 := (((s2.timEffect b i old new sc).rangeEffect b i old new).enableEffect load b i old new).trgEffect load b i sc
    (none, if load && b == R.AFF_BANKb_CTRL 0 then s3 else s3.restEffect b i sc)

/-- Whether TIM_TD0 to TD2's rate registers or another all-RO register lies at an address (R58, R427). -/
def readOnly (r : RegRow) (a : Nat) : Bool :=
  (r.rw ||| r.w1c ||| r.sc ||| r.lo) == 0
    || ((r.base == R.TIM_TDd_RATE_LO 0 || r.base == R.TIM_TDd_RATE_HI 0) && r.ix a 0 != 3)

/-- A write to a register address (R6, R426 to R431): `load` for an entry of an image, `svc` and `slot` for the source
of a privileged write. -/
def State.writeReg (s : State) (load svc : Bool) (slot a : Nat) (v : Word) : Wrote :=
  match rowAt a with
  | none => s.refuse a St.ACCESS
  | some r =>
    match s.command load svc slot a v with
    | some w => w
    | none =>
      if s.jobBusy r.base (r.ix a 0) (s.rd a) (r.result (s.rd a) v) (v.toNat &&& r.sc) then s.refuse a St.BUSY
      else if readOnly r a then s.refuse a St.ACCESS
      else if r.lo ≠ 0 ∧ ¬ load then (none, s.unchecked 1)
      else
        match groupOf a with
        | some (lo, n) =>
          if !load && decide (r.base = R.TIM_TDd_OFS0 0 ∨ r.base = R.TIM_TDd_OFS1 0 ∨ r.base = R.TIM_TDd_OFS2 0) && decide (r.ix a 0 < 2)
              && decide ((s.dom (r.ix a 0)).state ≠ .off) then s.refuse a St.ACCESS
          else (none, s.writeGroup lo n a (r.result (s.rd a) v))
        | none => s.writeField load r a v

/-! Commands that write one register. -/

/-- SPARE_MAN_PARK (R111, R122): a write of AFF_BANKb_CTRL. Case 6 of R434 may arise. -/
def execSpareManPark (bank : Nat) (value : Word) (s : State) : Host.Outcome State Fault Refusal :=
  if 8 ≤ bank ∨ ¬ (s.running ∨ s.sys.mode = .trim) then .next s
  else (s.writeReg false false 0 (R.AFF_BANKb_CTRL bank) value).2.finish

/-- TRG_CONDITION_WRITE (R244, R461): a write of TRG_CNDc_CFG, A, B or D, by `reg` 0 to 3. -/
def execTrgConditionWrite (c reg : Nat) (value : Word) (s : State) : Host.Outcome State Fault Refusal :=
  if 64 ≤ c ∨ 4 ≤ reg ∨ ¬ (s.running ∨ s.sys.mode = .trim) then .next s
  else (s.writeReg false false 0 (R.TRG_CNDc_CFG c + 4 * reg) value).2.finish

/-- REGISTER_WRITE (R429): a write of one register in TRIM, RUN or LIMP, without a session. An address that R426 answers with ERR_RANGE
is not written, nor is a value that sets a privileged field. Cases 1, 5, 6, 7 and 8 of R434 may arise. -/
def execRegisterWrite (addr : Nat) (value : Word) (s : State) : Host.Outcome State Fault Refusal :=
  if ¬ (s.running ∨ s.sys.mode = .trim) ∨ addr % 4 ≠ 0 ∨ 0x200000 ≤ addr ∨ (0xF0000 ≤ addr ∧ addr < 0x100000) ∨ setsPriv addr value then .next s
  else (s.writeReg false false 0 addr value).2.finish

end Sys2Proof.Machine
end

