-- ==== Sys2Proof/Machine/Load.lean ====
section
/-! DEFINITION. Load.lean: resets and LOAD (R42 to R49, R55, R72, R277, R363, R386, R394 to R397, R445, R460). The LOAD
steps of R396 are taken at once as LOAD begins; LOAD_END is a command of its own. -/
namespace Sys2Proof.Machine

/-! What belongs to the part, shown again (R42, R110, R119, R151, R219, R273, R306, R353). -/

/-- The banks as the failures of the part leave them: a spare in service stays on its input (R110). -/
def Part.banks (p : Part) : Tab BankSt :=
  (p.spares.filter (fun e => !p.slices.contains (spareSlice e.1))).foldl (fun (t : Tab BankSt) e => t.set e.1 { input := some e.2, standing := true }) []

/-- The substitutions and losses of the part as the journal begins with them (R106). -/
def Part.journal (p : Part) : List JEnt :=
  p.lostCh.map (fun ch => (⟨0, ch, none⟩ : JEnt))
    ++ (p.spares.filter (fun e => !p.slices.contains (spareSlice e.1))).map (fun e => (⟨0, 24 * e.1 + e.2, some (spareSlice e.1)⟩ : JEnt))

/-- Spares of class `c` in use (R18). -/
def Part.spareUsed (p : Part) : Nat → Nat
  | 0 => p.spares.length
  | 1 => p.convOf.length
  | 3 => p.linkOos.length
  | 4 => ([0, 1].filter (fun x => p.lanes.any (fun e => e.1 == x))).length
  | 5 => p.rowsUsed
  | 6 => (p.sramUsed.map (·.2)).sum
  | 7 => p.nvmOk.countP (fun b => !b)
  | 8 => p.logSpare.sum
  | 9 => p.domSpare
  | _ => 0

/-- A bank's status registers as the part has it (R122). -/
def State.showBank (s : State) (b : Nat) : State :=
  let p := s.part
  let failed := p.slices.filter (fun i => i / 25 == b)
  let input := (p.spares.find? (fun e => e.1 == b)).map (·.2)
  let dead := p.slices.contains (spareSlice b)
  let s1 := if dead then s.showSpare b 3 input else if input.isSome then s.showSpare b 2 input else s
  (s1.put (F.AFF_BANKb_STAT_FAILED b) failed.length).put (F.AFF_BANKb_FAIL_SLICE b) ((failed.map (fun i => 2 ^ (i % 25))).sum)

/-- A stack port's lanes that are out of service (R306). -/
def State.showLanes (s : State) (x : Nat) : State :=
  s.put (F.STK_PORTx_STAT_FAILED x) (((s.part.lanes.filter (fun e => e.1 == x)).map (fun e => 2 ^ e.2)).sum)

/-- The registers that show what the part has lost and used, after a reset. -/
def State.showPart (s : State) : State :=
  let p := s.part
  let s1 := (List.range 10).foldl (fun (s : State) c =>
    (s.put (F.SYS_SPAREc_USED c) (p.spareUsed c)).put (F.SYS_SPAREc_EXH c) (b2n (p.limp.toNat.testBit c))) (s.wr R.SYS_LIMP (wd p.limp.toNat))
  let s2 := (List.range 8).foldl (fun (s : State) b => s.showBank b) s1
  let mask (l : List Nat) : Nat := (((List.range 8).filter (fun b => l.contains b)).map (2 ^ ·)).sum
  let s3 := (s2.put F.AFF_STAT_SPARE_USED (mask ((p.spares.filter (fun e => !p.slices.contains (spareSlice e.1))).map (·.1)))).put F.AFF_STAT_BANK_LOST (mask (p.lostCh.map (· / 24)))
  let s4 := (s3.showSpares).put F.AFS_CONV_FAIL_CONV ((p.convs.map (2 ^ ·)).sum)
  let s5 := p.convOf.foldl (fun (s : State) (e : Nat × Nat) => s.put (F.AFS_GRPg_STAT_CONV e.1) e.2) s4
  let s6 := p.linkOos.foldl (fun (s : State) x => (s.put (if x = 0 then F.NSP_STAT_OOS_A else F.NSP_STAT_OOS_B) 1).put (F.NSP_UPx_STAT_OOS x) 1) s5
  (([0, 1].foldl (fun (s : State) x => s.showLanes x) s6).put F.HST_DRAM_PPR_USED p.rowsUsed)

/-- The roles with which LOAD begins: every core in BIST but a retired one (R331, R353). -/
def Part.roleOf (p : Part) (c : CoreId) : Role := if p.retired.contains c then .retired else .bist

/-! Resets (R42, R48, R55, R277, R445). -/

/-- What a cold reset leaves: the part with its flashes, and a flash operation cut short (R55, R416). The rest is as after
power-up. -/
def State.coldState (s : State) (porst : Bool) : State :=
  let c := s.nvmCut
  { pending := c.pending, part := c.part
    sys := { mode := c.sys.mode, prev := c.sys.prev, chg := c.sys.chg, porst := porst, pos := c.sys.pos, svcAddr := c.sys.svcAddr, freeCtr := c.sys.freeCtr
             jtag := c.sys.jtag }
    pwr := { low := c.pwr.low, okTicks := c.pwr.okTicks }
    fe := { banks := c.part.banks, journal := c.part.journal }
    red := { roleA := c.part.roleOf .a, roleB := c.part.roleOf .b }
    net := { out := c.net.out } }

/-- The hub enters LOAD (R42): logged with its cause where it was in another mode (R43). -/
def State.toLoad (s : State) (cause : Nat) : State :=
  if s.sys.mode = .load then s else s.overrule.setMode .load cause

/-- The log areas read (R409, R417): LOG_SEQ shows the SEQ of the last record held. -/
def State.readLog (s : State) : State :=
  let s1 := s.loadLog
  if s1.log.next = 0 then s1 else s1.wr R.LOG_SEQ (wd (s1.log.next - 1))

/-- A cold reset (R42, R445): LOAD, all outputs safe, and nothing kept but the part. -/
def State.coldReset (s : State) (porst : Bool) (cause : Nat) : State :=
  ((s.coldState porst).readLog).toLoad cause

/-- PORST_ASSERT (R42, R445): PORST_N falls for at least 200 ticks. -/
def execPorstAssert (s : State) : Host.Outcome State Fault Refusal := .next (s.coldReset true 0)

/-- The work in hand as a warm reset comes (R48, R49, R339): the live streams close at their last complete record, the flashes
come to rest, sessions and the lock they hold end, and the spans of the gaps to come are noted. -/
def State.warmBegin (s : State) : State :=
  let s1 := s.haltStreams
  let trim := match s.cutTrim with | some g => some g | none => s.sys.gapTrim
  let s2 := s1.nvmRest
  s2.endSessions.rtStop |> fun (t : State) => { t with sys := { t.sys with
    gapTrim := trim
    gapHold := if s.sys.mode = .hold then s.red.holdAt else s.sys.gapHold
    gapReset := if s.live then some s.tick else s.sys.gapReset } }

/-- What a warm reset leaves (R44, R48, R56, R72, R277, R416): the DRAM, STREAM and the sequences, AT and the views, staging, the
RAW ring, the safety net and what AUX holds. Descriptors, jobs, sessions and every register go (R428). -/
def State.warmState (s : State) : State :=
  { pending := s.pending, part := s.part, tick := s.tick, log := { s.log with noted := false }, dram := s.dram, net8 := s.net8, netTick := s.netTick
    nvmq := s.nvmq
    sys := { mode := s.sys.mode, prev := s.sys.prev, chg := s.sys.chg, porst := false, pos := s.sys.pos, svcAddr := s.sys.svcAddr, cold := false
             gapReset := s.sys.gapReset, gapTrim := s.sys.gapTrim, gapHold := s.sys.gapHold, eccRows := s.sys.eccRows
             restarts := s.sys.restarts, freeCtr := s.sys.freeCtr, jtag := s.sys.jtag, waitFrom := 0 }
    pwr := s.pwr
    tim := { frc := s.tim.frc, views := s.tim.views, atVal := s.tim.atVal, atRate := s.atBase, atSet := s.tim.atSet, srcHist := s.tim.srcHist
             rxClk := s.tim.rxClk, sinceRelease := s.tim.frc }
    fe := { banks := s.fe.banks.foldl (fun (t : Tab BankSt) (e : Nat × BankSt) =>
              if e.2.gradual.isEmpty then t else t.upd {} e.1 fun k => { k with gradual := e.2.gradual }) s.part.banks
            journal := s.fe.journal }
    slow := { grp := s.slow.grp.map fun (e : Nat × Grp) => (e.1, { exc := e.2.exc }), aux := s.slow.aux, ident := s.slow.ident }
    red := { roleA := s.part.roleOf .a, roleB := s.part.roleOf .b, failsA := s.red.failsA, failsB := s.red.failsB }
    cal := { hist := s.cal.hist }
    hist := { ring := s.hist.ring, wr := s.hist.wr, dedup := s.hist.dedup }
    net := { streams := s.net.streams.map fun (e : Nat × Stream) => (e.1, { e.2 with placed := [] }), formed := s.net.formed
             sendq := s.net.sendq.map fun (e : Nat × List (Nat × Nat)) => (e.1, e.2.filter fun x => x.1 != fwdStream)
             links := s.net.links.map fun (e : Nat × Link) => (e.1, { e.2 with up := false, downAt := s.tick, tested := false }), out := s.net.out }
    stk := { unacked := s.stk.unacked, poolMem := s.stk.poolMem } }

/-! The image's register-load entries (R386). -/

/-- What the application of an image has done so far: the state, and for every register written the section and index of the last
entry that wrote it. -/
structure Loading where
  /-- the hub -/
  s : State
  /-- address, section, entry index, newest first -/
  wrote : List (Nat × Nat × Nat) := []

/-- The words of an image's sections of a type, in the order of the section table. -/
def imageSections (h body : List Byte) (type : Nat) : List (List Word) :=
  (List.range (hdrSects h)).filterMap fun i =>
    let e := hdrSect h i
    if e.1 = type then some (bytesWords (cut body e.2.1 e.2.2)) else none

/-- Register-load entries: the first word and the values. -/
def parseEntries : Nat → List Word → List (Word × List Word)
  | n + 1, w :: r => let c := w.toNat / 2 ^ 24 + 1; (w, r.take c) :: parseEntries n (r.drop c)
  | _, _ => []

/-- Whether a section may write an address (R385). -/
def sectionAllows (sec a : Nat) : Bool :=
  match sec with
  | 2 => decide (a < 0xF0000)
  | 3 => decide (0x100000 ≤ a) && decide (a < 0x200000)
  | 4 => match rowAt a with | some r => r.base == R.CH_SIN_POLYk_IDX 256 0 || r.base == R.CH_SIN_POLYk_C 256 0 | none => false
  | 6 => a / 0x10000 == 10
  | 7 => a / 0x10000 == 9 || a / 0x10000 == 1
  | _ => false

/-- A refusal that the image meets (R386, R460). -/
def State.entryRefused (s : State) (sec idx : Nat) : State :=
  (s.flag F.UPD_ALERT_ENTRY_REFUSED).event Ev.IMG_ENTRY (evSource 13 0) [.h sec, .h idx]

/-- One value of an entry (R386). -/
def Loading.value (l : Loading) (sec idx a : Nat) (v : Word) : Loading :=
  if ¬ sectionAllows sec a then { l with s := (l.s.refuse a St.ACCESS).2.entryRefused sec idx }
  else
    match l.s.writeReg true false 0 a v with
    | (none, t) => { s := t, wrote := (a, sec, idx) :: l.wrote }
    | (some _, t) => { l with s := t.entryRefused sec idx }

/-- The values of an entry, to ascending addresses. -/
def Loading.values (l : Loading) (sec idx a : Nat) : List Word → Loading
  | [] => l
  | v :: r => (l.value sec idx a v).values sec idx (a + 4) r

/-- One entry (R386): one whose address is not a multiple of 4 is refused as a whole. -/
def Loading.entry (l : Loading) (sec idx : Nat) (e : Word × List Word) : Loading :=
  let a := e.1.toNat % 2 ^ 22
  if a % 4 ≠ 0 then { l with s := l.s.entryRefused sec idx } else l.values sec idx a e.2

/-- The entries of a section. -/
def Loading.entries (l : Loading) (sec : Nat) (idx : Nat) : List (Word × List Word) → Loading
  | [] => l
  | e :: r => (l.entry sec idx e).entries sec (idx + 1) r

/-- Every section of a type applied; `skip` words come before its entries. -/
def Loading.sections (l : Loading) (h body : List Byte) (sec skip : Nat) : Loading :=
  l.entries sec 0 ((imageSections h body sec).flatMap fun ws => parseEntries ws.length (ws.drop skip))

/-! Checks after the image is applied (R217, R281, R318, R460). -/

/-- The entry that last wrote a register. -/
def Loading.last (l : Loading) (a : Nat) : Option (Nat × Nat) := (l.wrote.find? (fun e => e.1 == a)).map (·.2)

/-- A condition of R460 broken on a register that an entry wrote: the action, and the entry named. -/
def Loading.judge (l : Loading) (a : Nat) (broken : Bool) (act : State → State) : Loading :=
  match l.last a with
  | some e => if broken then { l with s := (act l.s).entryRefused e.1 e.2 } else l
  | none => l

/-- A register returned to its reset value. -/
def State.wrReset (s : State) (a : Nat) : State := s.wr a (resetWord a)

/-- Whether stream `m` has a multicast destination (R284): 224.0.0.0/4, or ff00::/8. -/
def State.multicast (s : State) (m : Nat) : Bool :=
  let d := (s.rd (R.NSP_STRm_DST0 m)).toNat
  if s.on (F.NSP_STRm_CFG_V6 m) then d / 2 ^ 24 == 0xFF else d / 2 ^ 28 == 0xE

/-- The enabled fast channels switched off from the highest down until the costs fit the budget (R191, R460). -/
def Loading.fitBudget (l : Loading) : List Nat → Loading
  | [] => l
  | ch :: r =>
    if l.s.budget ≤ 333 * 256 then l
    else (l.judge (R.CH_AFE_CTRL ch) (l.s.on (F.CH_AFE_CTRL_EN ch)) fun s => s.put (F.CH_AFE_CTRL_EN ch) 0).fitBudget r

/-- The checks of R460 in the order of its table, and after them the other two refusals that depend on another register, of which the table says
nothing: the window pool (R269) and the control of a spare that substitutes or has failed (R111) return to their reset values (log 27). -/
def Loading.checks (l : Loading) : Loading :=
  let l1 := (List.range 16).foldl (fun (l : Loading) q =>
    l.judge (R.TRG_SRCq_PRE q) (decide (l.s.rawTicks < (l.s.rd (R.TRG_SRCq_PRE q)).toNat)) fun s => s.wrReset (R.TRG_SRCq_PRE q)) l
  let l2 := (List.range 16).foldl (fun (l : Loading) q =>
    l.judge (R.TRG_SRCq_TGT q) (!l.s.streamReadout (l.s.get (F.TRG_SRCq_TGT_STREAM q))) fun s => s.wrReset (R.TRG_SRCq_TGT q)) l1
  let l3 := (List.range 16).foldl (fun (l : Loading) m =>
    l.judge (R.NSP_STRm_CFG m) (l.s.ackSet m && l.s.multicast m) fun s => s.put (F.NSP_STRm_CFG_ACK m) 0) l2
  let l4 := (List.range 16).foldl (fun (l : Loading) g =>
    let ch := 256 + 16 * g + 15
    l.judge (R.CH_SIN_CFG ch) (l.s.on (F.CH_SIN_CFG_EN ch) && !l.s.slowEnOk ch) fun s => s.wrReset (R.CH_SIN_CFG ch)) l3
  let l5 := (List.range 192).foldl (fun (l : Loading) ch =>
    l.judge (R.CH_FLT_CFG ch) (l.s.on (F.CH_FLT_CFG_SKEW_EN ch) && l.s.srdK ch != 0) fun s => s.put (F.CH_FLT_CFG_SKEW_EN ch) 0) l4
  let l6 := (List.range 192).foldl (fun (l : Loading) ch =>
    l.judge (R.CH_AFE_CTRL ch) (l.s.on (F.CH_AFE_CTRL_EN ch) && !l.s.phaseOk ch) fun s => s.put (F.CH_AFE_CTRL_EN ch) 0) l5
  let l7 := l6.fitBudget (List.range 192).reverse
  let l8 := l7.judge R.CMP_WIN_POOL (l7.s.badPool R.CMP_WIN_POOL (l7.s.rd R.CMP_WIN_POOL)) fun s => s.wrReset R.CMP_WIN_POOL
  (List.range 8).foldl (fun (l : Loading) b => l.judge (R.AFF_BANKb_CTRL b) (l.s.badBank (R.AFF_BANKb_CTRL 0) b) fun s => s.wrReset (R.AFF_BANKb_CTRL b)) l8

/-- HST_REGIONS (R217): a setting that is not accepted leaves the defaults of R16. -/
def State.checkRegions (s : State) : State :=
  let raw := s.get F.HST_REGIONS_RAW
  let str := s.get F.HST_REGIONS_STREAM
  let aux := s.get F.HST_REGIONS_AUX
  let job := s.get F.HST_REGIONS_JOB
  if 47 ≤ raw ∧ raw ≤ 58 ∧ 4 ≤ str ∧ 1 ≤ aux ∧ 1 ≤ job ∧ raw + str + aux + job = 64 then s
  else
    let v := (s.rd R.HST_REGIONS).toNat
    ((s.wrReset R.HST_REGIONS).flag F.HST_ALERT_CFG_REFUSED).event Ev.HST_CFG (evSource 7 0) [.h v]

/-- The rings of the streams (R281): where their sum exceeds STREAM, stream 0 has the whole region. -/
def State.checkRings (s : State) : State :=
  let whole := s.get F.HST_REGIONS_STREAM * 16
  if ((List.range 16).map fun m => s.get (F.NSP_STRm_SPACE_UNITS m)).sum ≤ whole then s
  else
    let s1 := (List.range 16).foldl (fun (s : State) m => s.put (F.NSP_STRm_SPACE_UNITS m) (if m = 0 then whole else 0)) s
    s1.flag F.NSP_ALERT_CFG_REFUSED

/-- The history pool (R318): what the hub lends leaves it at least 2 units, and the neighbour it borrows from lends. -/
def State.checkPool (s : State) : State :=
  let lent := s.get F.STK_POOL_LEND_N + s.get F.STK_POOL_LEND_S
  let b := s.get F.STK_POOL_BORROW
  let got := if b = 0 then 0 else Config.neighbourLends (b - 1) % 256
  if lent = 0 ∧ b = 0 then s
  else if s.get F.HST_REGIONS_RAW < lent + 2 ∨ (b ≠ 0 ∧ got = 0) then
    (s.flag F.STK_ALERT_POOL_LOST).event Ev.POOL_LOST (evSource 10 0) [.h got, .t s.tick]
  else ({ s with stk := { s.stk with poolOn := true } }.put F.STK_POOL_STAT_BORROWED got).put F.STK_POOL_STAT_LENT lent

/-! The first coefficient set (R208, R357, R358, R385). -/

/-- Two signed 16-bit fields of a word. -/
def unpack16 (w : Word) : List Int := [sx 16 w.toNat, sx 16 (w.toNat / 2 ^ 16)]

/-- The slice that a designator of REC_COEF names (R208). -/
def designatedSlice (d : Nat) : Nat := if d < 192 then ownSlice d else spareSlice (d - 192)

/-- The TRIM_DEFAULTS section (R385): entries of kinds 1 and 2, then the field-zero parts. Tap parts are not applied (R358). -/
def trimDefaults : Nat → List Word → CoefSet → CoefSet
  | n + 1, w :: r, c =>
    if r.length < 192 then { c with fz := (w :: r).zipIdx.foldl (fun (t : Tab Int) (e : Word × Nat) => if e.1 = 0 then t else t.set e.2 (sx 24 e.1.toNat)) c.fz }
    else if w.toNat / 2 ^ 28 = 1 then
      let o := (r.take 2).flatMap unpack16
      let g := ((r.drop 2).take 4).map fun x => sx 24 x.toNat
      let mu := sx 16 ((r.drop 6).headD 0).toNat
      trimDefaults n (r.drop 7) { c with slices := c.slices.set (designatedSlice (w.toNat % 512)) { o := o, g := g, mu := mu } }
    else if w.toNat / 2 ^ 28 = 2 then
      let o := (r.take 4).flatMap unpack16
      let g := ((r.drop 4).take 8).map fun x => sx 24 x.toNat
      trimDefaults n (r.drop 12) { c with convs := c.convs.set (w.toNat % 32) { o := o, g := g } }
    else c
  | _, _, c => c

/-- The set formed from the image (R208): origin 0, serial 1, DIGITAL. -/
def imageSet (h body : List Byte) : CoefSet :=
  (imageSections h body 5).foldl (fun (c : CoefSet) ws => trimDefaults ws.length ws c) { serial := 1 }

/-- The polynomials join the set as LOAD ends (R144, R157). -/
def State.loadPolys (s : State) : State :=
  let polys := (List.range 256).foldl (fun (t : Tab (List (Word × Word))) i =>
    let p := s.polyChosen (256 + i)
    if p.isEmpty then t else t.set (256 + i) p) []
  { s with
    cal := { s.cal with cur := { s.cal.cur with polys := polys }, due := [] }
    slow := { s.slow with en := s.slow.en.map fun (e : Nat × SlowEn) => (e.1, { e.2 with polyNew := false }) } }

/-! The choice of image (R394, R395). -/

/-- Slots in the order in which they are tried. -/
def State.bootOrder (s : State) : List Nat :=
  match s.topRec with
  | none => [0, 1]
  | some b => let x := brSlot b; if brTrial b && brTries b == 3 then [1 - x, x] else [x, 1 - x]

/-- The image of a slot that LOAD may boot: valid, and named by the record where the record is the slot's. -/
def State.bootable (s : State) (slot : Nat) : Option (List Byte × List Byte × List Byte × List (Nat × Nat)) :=
  match s.slotImage slot, s.topRec with
  | some i, some b => if brSlot b = slot ∧ ¬ brNames b i.1 then none else some i
  | o, _ => o

/-- Slot and image that LOAD boots; none sends the hub to DORMANT. -/
def State.bootChoice (s : State) : Option (Nat × List Byte × List Byte) :=
  s.bootOrder.findSome? fun slot => (s.bootable slot).map fun i => (slot, i.1, i.2.2.1)

/-- EV_BOOT (R405). What is told apart as its cause (the codes are open, log 29): 0 the slot the record names, 1 the other slot because that
one was invalid, 2 no record. -/
def State.noteBoot (s : State) (slot : Nat) (trial : Bool) (tries cause : Nat) : State :=
  s.event Ev.BOOT (evSource 13 slot) [.h slot, .h (b2n trial), .h tries, .h (Config.eventCode Ev.BOOT cause)]

/-- The running image as UPD shows it. -/
def State.running1 (s : State) (slot : Nat) (h : List Byte) (trial : Bool) (tries : Nat) : State :=
  ({ s with upd := { runHdr := h, runSlot := slot, trial := trial } }).put F.UPD_STAT_TRIES tries

/-- A record that names the slot CONFIRMED is written, and the burns of R390 follow it. -/
def State.bootConfirmed (s : State) (slot flags : Nat) (h : List Byte) : State :=
  let w := s.writeBootRec slot false 0 flags h
  { w.2 with upd := { w.2.upd with burnTo := hdrArb h } }

/-- The boot record and the event of a choice (R395), and the anti-rollback burns left short (R390). -/
def State.bootSlot (s : State) (slot : Nat) (h : List Byte) : State :=
  match s.topRec with
  | none => ((s.running1 slot h false 0).bootConfirmed slot 0 h).noteBoot slot false 0 2
  | some b =>
    let due := brTrial b && brTries b == 3
    let mine := brSlot b == slot
    if mine && !due then
      if brTrial b then
        let t := brTries b + 1
        (((s.running1 slot h true t).writeBootRec slot true t 0 h).2).noteBoot slot true t 0
      else ((s.running1 slot h false 0).burnArb (hdrArb h)).noteBoot slot false 0 0
    else if mine then
      (((((s.running1 slot h false 0).bootConfirmed slot 2 h).flag F.UPD_ALERT_NO_FALLBACK).put F.UPD_STAT_FORCED 1).event
        Ev.UPD_NO_FALLBACK (evSource 13 slot) [.h slot])
    else if due then
      (((((s.running1 slot h false 0).bootConfirmed slot 1 h).flag F.UPD_ALERT_FALLBACK).put F.UPD_STAT_FALLBACK 1).event
        Ev.UPD_FALLBACK (evSource 13 slot) [.h (brSlot b), .h slot, .h (brTries b)])
    else ((s.running1 slot h false 0).bootConfirmed slot 0 h).noteBoot slot false 0 1

/-! The LOAD steps (R396). -/

/-- Where the body is staged in DRAM (R396). -/
def imageStage : Nat := 0x3FF000000

/-- The body staged in DRAM: LOAD overwrites the top 16 MiB of JOB whole (R267, R396), and what lies there behind the body is open. -/
def State.stage (s : State) (body : List Byte) : State :=
  let d := s.draw
  { d.2 with dram := Mem.write 0 s.dram imageStage (body ++ freeBytes d.1 (2 ^ 24 - body.length)) }

/-- Where an entry of the queues goes as the streams' ports are set afresh (R289): what no port has sent yet to every port of its stream, the rest where
it waited of them. -/
def State.requeueTo (s : State) (old : Tab (List (Nat × Nat))) (e : Nat × Nat) : List Nat :=
  match s.dgram e.1 e.2 with
  | none => []
  | some d => if d.sent then (s.portsFor e.1).filter fun p => (old.val [] p).contains e else s.portsFor e.1

/-- The datagrams that wait put on the ports that the streams have now, in the order in which they were closed (R288, R289); those that their
ring no longer holds go. -/
def State.requeue (s : State) : State :=
  let old := s.net.sendq
  let all := ((old.flatMap (·.2)).foldl (fun (l : List (Nat × Nat)) e => if l.contains e then l else s.insertSend e l) [])
  { s with net := { s.net with sendq := [0, 1, stknPort].map fun p => (p, all.filter fun e => (s.requeueTo old e).contains p) } }

/-- Enables, ports and parked spares that the image has set take hold (R148, R289, R366). -/
def State.settleImage (s : State) : State :=
  let s1 := s.slowEnabled.foldl (fun (s : State) ch => s.updEn ch fun e => { e with pend := some true }) s
  let s2 := (List.range 16).foldl (fun (s : State) m => s.updStream m fun st => { st with
    port := if s.get F.NSP_CTRL_MODE = 2 then s.get F.NSP_CTRL_PREF else s.get (F.NSP_STRm_CFG_PORT m) }) s1
  let s3 := if s2.get F.NSP_CTRL_MODE = 2 then s2.put F.NSP_STAT_ACTIVE (s2.get F.NSP_CTRL_PREF) else s2
  (List.range 8).foldl (fun (s : State) b => if s.on (F.AFF_BANKb_CTRL_SPARE_MAN b) then s.parkSpare b else s) s3

/-- An image applied: its body staged, its sections loaded in the order of R386, then judged. A region or ring whose place has
changed since before a warm reset no longer holds what it held. -/
def State.applyImage (s : State) (h body : List Byte) (old : State) : State :=
  let l0 : Loading := { s := { s.stage body with cal := { s.cal with cur := imageSet h body } } }
  let l := ((((l0.sections h body 2 0).sections h body 3 0).sections h body 4 0).sections h body 6 0).sections h body 7 1
  let wait := (((imageSections h body 7).headD []).headD 0).toNat
  let s1 := (l.s.checkRegions).checkPool.checkRings
  let s2 := (Loading.checks { l with s := s1 }).s
  let s3 := (s2.put F.UPD_LOAD_WAIT (if wait ≤ 600 then wait else 0)).settleImage
  let moved := s3.rd R.HST_REGIONS != old.rd R.HST_REGIONS || s3.rawTicks != old.rawTicks
  let s4 := if moved then { s3 with hist := { s3.hist with ring := [], wr := 0 } } else s3
  ((List.range 16).foldl (fun (s : State) m =>
    if s.ringCap m = old.ringCap m ∧ s.rd R.HST_REGIONS = old.rd R.HST_REGIONS then s
    else s.updStream m fun st => { st with ring := [], rel := st.seq }) s4).requeue

/-- BOOT counts a LOAD that does not follow a warm reset, and is kept in the flashes (R277, R383). -/
def State.countBoot (s : State) : State :=
  if s.sys.cold then ({ s with part := { s.part with boot := (s.part.boot + 1) % 65536 } }).writeLife else s

/-- VOUT_MODE read of both core regulators (R443): what a regulator answers is a free value (log 44). -/
def State.readVoutMode (s : State) : State :=
  let a := s.draw
  let b := a.2.draw
  { b.2 with pwr := { b.2.pwr with modeA := Config.freeNat a.1 % 256, modeB := Config.freeNat b.1 % 256 } }

/-- The LOAD steps from the OTP read to the register load (R363, R382, R394 to R396). `old` is the hub before the reset. -/
def State.loadSteps (s : State) (cause : Nat) (old : State) : State :=
  let s1 := (s.readSfdp.readLife.resumeClear.showPart).put F.SYS_RESET_CAUSE_CAUSE cause
  let s2 := if s1.part.refOk then s1 else (s1.flag F.CAL_ALERT_REF_OTP).event Ev.REF_OTP (evSource 12 0) []
  let s3 := { s2.countBoot with sys := { s2.sys with load := .running, steward := true } }
  let s4 := match s3.topRec with | some b => s3.wr R.UPD_BOOTREC (wd (brSeq b)) | none => s3
  let fr := s4.draw
  let s5 := (fr.2.put F.UPD_NVM_MHZ (Config.freeNat fr.1 % 134)).readVoutMode
  match s5.bootChoice with
  | none =>
    let s6 := if s5.sys.cold then s5 else s5.stage []
    { s6 with sys := { s6.sys with load := .noImage } }
  | some (slot, h, body) => (s5.bootSlot slot h).applyImage h body old

/-- The hub leaves reset (R44, R444): the FRC starts at 0 and the LOAD steps are taken. What the log areas told when PORST_N fell still shows. -/
def State.release (s : State) : State :=
  let c := s.coldState false
  let s1 := { c with log := s.log }
  let s2 := s1.readLog
  (if s.on F.LOG_ALERT_TORN then s2.flag F.LOG_ALERT_TORN else s2).loadSteps 0 s1

/-- Whether every supply has stood above its resume level for 20,000 ticks (R444). -/
def State.suppliesStand (s : State) : Bool := s.pwr.low.isEmpty && decide (20000 ≤ s.pwr.okTicks)

/-- PORST_RELEASE (R303, R444, R445): the straps are latched. The hub leaves reset; where its supplies have not stood for 20,000 ticks, its own
comparators hold it there until they have. -/
def execPorstRelease (pos : BitVec 4) (svcAddr : BitVec 2) (s : State) : Host.Outcome State Fault Refusal :=
  if ¬ s.sys.porst ∨ s.sys.relHeld then .next s
  else
    let s1 := { s with sys := { s.sys with pos := pos.toNat, svcAddr := svcAddr.toNat } }
    if s.suppliesStand then s1.release.finish else .next { s1 with sys := { s1.sys with relHeld := true } }

/-- A brown-out (R55): the hub resets and goes through LOAD again; `rows` are the rows of R50 that fell below their reset level. -/
def State.brownout (s : State) (rows : Nat) : State :=
  let s1 := (s.coldReset false 1).event Ev.BROWNOUT (evSource 0 0) []
  (s1.loadSteps 1 s1).put F.SYS_RESET_CAUSE_SUPPLY rows

/-- BROWNOUT_RESET (R55): a supply other than a core's falls below its reset level. -/
def execBrownoutReset (rows : BitVec 8) (s : State) : Host.Outcome State Fault Refusal :=
  if s.sys.porst then .next s else (s.brownout rows.toNat).finish

/-- A warm reset (R42, R48). -/
def State.warm (s : State) (cause : Nat) : State := (((s.warmBegin.warmState).readLog).toLoad cause).loadSteps cause s

/-- Whether a scheduled reset is due. -/
def State.resetDue (s : State) (upd : Bool) : Bool :=
  !s.sys.porst && s.sys.updReset == upd && (match s.sys.resetAt with | some t => decide (t ≤ s.tick) | none => false)

/-- SYS_WARM_RESET (R42): a privileged write of SYS_CTRL.WARM_RESET. None is served in LOAD (R292). -/
def execSysWarmReset (svc : Bool) (keySlot : Nat) (s : State) : Host.Outcome State Fault Refusal :=
  if s.sys.porst ∨ s.sys.mode = .load then .next s else .next (s.warmReset svc keySlot)

/-- WARM_RESET_EXECUTE (R42, R48). -/
def execWarmResetExecute (s : State) : Host.Outcome State Fault Refusal :=
  if s.resetDue false then (s.warm 2).finish else .next s

/-- UPDATE_RESET (R42): the reset that ends an update in DORMANT. -/
def execUpdateReset (s : State) : Host.Outcome State Fault Refusal :=
  if s.resetDue true then (s.warm 3).finish else .next s

/-! The end of LOAD (R33, R44, R72). -/

/-- An instant kept as a tick number, where ticks are numbered anew. -/
def renumber (old new t : Nat) : Nat := t + new - old

/-- Ticks numbered from AT on (R33): what waits on the count of ticks keeps its distance from now. -/
def State.renumberTicks (s : State) (new : Nat) : State :=
  let r := renumber s.tick new
  { s with
    tick := new
    log := { s.log with openAt := s.log.openAt.map r, staged := s.log.staged.map fun k => { k with closedAt := k.closedAt.map r } }
    sys := { s.sys with
      resetAt := s.sys.resetAt.map r, shut := s.sys.shut.map r, restarts := s.sys.restarts.map r
      eccRows := s.sys.eccRows.map fun e => (e.1, e.2.1, r e.2.2) }
    pwr := { s.pwr with bracing := s.pwr.bracing.map r, dipFrom := s.pwr.dipFrom.map r, lastLow := r s.pwr.lastLow, hotFrom := s.pwr.hotFrom.map r }
    net := { s.net with
      links := [0, 1].foldl (fun (t : Tab Link) x => t.upd {} x fun l => { l with downAt := r l.downAt }) s.net.links
      streams := s.net.streams.map fun (e : Nat × Stream) => (e.1, { e.2 with lastFill := r e.2.lastFill }) }
    tim := { s.tim with doms := s.tim.doms.map fun (e : Nat × Dom) =>
      (e.1, { e.2 with lastMsg := r e.2.lastMsg, qualSince := e.2.qualSince.map r, qualAt := e.2.qualAt.map r, solo := e.2.solo.map r }) }
    stk := { s.stk with ports := s.stk.ports.map fun (e : Nat × StkPort) =>
      (e.1, { e.2 with lowFrom := e.2.lowFrom.map fun (l : Nat × Nat) => (l.1, r l.2) }) }
    red := { s.red with
      sinceA := r s.red.sinceA, sinceB := r s.red.sinceB, failsA := s.red.failsA.map r, failsB := s.red.failsB.map r
      noCoreAt := s.red.noCoreAt.map r, bumpEnd := s.red.bumpEnd.map r }
    sid := s.sid.map fun (e : Nat × Sid) => (e.1, { e.2 with due := r e.2.due, retryFrom := r e.2.retryFrom }) }

/-- AT, the domain it follows and AT_SRC as LOAD ends (R72). Of two stepped ACQUIRING domains the preferred one comes first
(log 54). A member that the clock bus has set keeps the bus AT (R312). -/
def State.loadAt (s : State) : Int × Option Nat × Nat :=
  let p := s.atPref
  let moving (d : Nat) : Bool := (s.dom d).state == .acquiring && (s.dom d).stepped
  let val (d : Nat) : Int := (s.view d).val
  if s.onBus ∧ s.stk.frameTick.isSome then (s.tim.atVal, none, s.stk.frameSrc)
  else if s.qualified p then (val p, some p, p + 1)
  else if s.qualified (1 - p) then (val (1 - p), some (1 - p), 2 - p)
  else if moving p then (val p, some p, 3)
  else if moving (1 - p) then (val (1 - p), some (1 - p), 3)
  else if s.tim.atSet then (s.tim.atVal, none, 0)
  else ((ts96Units (s.rd64 R.TIM_AT_INIT0 + (s.rd R.TIM_AT_INIT2).toNat * 2 ^ 64) : Int) * 2 ^ 48, none, 0)

/-- AT set (R72), and ticks numbered by it. -/
def State.setAt (s : State) : State :=
  let k := s.loadAt
  let s1 := { s with tim := { s.tim with atVal := k.1, follow := k.2.1, atSet := true, atSrc := k.2.2, slewing := false, decide := none } }
  let new := (tickOf s1.atUnits).1
  let s2 := s1.renumberTicks new
  (({ s2 with tim := { s2.tim with srcHist := (new, k.2.2) :: s2.tim.srcHist } }).put F.TIM_STAT_AT_SRC k.2.2).put F.TIM_STAT_AT_FOLLOW (k.2.1.getD 0)

/-- LOAD ends (R42, R44, R331): the cores take their roles, the first coefficient set is in force, AT is set, and the hub is on its way to
TRIM. What AT follows from the next frame boundary on is then judged by AT_MODE (R73). -/
def State.endLoad (s : State) : State :=
  let s1 := s.loadCores.setAt
  ({ s1 with
    sys := { s1.sys with load := .done, loadEnd := s1.tick }
    cal := { s1.cal with hist := (s1.tick, s1.cal.cur) :: s1.cal.hist } }).judgeAt

/-- Whether the lock wait is over (R44). -/
def State.waitOver (s : State) : Bool :=
  s.qualified 0 || s.qualified 1 || decide (s.sys.waitFrom + s.get F.UPD_LOAD_WAIT * Config.second ≤ s.tick)

/-- Milliseconds of this LOAD (R406); the spec states no rounding, and a part of a millisecond may count as one. -/
def State.loadMs (s : State) : Nat :=
  let u := s.tim.frc - s.tim.sinceRelease
  let ms := 1000000 * 65536
  u / ms + (if u % ms = 0 then 0 else Config.freeRound u % 2)

/-- LOAD_END (R44, R72, R157, R396, R397): the work of LOAD is done, with every slow input checked and read. Without an image the hub enters
DORMANT; with a lock wait it waits. -/
def execLoadEnd (s : State) : Host.Outcome State Fault Refusal :=
  if s.sys.porst ∨ s.sys.mode ≠ .load then .next s
  else
    match s.sys.load with
    | .noImage => .next ((s.loadCores.setAt.put F.UPD_LOAD_MS s.loadMs).setMode .dormant 0x10)
    | .running =>
      if ¬ s.idLoaded then .next s
      else
      let s1 := (s.loadPolys).put F.UPD_LOAD_MS s.loadMs
      let s2 := { s1 with sys := { s1.sys with waitFrom := s1.tick } }
      .next (if s2.waitOver then s2.endLoad else { s2 with sys := { s2.sys with load := .waitingLock } })
    | _ => .next s

/-- LOCK_WAIT_END (R44). -/
def execLockWaitEnd (s : State) : Host.Outcome State Fault Refusal :=
  if s.sys.mode = .load ∧ s.sys.load = .waitingLock ∧ s.waitOver then .next s.endLoad else .next s

end Sys2Proof.Machine
end

