-- ==== Sys2Proof/Machine/Clock.lean ====
section
/-! DEFINITION. Clock.lean: what happens at a tick whatever is commanded (R5, R32, R56, R84, R85, R155, R161, R431): the
step takes one tick on an empty queue (log 2). -/
namespace Sys2Proof.Machine

/-- The FRC increment of the next tick: to the tick boundary of AT once AT is set, 500 ns before that (R32). -/
def State.tickInc (s : State) : Nat :=
  if s.tim.atSet then s.incFor (((s.tick + 1) * 500 * 2 ^ 64 : Nat) : Int) else 500 * 2 ^ 16

/-- PPS_OUT in a tick (R85): it rises at an AT second only, and stays high for WIDTH ms while EN is set; low in LOAD and DORMANT (R45). -/
def State.ppsTick (s : State) : State :=
  let into := s.tick % Config.second
  let lvl := s.live && s.on F.TIM_PPS_CFG_EN && decide (into < s.get F.TIM_PPS_CFG_WIDTH * 2000) && (into == 0 || s.tim.pps)
  { s with tim := { s.tim with pps := lvl } }

/-- The place of a marker in its tick as the status shows it, once per frame (R80). -/
def State.phaseTick (s : State) : State :=
  if s.tick % Config.frame = 0 then s.put F.TIM_MCLK_STAT_PHASE s.tim.mPhase else s

/-- Whether the hub drives PPS_OUT, TOUT0 to 3, ALERT_N, REPLACE_N, HOLD_N and the chip selects of the flashes: under PORST_N they are of high
impedance (R445). -/
def State.driven (s : State) : Bool := !s.sys.porst

/-- The level of PPS_OUT at the ball, none where it is of high impedance (R445). -/
def State.ppsPin (s : State) : Option Bool := if s.driven then some s.tim.pps else none

/-- The level of a timing output at the ball (R84, R88): POL inverts it; low in LOAD and DORMANT (R45), of high impedance under PORST_N (R445). -/
def State.toutPin (s : State) (t : Nat) : Option Bool :=
  if ¬ s.driven then none else some (s.live && ((s.tim.tout.val {} t).level != s.on (F.TIM_TOUTt_CTRL_POL t)))

/-- The chip select of a flash at the ball, active low: driven from the release of PORST_N on, and low while an operation is under way (R445, log 44). -/
def State.nvmSelectPin (s : State) (f : Nat) : Option Bool := if s.driven then some (!(s.nvmq.any fun o => o.flash == f)) else none

/-- A write-back of the life counters becomes due every 6 h (R163). -/
def State.lifeDue (s : State) : State :=
  if s.live ∧ s.sys.loadEnd < s.tick ∧ (s.tick - s.sys.loadEnd) % 43200000000 = 0 then
    { s with sid := s.sid.map fun (e : Nat × Sid) => (e.1, { e.2 with wbDue := e.2.wbDue || s.tracked e.1 }) }
  else s

/-- A member's tick number at a marked frame boundary is the one that FRAME named for it (R312), once what it slews away is gone. -/
def State.busNumber (s : State) : State :=
  if s.tick % Config.frame ≠ 0 ∨ ¬ s.stk.frameNew then s
  else
    let s1 := { s with stk := { s.stk with frameNew := false } }
    match s.stk.frameTick with
    | some f => if s.onBus ∧ s.stk.busResid = 0 ∧ f ≠ s.tick then { s1 with tick := f, tim := { s1.tim with atVal := ((f * 500 * 2 ^ 64 : Nat) : Int) } } else s1
    | none => s1

/-- A tick in which every supply stands above its resume level (R444), counted up to 20,000. -/
def State.countSupplies (s : State) : State :=
  { s with pwr := { s.pwr with okTicks := if s.pwr.low.isEmpty then min 20000 (s.pwr.okTicks + 1) else 0 } }

/-- One tick passes (log 2). While the hub is held in reset only its supply comparators run. -/
def State.tickClock (s' : State) : State :=
  let s := s'.countSupplies
  if s.sys.porst then s
  else
    let s0 := { s.advance s.tickInc with tick := s.tick + 1 }
    let s1 := ({ s0 with sys := { s0.sys with wrote := [] } }).busNumber
    let s2 := { s1 with sys := { s1.sys with alert := s.alertNow } }
    let s3 := (List.range 4).foldl (fun (s : State) t => s.toutTick s2.tick t) s2
    (((s3.ppsTick.phaseTick.slewCheck).lifeTick s.tick).lifeDue).idTick

/-- What a step does with no command waiting: a tick passes, and a hub whose own comparators alone hold it in reset leaves it once its supplies
have stood (R444). -/
def State.idleStep (s : State) : Host.Outcome State Fault Refusal :=
  let t := s.tickClock
  if t.sys.porst && t.sys.relHeld && t.suppliesStand then t.release.finish else .next t

end Sys2Proof.Machine
end

