-- ==== Sys2Proof/Machine/Mgmt.lean ====
section
/-! DEFINITION. Mgmt.lean: the management channel (R291 to R299): who is served when, and the operations of R292. -/
namespace Sys2Proof.Machine

/-! Serving (R286, R291, R292). -/

/-- Whether the ringmaster passes a request on (R323): it names a member of a funnelled troupe. -/
def State.passesOn (s : State) (r : Req) : Bool :=
  s.leads && s.get F.STK_CTRL_FUNNEL != 0 && (s.stk.ports.val {} 1).up && r.stream != 15 && !r.svc
    && (List.range (s.get F.STK_STAT_SIZE)).any (fun p => decide (s.sys.pos < p) && s.memberId p == r.hubId)

/-- The position of the member that a request names. -/
def State.memberPos (s : State) (r : Req) : Nat :=
  ((List.range (s.get F.STK_STAT_SIZE)).find? (fun p => decide (s.sys.pos < p) && s.memberId p == r.hubId)).getD 15

/-- What a request meets in the hub (R275, R286, R291, R292): none is answered in LOAD; one for another hub is passed on or
counted; one that the steward serves waits for no restart; a kept response is sent again; outside the operation's modes the
answer is ERR_MODE. Otherwise `f` gives the answer, or none where none is due now. -/
def State.serve (s : State) (typ : Nat) (r : Req) (steward allowed : Bool) (f : State → State × Option Ans) : State :=
  if s.sys.porst ∨ (¬ r.svc ∧ ¬ s.portReady r.port) then s
  else if ¬ s.names r then
    if s.passesOn r then
      if s.sys.mode = .load then s else
      s.stkSend 1 { seq := r.seq } { kind := 8, cls := kindClass 8, dest := s.memberPos r }
        (bytesWords (reqHeader typ r ++ beBytes 4 (crc32cWords r.words) ++ wordBytes r.words))
    else s.countUp F.NSP_MGMT_CNT_DROPPED
  else if s.sys.mode = .load ∨ (steward ∧ ¬ s.sys.steward) then s
  else
    match s.kept typ r with
    | some k => s.sendResp r.svc { k with port := r.port }
    | none =>
      if ¬ allowed then (s.ans St.MODE).reply typ r
      else
        match f s with
        | (t, none) => t
        | (_, some a) => a.reply typ r

/-- An answer that is sent at once. -/
def Ans.now (a : Ans) : State × Option Ans := (a.s, some a)

/-! READ and WRITE (R292, R293, R426, R429). -/

/-- Whether a range of `n` words at an address touches what R426 answers with ERR_RANGE. -/
def badRange (a n : Nat) : Bool :=
  a % 4 != 0 || decide (0x200000 < a + 4 * n) || (decide (a < 0x100000) && decide (0xF0000 < a + 4 * n))

/-- What READ answers (R292): 1 to 256 words. -/
def State.readAns (s : State) (r : Req) : Ans :=
  match r.words with
  | [a, c] =>
    let n := c.toNat % 512
    if n = 0 ∨ 256 < n ∨ badRange a.toNat n then s.ans St.RANGE
    else
      let v := s.readRegs a.toNat n
      v.2.ok v.1
  | _ => s.ans St.FORMAT

/-- READ as served. -/
def State.opRead (s : State) (r : Req) : State := s.serve 0x10 r true true fun s => (s.readAns r).now

/-- Values at ascending addresses, with `f` asked of each. -/
def eachValue (a : Nat) (vs : List Word) : List (Nat × Word) := vs.zipIdx.map fun (e : Word × Nat) => (a + 4 * e.2, e.1)

/-- Values stored at ascending addresses until the first refusal (R293): how many were written, and the refusal's status. -/
def State.writeSeq (s : State) (svc : Bool) (slot a k : Nat) : List Word → Nat × Option Nat × State
  | [] => (k, none, s)
  | v :: vs =>
    match s.writeReg false svc slot a v with
    | (none, t) => t.writeSeq svc slot (a + 4) (k + 1) vs
    | (some st, t) => (k, some st, t)

/-- Whether an address accepts timed writes (R293): AFF_ILK_CTRL or TRG_SRCq_CTRL. -/
def timedAddr (a : Nat) : Bool :=
  a == R.AFF_ILK_CTRL || (match rowAt a with | some row => row.base == R.TRG_SRCq_CTRL 0 | none => false)

/-- A timed WRITE (R293): held until its tick. -/
def State.timedAns (s : State) (tick a : Nat) (vs : List Word) : Ans :=
  match vs with
  | [v] =>
    if ¬ timedAddr a ∨ tick ≤ s.tick + 2 then s.ans St.RANGE
    else if bothOf (match rowAt a with | some row => row.base | none => a) v then (s.refuse a St.ACCESS).2.ans St.ACCESS
    else if 64 ≤ s.net.timed.length then s.ans St.BUSY
    else if s.journalFull then (s.journalRefuse (refusedFlag (ownerBlock a))).ans St.BUSY
    else ({ s with net := { s.net with timed := s.net.timed ++ [(tick, a, v)] } }).ok
  | _ => s.ans St.RANGE

/-- A WRITE that may be made: at once or timed. -/
def State.doWrite (s : State) (r : Req) (slot a : Nat) (vs : List Word) : Ans :=
  if r.firstTick ≠ 0 then s.timedAns r.firstTick a vs
  else
    match s.writeSeq r.svc slot a 0 vs with
    | (_, none, t) => t.ok
    | (k, some st, t) => t.ans st k

/-- The key slot of a session. -/
def State.slotOfSession (s : State) (id : Word) : Nat := ((s.net.sessions.find? (fun k => k.id == id)).map (·.slot)).getD 0

/-- What WRITE answers (R292, R293, R429): a write of 1 to a privileged field needs a trailer and is open in HOLD and DORMANT
too, where nothing else may be written with it (log 27). -/
def State.writeAns (s : State) (r : Req) : Ans :=
  match r.words with
  | a :: c :: rest =>
    let n := c.toNat
    let a := a.toNat
    let vs := rest.take n
    let es := eachValue a vs
    let priv := es.any (fun e => setsPriv e.1 e.2)
    let open1 := (s.sys.mode == .hold || s.sys.mode == .dormant) && es.all (fun e => setsPriv e.1 e.2 && !(e.1 == R.SYS_CTRL && e.2.toNat.testBit 0))
    if n = 0 ∨ (rest.length ≠ n ∧ rest.length ≠ n + 6) then s.ans St.FORMAT
    else if ¬ s.liveMode ∧ ¬ open1 then s.ans St.MODE
    else if badRange a n then s.ans St.RANGE
    else if priv then
      match s.authTrailer 0x11 (2 + n) r with
      | .inr t => t.ans St.AUTH
      | .inl t => t.doWrite r (s.slotOfSession (trailerId (2 + n) r)) a vs
    else if rest.length ≠ n then s.ans St.FORMAT
    else s.doWrite r 0 a vs
  | _ => s.ans St.FORMAT

/-- WRITE as served. -/
def State.opWrite (s : State) (r : Req) : State := s.serve 0x11 r true true fun s => (s.writeAns r).now

/-- A held write takes effect (R118, R229, R293): a re-arm is judged in this tick; the fields of a source are stored where they
change, and its ARM or DISARM acts. -/
def State.timedEffect (s : State) (e : Nat × Nat × Word) : State :=
  let a := e.2.1
  let v := e.2.2
  if s.journalFull then s.journalRefuse (refusedFlag (ownerBlock a))
  else if a = R.AFF_ILK_CTRL then s.rearm (BitVec.ofNat 16 (F.AFF_ILK_CTRL_REARM.ofWord v)) true
  else
    match rowAt a with
    | some row =>
      let q := row.ix a 0
      let fields := v &&& ~~~3#32
      let s1 := if row.result (s.rd a) fields = s.rd a then s else (s.writeReg false false 0 a fields).2
      let t := max s1.coreSoon e.1
      if v.toNat.testBit 0 then s1.armAt t (.srcArm q) else if v.toNat.testBit 1 then s1.armAt t (.srcDisarm q) else s1
    | none => s

/-- TIMED_WRITE_EFFECT (R293): the held writes whose tick has come. -/
def execTimedWriteEffect (s : State) : Host.Outcome State Fault Refusal :=
  if ¬ s.live then .next s
  else
    let due := s.net.timed.filter (fun e => decide (e.1 ≤ s.tick))
    let s1 := { s with net := { s.net with timed := s.net.timed.filter (fun e => decide (s.tick < e.1)) } }
    (due.foldl (fun (s : State) e => s.timedEffect e) s1).finish

/-- READ (R292): register contents, or the status of R426. -/
def execRead (r : Req) (s : State) : Host.Outcome State Fault Refusal := .next (s.opRead r)

/-- WRITE (R292, R293). Cases 1, 5, 6, 7 and 8 of R434 may arise. -/
def execWrite (r : Req) (s : State) : Host.Outcome State Fault Refusal := (s.opWrite r).finish

/-! BLOCK_READ (R294). -/

/-- The largest BLOCK_READ length in bytes (R294): the MTU is that of the receiving port, 1,500 in DORMANT (R272). A request that came
through the ringmaster takes UPA's setting (log 30). -/
def State.blockMax (s : State) (r : Req) : Nat :=
  if r.svc then 4092
  else
    let mtu := if s.sys.mode = .dormant then 1500 else s.get (F.NSP_UPx_CFG_MTU (if r.port = 1 then 1 else 0))
    min (s.get F.NSP_DGRAM_PAYLOAD - 4) (mtu - (if r.v6 then 80 else 60)) / 4 * 4

/-- Bytes from a region of DRAM, ERR_RANGE beyond its end. -/
def State.regionAns (s : State) (base size off n : Nat) : Ans :=
  if size < off + n then s.ans St.RANGE else s.ok (bytesWords (Mem.bytes 0 s.dram (base + off) n))

/-- Bytes of a region whose layout the spec does not give: free (log 8). -/
def State.freeAns (s : State) (size off n : Nat) : Ans :=
  if size < off + n then s.ans St.RANGE
  else
    let d := s.draw
    d.2.ok (bytesWords (freeBytes d.1 n))

/-- Bytes of a sensor's template (R159): pages of 32 bytes. What has not been read of the sensor is free (log 8). -/
def State.tedsAns (s : State) (w1 n : Nat) : Ans :=
  let ch := w1 % 512
  let off := w1 / 2 ^ 16 % 256 * 32
  if ch < 256 ∨ 256 < off + n then s.ans St.RANGE
  else
    let tm := (s.sid.val {} ch).tmpl
    let d := s.draw
    let st := if off + n ≤ tm.length then s else d.2
    st.ok (bytesWords ((cut tm off n) ++ freeBytes d.1 (n - (cut tm off n).length)))

/-- What BLOCK_READ answers (R292, R294). -/
def State.blockAns (s : State) (r : Req) : Ans :=
  match r.words with
  | [w0, w1, w2, w3] =>
    let n := w3.toNat
    let off := w1.toNat + w2.toNat * 2 ^ 32
    if n % 4 ≠ 0 ∨ s.blockMax r < n then s.ans St.RANGE (s.blockMax r)
    else
      match w0.toNat % 16 with
      | 0 => s.regionAns 0 s.rawBytes off n
      | 1 => s.freeAns (s.get F.HST_REGIONS_STREAM * 2 ^ 28) off n
      | 2 => s.freeAns (s.get F.HST_REGIONS_AUX * 2 ^ 28) off n
      | 3 => s.regionAns s.jobBase s.jobBytes off n
      | 4 => s.tedsAns w1.toNat n
      | _ => s.ans St.RANGE
  | _ => s.ans St.FORMAT

/-- BLOCK_READ as served. -/
def State.opBlockRead (s : State) (r : Req) : State := s.serve 0x12 r true true fun s => (s.blockAns r).now

/-- BLOCK_READ (R294). -/
def execBlockRead (r : Req) (s : State) : Host.Outcome State Fault Refusal := .next (s.opBlockRead r)

/-! Sessions and updates. -/

/-- AUTH_CHALLENGE as served. -/
def State.opChallenge (s : State) (r : Req) : State := s.serve 0x20 r true true fun s => (s.challenge r).now

/-- AUTH_CHALLENGE (R296, R298). -/
def execAuthChallenge (r : Req) (s : State) : Host.Outcome State Fault Refusal := .next (s.opChallenge r)

/-- AUTH_RESPONSE as served. -/
def State.opAuthResponse (s : State) (r : Req) : State := s.serve 0x21 r true true fun s => (s.authenticate r).now

/-- AUTH_RESPONSE (R296, R298). -/
def execAuthResponse (r : Req) (s : State) : Host.Outcome State Fault Refusal := .next (s.opAuthResponse r)

/-- A privileged request of `n` payload words before its trailer (any number where none is given): the trailer first, then
the layout (R297). -/
def State.sealed (s : State) (typ : Nat) (n : Option Nat) (r : Req) (f : State → State × Option Ans) : State × Option Ans :=
  let k := r.words.length - 6
  match s.authTrailer typ k r with
  | .inr t => (t.ans St.AUTH).now
  | .inl t => if n.getD k = k then f t else (t.ans St.FORMAT).now

/-- The modes of an update (R292). -/
def State.updMode (s : State) : Bool := s.liveMode || s.sys.mode == .dormant

/-- An update request refused before it is looked at; of UPDATE_BEGIN each refusal is logged (R403, R406). -/
def State.refuseUpd (s : State) (typ : Nat) (r : Req) (status : Nat) : State × Option Ans :=
  (if typ = 0x30 then s.refuseBegin r status else (s.flag F.UPD_ALERT_REFUSED).ans status).now

/-- An update request (R292, R398): its mode, its trailer and its layout, in this order, then `f`. -/
def State.updSealed (s : State) (typ : Nat) (n : Option Nat) (r : Req) (f : State → State × Option Ans) : State × Option Ans :=
  let k := r.words.length - 6
  if ¬ s.updMode then s.refuseUpd typ r St.MODE
  else match s.authTrailer typ k r with
  | .inr t => t.refuseUpd typ r St.AUTH
  | .inl t => if n.getD k = k then f t else t.refuseUpd typ r St.FORMAT

/-- UPDATE_BEGIN as served. -/
def State.opUpdateBegin (s : State) (r : Req) : State :=
  s.serve 0x30 r true true fun s => s.updSealed 0x30 (some 128) r fun s => (s.beginUpdate r).now

/-- UPDATE_BEGIN (R399). -/
def execUpdateBegin (r : Req) (s : State) : Host.Outcome State Fault Refusal := .next (s.opUpdateBegin r)

/-- UPDATE_CHUNK as served. -/
def State.opUpdateChunk (s : State) (r : Req) : State :=
  s.serve 0x31 r true true fun s => s.updSealed 0x31 none r fun s => (s.chunk r).now

/-- UPDATE_CHUNK (R401). -/
def execUpdateChunk (r : Req) (s : State) : Host.Outcome State Fault Refusal := .next (s.opUpdateChunk r)

/-- UPDATE_END as served: the answer may wait for the verification (R402). -/
def State.opUpdateEnd (s : State) (r : Req) : State :=
  s.serve 0x32 r true true fun s => s.updSealed 0x32 (some 1) r fun s => s.endUpdate r

/-- UPDATE_END (R402). -/
def execUpdateEnd (r : Req) (s : State) : Host.Outcome State Fault Refusal := .next (s.opUpdateEnd r)

/-! The event recorder's operations (R420 to R422). -/

/-- The records of an area from the one that LOG_READ names (R420), with whether that is older than the oldest held. SEQ is 32
bits wide; one less than half the range behind the oldest counts as older (log 32). -/
def logFrom (first : Nat) (rs : List LogRec) : List LogRec × Bool :=
  match rs with
  | [] => ([], false)
  | o :: _ =>
    let d := (first + 2 ^ 32 - o.seq) % 2 ^ 32
    if 2 ^ 31 ≤ d then (rs, true)
    else (rs.dropWhile (fun r => decide ((r.seq + 2 ^ 32 - o.seq) % 2 ^ 32 < d)), false)

/-- What LOG_READ answers (R420). An area that holds nothing has 0 for its oldest and newest SEQ (log 32). -/
def State.logReadAns (s : State) (r : Req) : Ans :=
  match r.words with
  | [w0, w1, w2] =>
    let n := w2.toNat % 64
    let area := w0.toNat % 4
    if n = 0 ∨ 44 < n then s.ans St.RANGE
    else if area = 3 then
      let got := (s.part.tombs.drop w1.toNat).take n
      let seqOf (o : Option (BitVec 128)) : Word := wd ((o.map (·.toNat)).getD 0)
      s.ok (wd got.length :: seqOf s.part.tombs.head? :: seqOf s.part.tombs.getLast? :: got.flatMap (fun t => numWords 4 t.toNat))
    else
      let rs := s.logEntries area
      let f := logFrom w1.toNat rs
      let got := f.1.take n
      let seqOf (o : Option LogRec) : Word := wd ((o.map (·.seq)).getD 0)
      { status := if f.2 then 0x60 else St.OK
        words := wd got.length :: seqOf rs.head? :: seqOf rs.getLast? :: got.flatMap (fun e => bytesWords e.bytes)
        s := s }
  | _ => s.ans St.FORMAT

/-- LOG_READ as served. -/
def State.opLogRead (s : State) (r : Req) : State := s.serve 0x40 r true true fun s => (s.logReadAns r).now

/-- LOG_READ (R420). -/
def execLogRead (r : Req) (s : State) : Host.Outcome State Fault Refusal := .next (s.opLogRead r)

/-- A clear begun (R421): EV_LOG_CLEARED takes the next SEQ C and its own carousel page, the fixed area is erased and starts with
it; what is staged with a SEQ above C goes behind it. The record is staged, closed, like every event; where staging is full it has
no slot there (DEDUCED, log 32). -/
def State.beginClear (s : State) (svc : Bool) (slot : Nat) (nonce : List Byte) : Ans :=
  let c := s.log.next
  let room := decide (s.log.staged.length < Config.stagingSlots)
  let rec1 : LogRec := { seq := c, time := s.logTime, code := Ev.LOG_CLEARED, source := evSource 14 (slot % 4 + 4 * srcBit svc), rep := 1, data := nonce, closedAt := some s.tick }
  let car := 16384 + s.part.carNext
  let s0 := if room then s.stageRec rec1 false else { s with log := { s.log with staged := closeOpen s.log s.tick, openAt := none, next := (c + 1) % 2 ^ 32 } }
  let s1 := { s0 with
    log := { s0.log with clear := some { seq := c, step := 2, record := rec1 } }
    part := { s.part with clearSeq := c, fixNext := 0, carNext := (s.part.carNext + 8) % carSlots } }
  (s1.nvmQueue ([0, 1].flatMap (fun f => logOps f .logClear car [rec1] true) ++ clearOps rec1)).ok [wd c]

/-- What LOG_CLEAR answers (R421, R422). -/
def State.logClearAns (s : State) (r : Req) : Ans :=
  match r.words.take 3 with
  | [w0, w1, w2] =>
    if w0 ≠ 0x434C5241#32 then s.ans St.FORMAT
    else if ¬ (s.logTakes 0 || s.logTakes 1) then s.ans 0x62
    else if s.log.clear.isSome then s.ans 0x61
    else s.beginClear r.svc (s.slotOfSession (trailerId 3 r)) (wordBytes [w1, w2])
  | _ => s.ans St.FORMAT

/-- LOG_CLEAR as served. -/
def State.opLogClear (s : State) (r : Req) : State :=
  s.serve 0x41 r true true fun s => s.sealed 0x41 (some 3) r fun s => (s.logClearAns r).now

/-- LOG_CLEAR (R421, R422). -/
def execLogClear (r : Req) (s : State) : Host.Outcome State Fault Refusal := .next (s.opLogClear r)

/-! TRIGGER and SYNC (R182, R226, R295). -/

/-- Whether a tick falls in the full trim in progress. -/
def State.inTrim (s : State) (t : Nat) : Bool :=
  s.sys.mode == .trim && (match s.cal.trimStart with | some f => decide (t < f + Config.trimTicks) | none => true)

/-- A trigger accepted: a copy within 1 s is not acted on again (R295). -/
def State.noteTrigger (s : State) (ident stamp : Nat) : State :=
  let recent := s.hist.dedup.filter (fun e => decide (s.tick ≤ e.2.2 + 2000000))
  { s with hist := { s.hist with dedup := (ident, stamp, s.tick) :: recent } }

/-- What TRIGGER answers (R226, R295, R462). -/
def State.triggerAns (s : State) (r : Req) : Ans :=
  match r.words with
  | [w] =>
    let ident := w.toNat % 256
    let stamp := r.firstTick
    let past := decide (stamp + 1 ≤ s.tick)
    let take := if past then s.tick + 1 else stamp + 2
    if ¬ s.liveMode then (s.refuseTrigger ident stamp).ans St.MODE
    else if s.tick + 7200000000 < stamp then (s.refuseTrigger ident stamp).ans St.RANGE
    else if s.hist.dedup.any (fun e => e.1 == ident && e.2.1 == stamp && decide (s.tick ≤ e.2.2 + 2000000)) then s.ok
    else if s.inTrim take then (s.refuseTrigger ident stamp).ans St.MODE
    else if past then
      if s.journalFull then (s.journalRefuse F.TRG_ALERT_WR_REFUSED).ans St.BUSY
      else ((s.coreEvent take (.trigger ident stamp)).noteTrigger ident stamp).ok
    else if 16 ≤ s.hist.held.length then s.ans St.BUSY
    else if s.journalFull then (s.journalRefuse F.TRG_ALERT_WR_REFUSED).ans St.BUSY
    else (({ s with hist := { s.hist with held := s.hist.held ++ [(ident, stamp)] } }).noteTrigger ident stamp).ok
  | _ => s.ans St.FORMAT

/-- TRIGGER as served: by the transmitter, below the steward (R286). -/
def State.opTrigger (s : State) (r : Req) : State := s.serve 0x50 r false true fun s => (s.triggerAns r).now

/-- TRIGGER (R226, R295). -/
def execTrigger (r : Req) (s : State) : Host.Outcome State Fault Refusal := .next (s.opTrigger r)

/-- What SYNC answers (R182, R295): it waits for its tick, or is refused as late. -/
def State.syncAns (s : State) (r : Req) : Ans :=
  let ts := r.firstTick
  if r.words ≠ [] then s.ans St.FORMAT
  else if ts ≤ s.tick + 2 then ((s.put F.FLT_SYNC_STAT_ERR_LATE 1).flag F.FLT_ALERT_SYNC_LATE).ans St.RANGE
  else if s.journalFull then (s.journalRefuse F.FLT_ALERT_WR_REFUSED).ans St.BUSY
  else ((s.setSyncs (s.hist.syncs ++ [(ts, 18)])).busSync ts).ok

/-- SYNC as served. -/
def State.opSync (s : State) (r : Req) : State := s.serve 0x51 r false s.liveMode fun s => (s.syncAns r).now

/-- SYNC (R182, R295). -/
def execSync (r : Req) (s : State) : Host.Outcome State Fault Refusal := .next (s.opSync r)

/-! NACK and ACK (R282 to R286). -/

/-- The ranges of a NACK: first SEQ and count. -/
def nackRanges : List Word → List (Nat × Nat)
  | a :: b :: r => (a.toNat + b.toNat % 65536 * 2 ^ 32, b.toNat / 65536) :: nackRanges r
  | _ => []

/-- What the ranges of a NACK have come to. -/
structure NackSum where
  /-- outstanding ranges of the hub -/
  retx : List Range
  /-- ranges accepted -/
  accepted : Nat := 0
  /-- parts whose datagrams the ring no longer holds: first SEQ and count -/
  gone : List (Nat × Nat) := []
  /-- a range was out of range -/
  bad : Bool := false
  /-- ranges refused at the limit -/
  refused : Nat := 0

/-- The oldest SEQ that a stream's ring holds. -/
def Stream.oldest (st : Stream) : Nat := ((st.ring.head?).map (·.seq)).getD st.seq

/-- One range taken in (R285): not yet formed, it is refused; what the ring no longer holds is listed; the rest is queued. -/
def NackSum.take (k : NackSum) (st : Stream) (m : Nat) (e : Nat × Nat) : NackSum :=
  let last := e.1 + e.2 - 1
  let from' := max e.1 st.oldest
  if e.2 = 0 ∨ st.seq ≤ last then { k with bad := true }
  else
    let lost := if e.1 < st.oldest then [(e.1, min last (st.oldest - 1) - e.1 + 1)] else []
    let q := if from' ≤ last then addRange { stream := m, next := from', last := last, next1 := from' } k.retx else k.retx
    if 1024 < q.length then { k with refused := k.refused + 1 }
    else { k with retx := q, accepted := k.accepted + 1, gone := k.gone ++ lost }

/-- What NACK answers (R285, R286): word 1 the ranges accepted, then two words for each part that is gone (log 33). -/
def State.nackAns (s : State) (r : Req) : Ans :=
  match r.words with
  | w0 :: rest =>
    let m := w0.toNat % 16
    let n := w0.toNat / 256 % 256
    if n = 0 ∨ 64 < n ∨ rest.length ≠ 2 * n then s.ans St.FORMAT
    else if s.get (F.NSP_STRm_CFG_KIND m) = 0 then s.ans St.RANGE
    else
      let k := (nackRanges rest).foldl (fun (k : NackSum) e => k.take (s.stream m) m e) { retx := s.net.retx }
      let s1 := { s with net := { s.net with retx := k.retx } }
      let s2 := if k.refused = 0 then s1 else (s1.flag F.NSP_ALERT_RETX_FULL).event Ev.RETX_FULL (evSource 9 0) [.h k.refused]
      let words := wd k.accepted :: k.gone.flatMap fun e => [wd e.1, wd (e.1 / 2 ^ 32 % 65536 + e.2 % 65536 * 65536)]
      if k.refused ≠ 0 then { status := St.BUSY, detail := k.accepted, words := words, s := s2 }
      else if k.bad then { status := St.RANGE, words := words, s := s2 }
      else s2.ok words
  | [] => s.ans St.FORMAT

/-- NACK as served: in HOLD too (R286). -/
def State.opNack (s : State) (r : Req) : State := s.serve 0x60 r false s.live fun s => (s.nackAns r).now

/-- NACK (R285). -/
def execNack (r : Req) (s : State) : Host.Outcome State Fault Refusal := .next (s.opNack r)

/-- What ACK answers (R282, R292): nothing where the status is OK. A readout writer that waited for the space goes on
(R284). -/
def State.ackAns (s : State) (r : Req) : State × Option Ans :=
  match r.words with
  | [w0, w1, w2] =>
    let m := w0.toNat % 16
    let q := w1.toNat + w2.toNat % 65536 * 2 ^ 32
    if s.get (F.NSP_STRm_CFG_KIND m) = 0 ∨ (s.stream m).seq ≤ q then (s.ans St.RANGE).now
    else
      let s1 := if s.ackSet m then s.updStream m fun st => { st with rel := max st.rel (q + 1) } else s
      let s2 := if s.get (F.NSP_STRm_CFG_KIND m) = 2 then s1.pumpReadout m else s1
      (if r.svc then { s2 with net := { s2.net with svcState := 0, svcResp := [], svcPos := 0 } } else s2, none)
  | _ => (s.ans St.FORMAT).now

/-- ACK as served. -/
def State.opAck (s : State) (r : Req) : State := s.serve 0x61 r false s.live fun s => s.ackAns r

/-- ACK (R282). -/
def execAck (r : Req) (s : State) : Host.Outcome State Fault Refusal := .next (s.opAck r)

/-! Any request. -/

/-- The operations of R292. -/
def opTypes : List Nat := [0x10, 0x11, 0x12, 0x20, 0x21, 0x30, 0x31, 0x32, 0x40, 0x41, 0x50, 0x51, 0x60, 0x61]

/-- A request of a TYPE that is not known is answered ERR_UNKNOWN (R291). -/
def State.opUnknown (s : State) (typ : Nat) (r : Req) : State := s.serve typ r true true fun s => (s.ans St.UNKNOWN).now

/-- A request by its TYPE. -/
def State.manage (s : State) (typ : Nat) (r : Req) : State :=
  match typ with
  | 0x10 => s.opRead r
  | 0x11 => s.opWrite r
  | 0x12 => s.opBlockRead r
  | 0x20 => s.opChallenge r
  | 0x21 => s.opAuthResponse r
  | 0x30 => s.opUpdateBegin r
  | 0x31 => s.opUpdateChunk r
  | 0x32 => s.opUpdateEnd r
  | 0x40 => s.opLogRead r
  | 0x41 => s.opLogClear r
  | 0x50 => s.opTrigger r
  | 0x51 => s.opSync r
  | 0x60 => s.opNack r
  | 0x61 => s.opAck r
  | _ => s.opUnknown typ r

/-- UNKNOWN_REQUEST (R291): no operation of R292 has this TYPE. One that has is no unknown request and changes nothing here. -/
def execUnknownRequest (type : BitVec 8) (r : Req) (s : State) : Host.Outcome State Fault Refusal :=
  .next (if opTypes.contains type.toNat then s else s.opUnknown type.toNat r)

end Sys2Proof.Machine
end

