-- ==== Sys2Proof/Machine/Service.lean ====
section
/-! DEFINITION. Service.lean: the service port, an I²C target (R300). -/
namespace Sys2Proof.Machine

/-- The port number of the service port among the ports of `Tx`. -/
def svcPort : Nat := 2

/-- Bytes that the service port answers a read with. -/
def State.svcSend (s : State) (bs : List Byte) : State :=
  s.send { port := svcPort, kind := .response, words := bytesWords bs }

/-- The state of the port and the length of the response (R300). -/
def State.svcStatusBytes (s : State) : List Byte := [BitVec.ofNat 8 s.net.svcState, 0] ++ leBytes 2 s.net.svcResp.length

/-- SVC_STATUS (R300): the next read returns 4 bytes. -/
def execSvcStatus (s : State) : Host.Outcome State Fault Refusal := .next (if s.sys.porst then s else s.svcSend s.svcStatusBytes)

/-- A request read from its bytes (R274, R300): its TYPE and content; none where the header is malformed, names another hub or the
CRC fails. -/
def State.svcParse (s : State) (bs : List Byte) : Option (Nat × Req) :=
  let be (a n : Nat) : Nat := beVal (cut bs a n)
  let payload := bs.drop 28
  let hub := be 4 2 / 16
  let stream := be 4 2 % 16
  let whole := decide (28 ≤ bs.length) && decide (bs.length ≤ 4124) && payload.length % 4 == 0
  let head := be 0 2 == 0x4E53 && be 2 1 == 1 && be 20 2 == payload.length && be 22 2 == 0
  let named := stream == 15 || (stream == 0 && hub == s.hubId)
  if whole && head && named && be 24 4 == crc32c payload then
    some (be 3 1, { src := 0, svc := true, port := svcPort, v6 := false, hubId := hub, stream := stream, seq := be 6 6, firstTick := be 12 8, words := bytesWords payload })
  else none

/-- SVC_REQUEST (R300): taken in state IDLE only. A request that cannot be read sets ERROR; another is executed, and the port is BUSY
until its response is there. -/
def execSvcRequest (bytes : List Byte) (s : State) : Host.Outcome State Fault Refusal :=
  if s.sys.porst ∨ s.net.svcState ≠ 0 then .next s
  else
    match s.svcParse bytes with
    | none => .next { s with net := { s.net with svcState := 3 } }
    | some (typ, r) => (({ s with net := { s.net with svcState := 1 } }).manage typ r).finish

/-- SVC_RESPONSE (R300): the response is read from its first byte; a later read without a new command (`read.1`) goes on from where the last
stopped; `read.2` is how many bytes are read. -/
def execSvcResponse (read : Bool × Nat) (s : State) : Host.Outcome State Fault Refusal :=
  if s.sys.porst then .next s
  else
    let start := if read.1 then s.net.svcPos else 0
    let bs := (s.net.svcResp.drop start).take read.2
    .next ({ s with net := { s.net with svcPos := start + bs.length } }.svcSend bs)

/-- SVC_CLEAR (R300): the response is discarded. -/
def execSvcClear (s : State) : Host.Outcome State Fault Refusal :=
  .next (if s.sys.porst then s else { s with net := { s.net with svcState := 0, svcResp := [], svcPos := 0 } })

end Sys2Proof.Machine
end

