-- ==== Sys2Proof/Machine/Supply.lean ====
section
/-! DEFINITION. Supply.lean: a supply reading (R50 to R52, R55) and a missed deadline (R37), which reach the cores, the shared units and
the reset. -/
namespace Sys2Proof.Machine

/-- SUPPLY_WARNING (R50 to R52, R55, R444): a supply reads `mV` in this tick. Below its warning level the hub braces; not above its resume
level the reading keeps bracing going; below its reset level a core counts as failed, and any other supply resets the hub. Under PORST_N only the
comparators see it. -/
def execSupplyWarning (row mV : Nat) (s0 : State) : Host.Outcome State Fault Refusal :=
  let s := s0.noteSupply row mV
  if 9 ≤ row then .next s0
  else if s.sys.porst then .next s
  else if s.belowReset row mV then
    (if row = 7 then (s.brace row mV).coreFails1 .a .supply
     else if row = 8 then (s.brace row mV).coreFails1 .b .supply
     else s.brownout (2 ^ row)).finish
  else if s.belowWarning row mV then .next (s.brace row mV)
  else if s.bracingNow ∧ s.belowResume row mV then .next { s with pwr := { s.pwr with lastLow := s.tick } }
  else .next s

/-- A shared unit that misses its deadline has a fault of its own (R8, R37): an uplink goes out of service, the compression engine fails
the job in hand, the steward is restarted; for the others R8 names no effect. -/
def State.sharedMiss (s : State) : SharedUnit → State
  | .uplink x => if x < 2 then s.uplinkFail x 2 else s
  | .compression j => s.jobParity j
  | .steward => if s.sys.steward then s.stewardDown else s
  | .other => s

/-- DEADLINE_MISS (R37): a lane of a TMR block is outvoted and logged; a majority also enters LIMP; a core counts as
failed; a shared unit's fault is that unit's own. -/
def execDeadlineMiss (miss : Deadline) (s : State) : Host.Outcome State Fault Refusal :=
  if s.sys.porst then .next s
  else match miss with
  | .tmrLane block => .next (s.event Ev.DEADLINE (evSource block 0) [])
  | .tmrMajority block => .next (((s.event Ev.DEADLINE (evSource block 0) []).flag F.SYS_ALERT_DEADLINE).raiseLimp 10)
  | .activeCore => (match s.red.active with
    | some c => if s.role c = .active then s.coreFails1 c .deadline else s
    | none => s : State).finish
  | .standbyCore => (match s.red.active with
    | some c => if s.role c = .catchup then s.coreFails1 c .catchupDeadline else s.coreFails1 (coreOther c) .deadline
    | none => s : State).finish
  | .sharedUnit u => .next (s.sharedMiss u)

end Sys2Proof.Machine
end

