-- ==== Sys2Proof/Machine/Troupe.lean ====
section
/-! DEFINITION. Troupe.lean: stack ports (R303 to R308), the clock bus (R309 to R312), the trigger bus (R314 to R317), the history
pool (R318 to R320), funnelling (R323 to R325) and the loss of the ringmaster (R326). -/
namespace Sys2Proof.Machine

/-! Stack ports. -/

/-- A stack port: 0 STKN, 1 STKS. -/
def State.stkPort (s : State) (x : Nat) : StkPort := s.stk.ports.val {} x

/-- A stack port changed. -/
def State.updPort (s : State) (x : Nat) (f : StkPort → StkPort) : State := { s with stk := { s.stk with ports := s.stk.ports.upd {} x f } }

/-- A hub of the troupe heard from: STK_STAT.SIZE counts the positions up to the highest one known (log 31). -/
def State.seePos (s : State) (p : Nat) : State := if s.get F.STK_STAT_SIZE < p + 1 then s.put F.STK_STAT_SIZE (p + 1) else s

/-- The lanes of a port that are out of service (R306). -/
def State.badLanes (s : State) (x : Nat) : List Nat := (s.part.lanes.filter (fun e => e.1 == x)).map (·.2)

/-- The lanes of a port that carry traffic, bit l for lane l (R306): lanes 0 to 3, and the spare where one of them is out. -/
def State.trafficLanes (s : State) (x : Nat) : Nat :=
  let bad := s.badLanes x
  let main := ([0, 1, 2, 3].filter (fun l => !bad.contains l)).map (2 ^ ·)
  main.sum + (if main.length < 4 ∧ ¬ bad.contains 4 then 16 else 0)

/-- What the status of a port shows of its lanes. -/
def State.showTraffic (s : State) (x : Nat) : State :=
  let up := (s.stkPort x).up
  (s.showLanes x).put (F.STK_PORTx_STAT_LANES x) (if up then s.trafficLanes x else 0)

/-- A lane leaves service (R18, R306): its traffic moves to the spare lane; with the spare in use or gone the port runs on three
lanes and the hub enters LIMP. -/
def State.laneFail (s : State) (x l : Nat) : State :=
  if 2 ≤ x ∨ 5 ≤ l ∨ (s.badLanes x).contains l then s
  else
    let first := s.badLanes x = []
    let s1 := ({ s with part := { s.part with lanes := s.part.lanes ++ [(x, l)] }, stk := { s.stk with ports := s.stk.ports.upd {} x fun p =>
      { p with spare := if first ∧ l < 4 then some l else p.spare } } }).showTraffic x
    let s2 := if first ∧ l < 4 then (((s1.useSpare 4).flag F.STK_ALERT_LANE_SPARE).event Ev.STK_LANE_SPARE (evSource 10 x) [.h x, .h l]) else s1
    if first then s2 else s2.exhaust 4

/-- The hubs joined to this one as a port goes down (R328): a member that loses STKN is alone, and with STKS go all positions above (log 31). -/
def State.losePos (s : State) (x : Nat) : State :=
  if x = 1 then s.put F.STK_STAT_SIZE (s.sys.pos + 1) else if s.sys.pos = 0 then s else s.put F.STK_STAT_SIZE 1

/-- A port goes down. -/
def State.portDown (s : State) (x : Nat) : State :=
  if (s.stkPort x).up then
    (((s.updPort x fun p => { p with up := false }).showTraffic x).losePos x).event Ev.STK_LINK (evSource 10 x) [.h x, .h 0, .h 0]
  else s

/-- Whether a neighbour's position fits a port (R304, R305): one less on STKN, one more on STKS. -/
def State.posFits (s : State) (x p : Nat) : Bool := if x = 0 then p + 1 == s.sys.pos else p == s.sys.pos + 1

/-- STACK_LINK_TRAINING (R305, R306): the two ends exchange their positions, HUB_IDs and TROUPE_IDs; on a mismatch the port is held down. A
lane that did not train leaves service. An acting deputy holds its STKN port out of troupe traffic (R326). The causes told apart in
EV_STK_TOPOLOGY (their codes are open, log 29): 0 position, 1 TROUPE_ID, 2 hop delay. -/
def execStackLinkTraining (port : Nat) (lanes : BitVec 5) (neigh : BitVec 4 × BitVec 12) (neighId : BitVec 16) (s : State) :
    Host.Outcome State Fault Refusal :=
  if s.sys.porst ∨ 2 ≤ port ∨ (s.stk.deputy ∧ port = 0) then .next s
  else
    let p := neigh.1.toNat
    let s1 := (List.range 5).foldl (fun (s : State) l => if lanes.getLsbD l then s else s.laneFail port l) s
    let s2 := ((s1.put (F.STK_PORTx_STAT_NEIGH_POS port) p).put (F.STK_PORTx_NEIGH_HUB_ID port) neigh.2.toNat).put
      (F.STK_PORTx_NEIGH_TROUPE_ID port) neighId.toNat
    let badPos := !(s.posFits port p)
    if badPos ∨ neighId.toNat ≠ s.get F.STK_CTRL_TROUPE_ID then
      .next (((s2.portDown port).flag F.STK_ALERT_TOPOLOGY).event Ev.STK_TOPOLOGY (evSource 10 port)
        [.h port, .h p, .h (Config.eventCode Ev.STK_TOPOLOGY (if badPos then 0 else 1))])
    else
      let s3 := (s2.updPort port fun k => { k with up := true, linkSeq := 0, ackSeq := 65535, replay := [], waiting := [] }).showTraffic port
      let s4 := { s3 with stk := { s3.stk with hop := if port = 0 then none else s3.stk.hop } }
      .next ((s4.seePos (max p s.sys.pos)).event Ev.STK_LINK (evSource 10 port) [.h port, .h 1, .h (s4.trafficLanes port)])

/-- STACK_LANE_SPARE (R306): a lane fails its training, or its eye has been low for 1 s. -/
def execStackLaneSpare (port lane : Nat) (s : State) : Host.Outcome State Fault Refusal := .next (if s.sys.porst then s else s.laneFail port lane)

/-- STACK_LINK_LOSS (R305): the link carries no troupe traffic. The clock bus is another matter: AT stays with it (R326 table). -/
def execStackLinkLoss (port : Nat) (s : State) : Host.Outcome State Fault Refusal := .next (if 2 ≤ port then s else s.portDown port)

/-- LANE_EYE_SCAN (R306, R378): the eye of a SerDes lane: 0 UPA, 1 UPB, 2 to 6 STKN, 7 to 11 STKS. A stack lane whose eye has been low
for 1 s leaves service. -/
def execLaneEyeScan (lane width height ctle : Nat) (adapted : Bool) (s : State) : Host.Outcome State Fault Refusal :=
  if s.sys.porst ∨ 12 ≤ lane then .next s
  else
    let low := decide (width < 20) || decide (height < 25)
    let s1 := ((((s.put (F.CAL_LANEl_EYE_WIDTH lane) (min 127 width)).put (F.CAL_LANEl_EYE_HEIGHT lane) (min 1023 height)).put
      (F.CAL_LANEl_EYE_CTLE lane) ctle).put (F.CAL_LANEl_EYE_ADAPT lane) (b2n adapted)).put (F.CAL_LANEl_EYE_LOW lane) (b2n low)
    if lane < 2 then .next s1
    else
      let x := (lane - 2) / 5
      let l := (lane - 2) % 5
      if low then
        match (s1.stkPort x).lowFrom.look l with
        | some t => .next (if t + Config.second ≤ s.tick then s1.laneFail x l else s1)
        | none => .next (s1.updPort x fun p => { p with lowFrom := p.lowFrom.set l s.tick })
      else .next (s1.updPort x fun p => { p with lowFrom := p.lowFrom.drop l })

/-! Packets (R307, R308). -/

/-- Packets of port `x` acknowledged up to and with a link sequence: they leave the replay buffer, and pooled writes among them the
pool buffer (R308, R319), and those that wait follow. -/
def State.ackPackets (s : State) (x ack : Nat) : State :=
  let p := s.stkPort x
  let base := (p.linkSeq + 2 * 65536 - (p.replay.length + p.waiting.length) % 65536) % 65536
  let k := (ack + 65536 - base) % 65536 + 1
  if p.replay.length < k then s
  else
    let s1 := (s.updPort x fun p => { p with replay := p.replay.drop k }).stkFlush x p.waiting
    if x = s.borrowPort then
      { s1 with stk := { s1.stk with poolBuf := s1.stk.poolBuf.filter (fun e => decide (k ≤ (e.2.2 + 65536 - base) % 65536)) } }
    else s1

/-- The packets of port `x` from a link sequence on are replayed (R308): what was sent is sent again, and counted. -/
def State.replayFrom (s : State) (x seq : Nat) : State :=
  let p := s.stkPort x
  let base := (p.linkSeq + 2 * 65536 - (p.replay.length + p.waiting.length) % 65536) % 65536
  (p.replay.drop ((seq + 65536 - base) % 65536)).foldl (fun (s : State) t => (s.send t).countUp (F.STK_PORTx_STAT_RETRY x)) s

/-- A packet of which this hub is no source nor the only destination goes on, at its class (R308). -/
def State.passPacket (s : State) (x h : Nat) (payload : List Word) : State :=
  if (s.stkPort x).up then
    s.stkPut x { words := payload }
      { kind := h % 16, cls := h / 16 % 8, last := h.testBit 7, src := h / 256 % 16, dest := h / 4096 % 16 }
  else s

/-- A slot of what this hub lends that a pooled access of its neighbour names: the spec gives such packets no layout, and the
slot is free (log 31). -/
def State.lentSlot (s : State) (d : Nat) : Nat :=
  let n := (s.rawBytes - s.ownBytes) / Config.tickBytes
  s.ownBytes + (if n = 0 then 0 else Config.freeNat d % n) * Config.tickBytes

/-- What a packet addressed to this hub does here beyond the commands that have a row of their own (FRAME, RTT, DATAGRAM, RECORDS,
MERGE_ACK and MGMT): a pooled write is stored, a pooled read answered, the answer to one taken in, a credit taken (R319, R325). -/
def State.stkLocal (s : State) (x kind src : Nat) (payload : List Word) : State :=
  let lends := s.stk.poolOn && s.ownBytes < s.rawBytes
  match kind with
  | 1 =>
    if lends then
      let d := s.draw
      { d.2 with dram := Mem.write 0 s.dram (s.lentSlot d.1) ((wordBytes payload).take Config.tickBytes) }
    else s
  | 2 =>
    if lends then
      let d := s.draw
      d.2.stkSend x {} { kind := 3, cls := kindClass 3, dest := src } (bytesWords (Mem.bytes 0 s.dram (s.lentSlot d.1) Config.tickBytes))
    else s
  | 3 =>
    match s.stk.rdq with
    | (_, i) :: r => ({ s with stk := { s.stk with rdq := r } }).ringWrite (rawAddr i) ((wordBytes payload).take Config.tickBytes)
    | [] => s
  | 6 =>
    let s1 := { s with stk := { s.stk with credit := some s.sys.pos, creditBytes := s.stk.creditBytes + 65536 } }
    (List.range 16).foldl (fun (s : State) m => if s.get (F.NSP_STRm_CFG_KIND m) = 2 then s.pumpReadout m else s) s1
  | _ => s

/-- STACK_PACKET_RX (R307, R308): header words 0 and 1, then the payload. A packet that fails its CRC is acknowledged negatively and replayed, which
changes no content; a replay counts at both ends. The next good one in link sequence acknowledges what the other end has received, is forwarded where it goes beyond this
hub, and is taken in where it is addressed to it; any other has come already, or comes again after the one that failed. FRAME_PACKET forwards a FRAME. -/
def execStackPacketRx (port : Nat) (words : List Word) (check : PacketCheck) (s : State) : Host.Outcome State Fault Refusal :=
  if s.sys.porst ∨ 2 ≤ port ∨ ¬ (s.stkPort port).up then .next s
  else
    match check, words with
    | .nack seq, _ => .next (s.replayFrom port seq.toNat)
    | .bad, _ => .next ((s.countUp (F.STK_PORTx_STAT_RETRY port)).send { port := 3 + port, kind := .nack, seq := ((s.stkPort port).ackSeq + 1) % 65536 })
    | .good, w0 :: w1 :: payload =>
      let h := w0.toNat
      let kind := h % 16
      let src := h / 256 % 16
      let dest := h / 4096 % 16
      if 9 ≤ kind ∨ 2 ^ 27 ≤ h ∨ 1024 < payload.length ∨ h / 65536 % 2048 ≠ payload.length ∨ w1.toNat % 65536 ≠ ((s.stkPort port).ackSeq + 1) % 65536 then .next s
      else
        let s1 := ((s.updPort port fun p => { p with ackSeq := w1.toNat % 65536 }).ackPackets port (w1.toNat / 65536)).seePos src
        let beyond := if port = 0 then decide (s.sys.pos < dest) else decide (dest < s.sys.pos)
        let frame := decide (kind = 0) && (payload.headD 0).toNat % 16 == 1
        let s2 := if (dest = 15 ∨ beyond) ∧ ¬ frame then s1.passPacket (1 - port) h payload else s1
        .next (if dest = s.sys.pos ∨ dest = 15 ∨ (s.stk.deputy ∧ dest = 0) then s2.stkLocal port kind src payload else s2)
    | .good, _ => .next s

/-! The clock bus (R310 to R312). -/

/-- A member leaves the clock bus: it runs alone, and its AT follows its own domains under R73. -/
def State.leaveBus (s : State) : State :=
  ({ s with stk := { s.stk with lock := false, busResid := 0 } }).judgeAt

/-- The hop delay in ps times 131,072 from a round trip in 2⁻¹⁶ ns (R310). -/
def State.hopDelay (s : State) (rt : Nat) : Int := ((rt : Int) - s.part.echo) * 1000 + s.getI F.STK_HOP_ASYM_VALUE * 131072

/-- The round trip that a member has received (R310, R311). -/
def State.takeRtt (s : State) (rt : Nat) : State :=
  let d := s.hopDelay rt
  let ps := d / 131072 + (if d % 131072 = 0 then 0 else (Config.freeRound d.natAbs % 2 : Nat))
  let s1 := s.put F.STK_TAP_TARGET (tw 16 (satI 16 ps))
  if 0 ≤ d ∧ d ≤ 5600 * 131072 then { s1 with stk := { s1.stk with hop := some true } }
  else if s.stk.hop = some false then s1
  else
    let s2 := (({ s1 with stk := { s1.stk with hop := some false } }).flag F.STK_ALERT_HOP_RANGE).event Ev.STK_TOPOLOGY (evSource 10 0)
      [.h 0, .h (s.get (F.STK_PORTx_STAT_NEIGH_POS 0)), .h (Config.eventCode Ev.STK_TOPOLOGY 2)]
    if s.onBus then s2.leaveBus else s2

/-- A CTRL packet (R308): its words, to the hub at a position or to every hub. -/
def State.sendCtrl (s : State) (x dest : Nat) (words : List Word) : State := s.stkSend x {} { kind := 0, cls := kindClass 0, dest := dest } words

/-- RTT_PACKET (R308, R310, R311): the round trip that the hub above measured, in the RTT packet that arrives from it; or, with `rt.1`, this hub's own measurement
of the hop below, which it shows, and sends to the hub below once per frame. -/
def execRttPacket (rt : Bool × Nat) (s : State) : Host.Outcome State Fault Refusal :=
  let frame := s.tick / Config.frame
  if s.sys.porst then .next s
  else if rt.1 then
    if ¬ (s.stkPort 1).up then .next s
    else
      let s1 := s.put F.STK_HOP_RT_VALUE (min (2 ^ 32 - 1) rt.2)
      if s.stk.rttFrame = some frame then .next s1
      else .next (({ s1 with stk := { s1.stk with rttFrame := some frame } }).sendCtrl 1 (s.sys.pos + 1) [2, wd rt.2, wd s.sys.pos])
  else if ¬ s.leads ∧ (s.stkPort 0).up then .next (s.takeRtt rt.2)
  else .next s

/-- HOP_TAP_STEP (R310): at most once in a frame the tap moves one step of 10 ps toward D_p, within ±10 ns. -/
def execHopTapStep (s : State) : Host.Outcome State Fault Refusal :=
  let frame := s.tick / Config.frame
  if s.sys.porst ∨ s.leads ∨ s.stk.hop ≠ some true ∨ s.stk.tapFrame = some frame then .next s
  else
    let tap := s.getI F.STK_TAP_TAP
    let off := s.getI F.STK_TAP_TARGET - 10 * tap
    let nw := clampI (-1000) 1000 (if 5 < off then tap + 1 else if off < -5 then tap - 1 else tap)
    .next (({ s with stk := { s.stk with tapFrame := some frame } }).put F.STK_TAP_TAP (tw 11 nw))

/-- A member joins (R312): EV_TROUPE_JOIN. `resid` is AT minus the bus AT, which it slews away. -/
def State.joinBus (s : State) (resid : Int) : State :=
  let s1 := { s with
    stk := { s.stk with lock := true, busLost := false, busResid := resid }
    tim := { s.tim with follow := none, atRate := s.atBase, decide := none, slewing := false } }
  let s2 := (s1.put F.TIM_STAT_FAR 0).put F.TIM_STAT_SLEWING 0
  (s2.event Ev.TROUPE_JOIN (evSource 10 0) [.h s.sys.pos, .t s.tick]).slewCheck

/-- AT minus the bus AT where FRAME names the next frame boundary (R308, R312): the ringmaster sends it at tick 1,000 of the frame, and it is taken
to arrive in that tick (log 31). -/
def State.busDiff (s : State) (f : Nat) : Int := ((s.tick : Int) - ((f : Int) - 1000)) * 500 * 2 ^ 64

/-- Whether a difference is within TIM_JOIN_MAX (R74). -/
def State.joinable (s : State) (diff : Int) : Bool := decide ((diff.natAbs : Int) ≤ (s.get F.TIM_JOIN_MAX_VALUE : Int) * 1000 * 2 ^ 64)

/-- What a member does with a FRAME packet (R312): in LOAD its AT takes the bus AT; after LOAD it joins under R74, or stays alone until a
warm reset. -/
def State.takeFrame (s : State) (f src : Nat) : State :=
  let s1 := { s with stk := { s.stk with frameTick := some f, frameNew := true, frameSrc := src, busLost := false } }
  if s.stk.lock ∨ s.stk.hop ≠ some true ∨ s.stk.far then s1
  else if s.sys.mode = .load then
    let now := f - 1000
    let s2 := if s.tim.atSet then s1.renumberTicks now else s1
    ({ s2 with tim := { s2.tim with atVal := ((now * 500 * 2 ^ 64 : Nat) : Int) } }).joinBus 0
  else if s.live then
    let d := s.busDiff f
    if s.joinable d then s1.joinBus d
    else
      ((({ s1 with stk := { s1.stk with far := true } }).flag F.TIM_ALERT_AT_FAR).put F.TIM_STAT_FAR 1).event Ev.AT_FAR (evSource 1 0)
        [.h (Config.eventCode Ev.AT_FAR 2), .i (d / 2 ^ 48)]
  else s1

/-- FRAME_PACKET (R308, R312): a member takes it and forwards it toward higher positions. The ringmaster, or the deputy that acts for it, sends its
own at tick 1,000 of the frame; the deputy notes what the former ringmaster says (R326). -/
def execFramePacket (words : List Word) (s : State) : Host.Outcome State Fault Refusal :=
  if s.sys.porst then .next s
  else
    let heard : Option (Nat × Nat) := match words with
      | [w0, w1, w2, w3] => if w0.toNat % 16 = 1 then some (w1.toNat + w2.toNat * 2 ^ 32, w3.toNat % 4) else none
      | _ => none
    if s.leads then
      let s1 := match heard with
        | some (f, _) => if s.stk.deputy then { s with stk := { s.stk with frameTick := some f } } else s
        | none => s
      .next (if s.live ∧ s.tick % Config.frame = 1000 then
        s1.sendCtrl 1 15 ([1] ++ tickWords (nextFrame s.tick) ++ [wd (s.tim.atSrc % 4 + b2n s.stk.deputy * 4)]) else s1)
    else
      match heard with
      | some (f, src) => if (s.stkPort 0).up then .next ((s.takeFrame f src).sendCtrl 1 15 words) else .next s
      | none => .next s

/-! The trigger bus (R314 to R317, R241, R242). -/

/-- Sources with BUS_OUT. -/
def State.busSources (s : State) : List Nat := (List.range 16).filter (fun q => s.on (F.TRG_SRCq_CTRL_BUS_OUT q))

/-- BUS_INWARD_FRAME (R314, R315): the frame from below, with its stamp where VALID is set, passes this hub: the earliest of that stamp and the
hub's oldest queued one goes on, with all the lines that carry it. A stamp more than 33,554,431 ticks old is not driven (R316). -/
def execBusInwardFrame (stamp : Option Nat) (lines : BitVec 8) (s : State) : Host.Outcome State Fault Refusal :=
  if ¬ s.live ∨ ¬ s.joined then .next s
  else
    let q := s.stk.busQ.filter (fun e => decide (s.tick ≤ e.stamp + 33554431))
    let old : Option Nat := match q with
      | [] => none
      | e :: r => some (r.foldl (fun (m : Nat) (x : BusEv) => min m x.stamp) e.stamp)
    let linesAt (t : Nat) : BitVec 8 := (q.filter (fun e => e.stamp == t)).foldl (fun (b : BitVec 8) e => b ||| e.lines) 0
    let m : Option BusEv × Bool := match stamp, old with
      | none, none => (none, false)
      | some t, none => (some ⟨t, lines⟩, false)
      | none, some o => (some ⟨o, linesAt o⟩, true)
      | some t, some o => if t < o then (some ⟨t, lines⟩, false) else if o < t then (some ⟨o, linesAt o⟩, true) else (some ⟨o, lines ||| linesAt o⟩, true)
    .next { s with stk := { s.stk with busQ := q, merged := m.1, mergedSrc := m.2 } }

/-- How far ahead of its frame a control item can lie: ARG has 19 bits (R314). -/
def argMax : Nat := 2 ^ 19 - 1

/-- Control items whose tick leaves no room are discarded (R317); the first of the others that ARG can name goes out. -/
def State.nextCtrl (s : State) : State × Nat × Nat :=
  let late := s.stk.ctrlQ.filter (fun e => decide (e.2 < s.tick + 2))
  let rest := s.stk.ctrlQ.filter (fun e => decide (s.tick + 2 ≤ e.2))
  let s1 := late.foldl (fun (s : State) e => (s.flag F.STK_ALERT_BUS_OVF).event Ev.TRG_BUS_OVF (evSource 10 0)
    [.h (Config.eventCode Ev.TRG_BUS_OVF e.1), .t e.2]) s
  match rest.find? (fun e => decide (e.2 ≤ s.tick + argMax)) with
  | none => ({ s1 with stk := { s1.stk with ctrlQ := rest } }, 0, 0)
  | some e => ({ s1 with stk := { s1.stk with ctrlQ := rest.erase e } }, e.1, e.2)

/-- The sources with BUS_OUT armed or disarmed at tick `t` by the bus (R241): each takes an entry of the command journal, or is refused (R342). -/
def State.busArm (s : State) (t : Nat) (c : Nat → CoreCmd) : State :=
  s.busSources.foldl (fun (s : State) q => if s.journalFull then s.journalRefuse F.TRG_ALERT_WR_REFUSED else s.armAt t (c q)) s

/-- The event of an outward frame (R316, R241, R242): BUS conditions take effect at stamp + BUS_LAT, or in the next tick where that has passed. In ARM_ANY
the first event disarms the sources with BUS_OUT, and the ringmaster is to re-arm them TRG_REARM ticks later. -/
def State.busEvent (s : State) (e : BusEv) : State :=
  let due := e.stamp + s.get F.TRG_CTRL_BUS_LAT
  let take := max due (s.tick + 1)
  let s1 := if due < s.tick + 1 then
      (List.range 8).foldl (fun (s : State) l => if e.lines.getLsbD l then s.event Ev.TRG_BUS_LATE (evSource 6 0) [.h l, .t e.stamp] else s)
        (s.flag F.TRG_ALERT_BUS_LATE)
    else s
  let s2 := { s1 with stk := { s1.stk with busQ := s1.stk.busQ.filter (fun k => !(k.stamp == e.stamp && k.lines &&& ~~~e.lines == 0)) } }
  let s3 := s2.coreEvent take (.bus e.lines e.stamp)
  if s.get F.TRG_CTRL_MODE = 2 ∧ s.stk.armedAny.any (· ≤ take) then
    let s4 := s3.busArm take .srcDisarm
    let re := s.get F.TRG_REARM_VALUE
    { s4 with stk := { s4.stk with armedAny := none, rearmAt := if s.leads ∧ re ≠ 0 then some (take + re) else none } }
  else s3

/-- The control of an outward frame (R317): 1 ARM, 2 SYNC, at the tick it names. -/
def State.busCtrl (s : State) (ctrl when' : Nat) : State :=
  match ctrl with
  | 1 =>
    if s.get F.TRG_CTRL_MODE = 2 then
      let s1 := s.busArm when' .srcArm
      { s1 with stk := { s1.stk with armedAny := some when' } }
    else s
  | 2 => if s.journalFull then s.journalRefuse F.FLT_ALERT_WR_REFUSED else s.setSyncs (s.hist.syncs ++ [(when', 1)])
  | _ => s

/-- BUS_OUTWARD_FRAME (R314 to R317): the frame that the ringmaster starts carries what it merged and its first control item; a member's operands say what came
in, `when` being the tick that t + ARG names. Every joined hub acts on it, the event before the control. A tick that ARG cannot name is none. -/
def execBusOutwardFrame (stamp : Option Nat) (lines : BitVec 8) (ctrl : Nat) (when' : Nat) (s : State) : Host.Outcome State Fault Refusal :=
  if ¬ s.live ∨ ¬ s.joined then .next s
  else
    let c : State × Nat × Nat := if s.leads then s.nextCtrl else (s, ctrl, when')
    let ev : Option BusEv := if s.leads then s.stk.merged else stamp.map fun t => ⟨t, lines⟩
    let s1 := match ev with | some e => c.1.busEvent e | none => c.1
    let s2 := if s.tick + 2 ≤ c.2.2 ∧ c.2.2 ≤ s.tick + argMax then s1.busCtrl c.2.1 c.2.2 else s1
    .next { s2 with stk := { s2.stk with merged := none, mergedSrc := false, outward := s.tick } }

/-- ARM_ANY_REARM (R241, R317): the ringmaster arms the sources with BUS_OUT by a bus ARM event: for TRG_REARM ticks after the first firing, or on
command where TRG_REARM is 0 or nothing has been armed yet. The event leaves room for its frame, up to three ticks ahead (log 31). -/
def execArmAnyRearm (s : State) : Host.Outcome State Fault Refusal :=
  let soon := s.tick + 3
  let when' := max soon (s.stk.rearmAt.getD soon)
  if ¬ s.live ∨ ¬ s.leads ∨ s.get F.TRG_CTRL_MODE ≠ 2 ∨ s.stk.armedAny.isSome ∨ soon < when' then .next s
  else .next { s with stk := { s.stk with rearmAt := none, ctrlQ := s.stk.ctrlQ ++ [(1, when')] } }

/-! Loss of the ringmaster (R326). -/

/-- CLOCK_BUS_LOSS (R326): the fifth tick without a marker. Position 1 with DEPUTY set takes the ringmaster's roles; any other member runs alone. AT follows
the hub's own domains. -/
def execClockBusLoss (s : State) : Host.Outcome State Fault Refusal :=
  if s.sys.porst ∨ ¬ s.onBus then .next s
  else
    let s1 := { s with stk := { s.stk with busLost := true, frameTick := none } }
    if s.sys.pos = 1 ∧ s.on F.STK_CTRL_DEPUTY ∧ s.joined ∧ s.live then
      let s2 := { s1 with stk := { s1.stk with deputy := true, lock := false, busResid := 0, resume := false } }
      let s3 := ((s2.updPort 0 fun p => { p with up := false }).showTraffic 0).flag F.STK_ALERT_TAKEOVER
      .next (s3.event Ev.DEPUTY_TAKEOVER (evSource 10 0) [.t s.tick]).judgeAt
    else .next s1.leaveBus

/-- STK_RESUME (R326): STK_CMD.RESUME asks an acting deputy to hand back. -/
def execStkResume (s : State) : Host.Outcome State Fault Refusal :=
  .next (if s.stk.deputy ∧ s.liveMode then { s with stk := { s.stk with resume := true } } else s)

/-- DEPUTY_HANDBACK (R326, R312): at a frame boundary at which the ringmaster's AT is within TIM_JOIN_MAX, the deputy becomes a member again and slews. -/
def execDeputyHandback (s : State) : Host.Outcome State Fault Refusal :=
  match s.stk.frameTick with
  | some f =>
    let d := ((s.tick : Int) - (f : Int)) * 500 * 2 ^ 64
    if ¬ s.live ∨ ¬ s.stk.deputy ∨ ¬ s.stk.resume ∨ s.tick % Config.frame ≠ 0 ∨ ¬ s.joinable d then .next s
    else
      let s1 := { s with stk := { s.stk with deputy := false, resume := false } }
      .next (((s1.updPort 0 fun p => { p with up := true }).showTraffic 0).joinBus d)
  | none => .next s

/-! The history pool (R320). -/

/-- The ring continues in its own slots (R320), starting with the records held in the pool buffer; the ticks in borrowed slots are no longer present, and the
windows that hold one are released with no records. -/
def State.losePool (s : State) : State :=
  let held := s.stk.poolBuf.map (·.1)
  let recs := held.filterMap fun n => (s.slotOf n).map fun i => (n, s.ringBytes (rawAddr i) Config.tickBytes)
  let gone := (s.hist.ring.filter (fun e => s.slotBorrowed e.1 && !held.contains e.2)).map (·.2)
  let units := s.get F.STK_POOL_STAT_BORROWED
  let wins := (s.hist.wins.filter (fun e => e.2.holds s.tick && gone.any (fun n => decide (e.2.first ≤ n) && decide (n < e.2.lastP)))).map (·.1)
  let own := s.hist.ring.filter (fun e => !s.slotBorrowed e.1)
  let s1 := ({ s with
    stk := { s.stk with poolBuf := [], poolMem := [], rdq := [], poolOn := s.get F.STK_POOL_STAT_LENT != 0 }
    hist := { s.hist with ring := own } }).put F.STK_POOL_STAT_BORROWED 0
  let s2 := { s1 with hist := { s1.hist with wr := if s1.hist.wr < s1.rawTicks then s1.hist.wr else 0 } }
  let s3 := wins.foldl (fun (s : State) d => (s.cancelWindow d).updWin d fun w => { w with state := 4 }) s2
  let s4 := recs.foldl (fun (s : State) (e : Nat × List Byte) => s.rawWrite e.1 e.2) s3
  (s4.flag F.STK_ALERT_POOL_LOST).event Ev.POOL_LOST (evSource 10 0) [.h units, .t s.tick]

/-- POOL_LOST (R320): a pooled write has been in the pool buffer for 64 ticks. -/
def execPoolLost (s : State) : Host.Outcome State Fault Refusal :=
  .next (if s.stk.poolBuf.any (fun e => decide (e.2.1 + 64 ≤ s.tick)) then s.losePool else s)

/-! Funnelling (R323 to R325). -/

/-- The rank of a record on a live stream by its type (R214). -/
def rankOf (type : Nat) : Nat :=
  match type with
  | 9 => 1 | 6 => 2 | 7 => 3 | 4 => 4 | 5 => 5 | 1 => 6 | 3 => 7 | 2 => 8 | _ => 9

/-- The key of a member's record on the merged live stream (R214, R216). A REC_LIFE names its channel without a position (R167): the position
is that of the member that sent it. -/
def mergeKey (pos place : Nat) (ws : List Word) : RecKey :=
  let w (i : Nat) : Nat := (ws.getD i 0).toNat
  let type := w 0 / 2 ^ 28
  let chan := type = 1 ∨ type = 2 ∨ type = 3 ∨ type = 10 ∨ (type = 4 ∧ ¬ (w 0).testBit 10)
  let first := if type = 10 then place else if chan ∨ type = 4 then w 2 + w 3 * 2 ^ 32 else if type = 6 then place else w 1 + w 2 * 2 ^ 32
  ⟨place, rankOf type, if type = 10 then pos * 512 + w 1 % 512 else if chan then w 1 % 8192 else pos * 512, first⟩

/-- The windows that a member's REC_TRIG tells of (R204, R325): one for each source that has not DROPPED it, cut in the take-effect tick (R233). -/
def State.drainsOf (s : State) (pos : Nat) (ws : List Word) : State :=
  let w (i : Nat) : Nat := (ws.getD i 0).toNat
  if w 0 / 2 ^ 28 = 5 then
    ((ws.drop 7).filter fun x => !x.toNat.testBit 12).foldl (fun (s : State) x =>
      s.noteDrain { cut := w 3 + w 4 * 2 ^ 32, desc := x.toNat / 16 % 256, pos := pos }) s
  else s

/-- A member's record put into the merged stream: on a readout stream the run of its window is kept, the descriptor being that of the REC_WINDOW before it
(R215). -/
def State.mergeRecord (s : State) (pos : Nat) (e : Nat × Nat × List Word) (desc : Nat) : State :=
  let m := e.1 % 16
  if s.streamLive m then
    let s1 := s.drainsOf pos e.2.2
    if s.streaming then s1.updStream m fun st => { st with placed := insertPlaced ⟨mergeKey pos e.2.1 e.2.2, e.2.2⟩ st.placed } else s1
  else if s.streamReadout m then
    s.updStream m fun st => { st with placed := insertPlaced ⟨⟨e.2.1, desc, pos * 512, 0⟩, e.2.2⟩ st.placed }
  else s.flag F.NSP_ALERT_NO_STREAM

/-- The records of a transfer in turn, with the descriptor of the window they belong to: a window may go on in a later transfer. -/
def State.mergeAll (s : State) (pos : Nat) : List (Nat × Nat × List Word) → State
  | [] => s
  | e :: r =>
    let w0 := (e.2.2.getD 0 0).toNat
    let d := if w0 / 2 ^ 28 = 12 then w0 % 256 else s.stk.mergeDesc.val 0 pos
    ((({ s with stk := { s.stk with mergeDesc := s.stk.mergeDesc.set pos d } }).mergeRecord pos e d)).mergeAll pos r

/-- The window that a position is draining: the first of its own (R325). -/
def State.draining (s : State) (pos : Nat) : Option Drain := s.stk.drains.find? (fun d => d.pos == pos)

/-- MERGE_ACK sent to a member (R323). -/
def State.sendMergeAck (s : State) (pos epoch : Nat) : State := s.stkSend 1 { seq := epoch } { kind := 7, cls := kindClass 7, dest := pos } []

/-- MERGE_RECORDS_RX (R216, R323, R325): the records of a member for an epoch, each with its stream and placement tick, enter the merged streams, and
MERGE_ACK goes back. `recs.2`: they end the readout of the window that the member is draining. -/
def execMergeRecordsRx (pos epoch : Nat) (recs : List (Nat × Nat × List Word) × Bool) (s : State) : Host.Outcome State Fault Refusal :=
  if s.sys.porst ∨ ¬ s.leads ∨ s.get F.STK_CTRL_FUNNEL ≠ 2 ∨ 16 ≤ pos ∨ s.stk.dropped.toNat.testBit pos ∨ pos ≤ s.sys.pos ∨ ¬ (s.stkPort 1).up then .next s
  else if s.stk.delivered.contains (pos, epoch) then .next (s.sendMergeAck pos epoch)
  else
    let s0 := (s.seePos pos).mergeAll pos recs.1
    let s1 := if recs.2 then (match s0.draining pos with | some d => s0.drainedBy d.cut d.desc pos | none => s0) else s0
    let s2 := { s1 with stk := { s1.stk with delivered := (pos, epoch) :: s1.stk.delivered.filter (fun e => decide (epoch ≤ e.2 + 32) || e.1 != pos), acked := epoch :: s1.stk.acked.take 63 } }
    let s3 := (List.range 16).foldl (fun (s : State) m => if s.get (F.NSP_STRm_CFG_KIND m) = 2 then s.pumpReadout m else s) s2
    .next (s3.sendMergeAck pos epoch)

/-- MERGE_ACK_RX (R323): the member releases the records of an epoch. -/
def execMergeAckRx (epoch : Nat) (s : State) : Host.Outcome State Fault Refusal :=
  .next { s with stk := { s.stk with unacked := s.stk.unacked.filter (fun e => e.1 != epoch) } }

/-- A dropped member changes to FORWARD (R324): from its first epoch without MERGE_ACK on it forms its own datagrams. -/
def State.toForward (s : State) : State :=
  let s1 := { s with stk := { s.stk with forward := true, unacked := [] } }
  s.stk.unacked.foldl (fun (s : State) e => s.formDgram e.2.1 ((e.2.2.head?.map (·.key.place)).getD 0) e.2.2) s1

/-- MERGE_DROP (R324): on the ringmaster, a position that has not delivered an epoch 4,000 ticks after its end is dropped; on that member, its change to
FORWARD. -/
def execMergeDrop (pos : Nat) (s : State) : Host.Outcome State Fault Refusal :=
  if s.sys.porst ∨ 16 ≤ pos ∨ s.get F.STK_CTRL_FUNNEL ≠ 2 then .next s
  else if s.leads then
    let e := (s.tick - 4000) / Config.epoch - 1
    let late := !(s.stk.delivered.any (fun k => k.1 == pos && decide (e ≤ k.2)))
    if s.tick < 4000 + Config.epoch ∨ ¬ s.mergePositions.contains pos ∨ ¬ late then .next s
    else
      let s1 := { s with stk := { s.stk with dropped := s.stk.dropped ||| BitVec.ofNat 16 (2 ^ pos) } }
      .next ((s1.flag F.STK_ALERT_MERGE_DROP).event Ev.MERGE_DROP (evSource 10 0) [.h pos, .h e])
  else if pos = s.sys.pos ∧ s.mergeMember then .next s.toForward
  else .next s

/-- A member's datagram as the ringmaster sends it (R323): header and payload unchanged, to the member's destination. -/
def fwdTx (live again : Bool) (d : Fwd) : Tx :=
  { kind := if live then .data else if again then .retransmit else .readout, stream := d.stream, seq := d.seq, words := d.words
    nsp := some { typ := 1, hubId := d.hubId, stream := d.stream, seq := d.seq, first := d.first, boot := d.boot }
    udp := some { v6 := d.v6, dst := d.dst, srcPort := 47318, dstPort := d.dstPort, df := !d.v6 } }

/-- FORWARD_DATAGRAM (R288, R323): the ringmaster puts a member's datagram among its own, on the ports of that stream, in its class: live data, retransmission (`again`) or readout. -/
def execForwardDatagram (pos : Nat) (live again : Bool) (d : Fwd) (s : State) : Host.Outcome State Fault Refusal :=
  if s.sys.porst ∨ s.sys.mode = .load ∨ ¬ s.leads ∨ s.get F.STK_CTRL_FUNNEL = 0 ∨ ¬ (s.stkPort 1).up ∨ 16 ≤ pos then .next s
  else
    let s1 := s.seePos pos
    let n := s1.net.formed
    let q := (s1.portsFor d.stream).foldl (fun (q : Tab (List (Nat × Nat))) p => q.upd [] p fun l => l ++ [(fwdStream, n)]) s1.net.sendq
    .next { s1 with net := { s1.net with formed := n + 1, fwd := s1.net.fwd.set n (fwdTx live again d), sendq := q } }

/-- STACK_MGMT_PACKET (R323): a member serves what the ringmaster passes on, and answers the same way. -/
def execStackMgmtPacket (type : BitVec 8) (r : Req) (s : State) : Host.Outcome State Fault Refusal :=
  if s.leads then .next s else (s.manage type.toNat { r with svc := false, port := stknPort }).finish

/-- The position that drains next (R325): that of the first window in order that a member holds. -/
def State.creditPos (s : State) : Option Nat := (s.stk.drains.find? fun d => s.mergePositions.contains d.pos).map (·.pos)

/-- CREDIT_GRANT (R325): the ringmaster grants a readout credit of 64 KiB to the position that drains. -/
def execCreditGrant (s : State) : Host.Outcome State Fault Refusal :=
  if s.sys.porst ∨ ¬ s.merges then .next s
  else
    match s.creditPos with
    | some p => .next (({ s with stk := { s.stk with credit := some p } }).stkSend 1 {} { kind := 6, cls := kindClass 6, dest := p } [])
    | none => .next s

/-! The test port (R454). -/

/-- The instruction that the test port acts on: EXTEST, INTEST and SAMPLE act only while PORST_N is asserted. -/
def State.testActs (s : State) : TestInstr := if s.sys.porst then s.sys.jtag else .bypass

/-- TEST_PORT_INSTRUCTION (R454): the instruction selected; a test-logic reset selects BYPASS. -/
def execTestPortInstruction (instr : TestInstr) (s : State) : Host.Outcome State Fault Refusal :=
  .next { s with sys := { s.sys with jtag := if instr = .reset then .bypass else instr } }

end Sys2Proof.Machine
end

