-- ==== Sys2Proof/Machine/Dispatch.lean ====
section
/-! DEFINITION. Dispatch.lean: one arm per command, each a call of its meaning. -/
namespace Sys2Proof.Machine

/-- The effect of a command on everything but the queue. -/
def exec (i : Instr) (s : State) : Host.Outcome State Fault Refusal :=
  match i with
  | .porstAssert => Sys2Proof.Machine.execPorstAssert s
  | .porstRelease pos svcAddr => Sys2Proof.Machine.execPorstRelease pos svcAddr s
  | .loadEnd => Sys2Proof.Machine.execLoadEnd s
  | .lockWaitEnd => Sys2Proof.Machine.execLockWaitEnd s
  | .brownoutReset rows => Sys2Proof.Machine.execBrownoutReset rows s
  | .coreSupplyReset core => Sys2Proof.Machine.execCoreSupplyReset core s
  | .supplyWarning row mV => Sys2Proof.Machine.execSupplyWarning row mV s
  | .bracingEnd => Sys2Proof.Machine.execBracingEnd s
  | .sysWarmReset svc keySlot => Sys2Proof.Machine.execSysWarmReset svc keySlot s
  | .warmResetExecute => Sys2Proof.Machine.execWarmResetExecute s
  | .updateReset => Sys2Proof.Machine.execUpdateReset s
  | .sysTrimReq => Sys2Proof.Machine.execSysTrimReq s
  | .trimStart badSlices badConvs => Sys2Proof.Machine.execTrimStart badSlices badConvs s
  | .trimEnd codes => Sys2Proof.Machine.execTrimEnd codes s
  | .limpReturnToRun => Sys2Proof.Machine.execLimpReturnToRun s
  | .deadlineMiss miss => Sys2Proof.Machine.execDeadlineMiss miss s
  | .stewardWatchdogExpiry => Sys2Proof.Machine.execStewardWatchdogExpiry s
  | .stewardResume => Sys2Proof.Machine.execStewardResume s
  | .eccCorrectableError mem addr => Sys2Proof.Machine.execEccCorrectableError mem addr s
  | .avsAdjust core up => Sys2Proof.Machine.execAvsAdjust core up s
  | .avsMarginLow core => Sys2Proof.Machine.execAvsMarginLow core s
  | .avsPmbusFail core status => Sys2Proof.Machine.execAvsPmbusFail core status s
  | .dramRefreshChange temp => Sys2Proof.Machine.execDramRefreshChange temp s
  | .dramRowRepair groupFull => Sys2Proof.Machine.execDramRowRepair groupFull s
  | .sliceConversion codes => Sys2Proof.Machine.execSliceConversion codes s
  | .sampleCollect => Sys2Proof.Machine.execSampleCollect s
  | .btuEvaluate => Sys2Proof.Machine.execBtuEvaluate s
  | .btuAutoPermit p => Sys2Proof.Machine.execBtuAutoPermit p s
  | .coreTickProcess => Sys2Proof.Machine.execCoreTickProcess s
  | .frameStatus tj power => Sys2Proof.Machine.execFrameStatus tj power s
  | .coefSetActivation => Sys2Proof.Machine.execCoefSetActivation s
  | .coefRepeat => Sys2Proof.Machine.execCoefRepeat s
  | .recTimeSecondMark => Sys2Proof.Machine.execRecTimeSecondMark s
  | .ptpMeasurement d t1 t2 t3 t4 own => Sys2Proof.Machine.execPtpMeasurement d t1 t2 t3 t4 own s
  | .asymEstComplete d => Sys2Proof.Machine.execAsymEstComplete d s
  | .soloHoldExpiry d => Sys2Proof.Machine.execSoloHoldExpiry d s
  | .domainLossTimeout d => Sys2Proof.Machine.execDomainLossTimeout d s
  | .asymApply d => Sys2Proof.Machine.execAsymApply d s
  | .stepAccept d => Sys2Proof.Machine.execStepAccept d s
  | .atSourceChange => Sys2Proof.Machine.execAtSourceChange s
  | .atRevert => Sys2Proof.Machine.execAtRevert s
  | .slewEnd => Sys2Proof.Machine.execSlewEnd s
  | .frcSourceChange qlA qlB => Sys2Proof.Machine.execFrcSourceChange qlA qlB s
  | .synceLoss port lastQl => Sys2Proof.Machine.execSynceLoss port lastQl s
  | .mclkMarker ts => Sys2Proof.Machine.execMclkMarker ts s
  | .mclkLoss => Sys2Proof.Machine.execMclkLoss s
  | .ppsInEdge back => Sys2Proof.Machine.execPpsInEdge back s
  | .tdOffsetWrite d ts => Sys2Proof.Machine.execTdOffsetWrite d ts s
  | .td3RateWrite rate => Sys2Proof.Machine.execTd3RateWrite rate s
  | .snapLatch => Sys2Proof.Machine.execSnapLatch s
  | .tcmpArm u => Sys2Proof.Machine.execTcmpArm u s
  | .tcmpDisarm u => Sys2Proof.Machine.execTcmpDisarm u s
  | .tcmpFire u => Sys2Proof.Machine.execTcmpFire u s
  | .toutStart t => Sys2Proof.Machine.execToutStart t s
  | .toutStop t => Sys2Proof.Machine.execToutStop t s
  | .sliceAbruptFailure slice => Sys2Proof.Machine.execSliceAbruptFailure slice s
  | .sliceSubstitution bank => Sys2Proof.Machine.execSliceSubstitution bank s
  | .sliceGradualFailure bank input => Sys2Proof.Machine.execSliceGradualFailure bank input s
  | .gradualSubstitution bank => Sys2Proof.Machine.execGradualSubstitution bank s
  | .spareFail bank => Sys2Proof.Machine.execSpareFail bank s
  | .spareManPark bank value => Sys2Proof.Machine.execSpareManPark bank value s
  | .ilkRearm pins => Sys2Proof.Machine.execIlkRearm pins s
  | .ilkReadbackFail pin => Sys2Proof.Machine.execIlkReadbackFail pin s
  | .channelEnable ch => Sys2Proof.Machine.execChannelEnable ch s
  | .channelDisable ch => Sys2Proof.Machine.execChannelDisable ch s
  | .channelEnableEffect ch => Sys2Proof.Machine.execChannelEnableEffect ch s
  | .channelDisableEffect ch => Sys2Proof.Machine.execChannelDisableEffect ch s
  | .groupEnable g => Sys2Proof.Machine.execGroupEnable g s
  | .scanStart g => Sys2Proof.Machine.execScanStart g s
  | .slowSlot g code before after => Sys2Proof.Machine.execSlowSlot g code before after s
  | .slowSampleRelease g => Sys2Proof.Machine.execSlowSampleRelease g s
  | .slowChannelEnable ch => Sys2Proof.Machine.execSlowChannelEnable ch s
  | .slowChannelDisable ch => Sys2Proof.Machine.execSlowChannelDisable ch s
  | .excFault g source => Sys2Proof.Machine.execExcFault g source s
  | .excFaultEnd g source => Sys2Proof.Machine.execExcFaultEnd g source s
  | .converterFail conv => Sys2Proof.Machine.execConverterFail conv s
  | .converterTakeover g => Sys2Proof.Machine.execConverterTakeover g s
  | .romCheck ch found => Sys2Proof.Machine.execRomCheck ch found s
  | .templateRead ch page crcOk => Sys2Proof.Machine.execTemplateRead ch page crcOk s
  | .sidNoIdle ch => Sys2Proof.Machine.execSidNoIdle ch s
  | .lifeWriteback ch ok => Sys2Proof.Machine.execLifeWriteback ch ok s
  | .sidWbNow => Sys2Proof.Machine.execSidWbNow s
  | .fltSyncArm => Sys2Proof.Machine.execFltSyncArm s
  | .fltSyncDisarm => Sys2Proof.Machine.execFltSyncDisarm s
  | .filterSync source => Sys2Proof.Machine.execFilterSync source s
  | .trgInEdge input rising back => Sys2Proof.Machine.execTrgInEdge input rising back s
  | .trgSourceArm q tick => Sys2Proof.Machine.execTrgSourceArm q tick s
  | .trgSourceDisarm q tick => Sys2Proof.Machine.execTrgSourceDisarm q tick s
  | .trgConditionWrite c reg value => Sys2Proof.Machine.execTrgConditionWrite c reg value s
  | .triggerAutoFire q => Sys2Proof.Machine.execTriggerAutoFire q s
  | .heldTriggerEffect => Sys2Proof.Machine.execHeldTriggerEffect s
  | .armAnyRearm => Sys2Proof.Machine.execArmAnyRearm s
  | .windowClose d => Sys2Proof.Machine.execWindowClose d s
  | .windowRead d => Sys2Proof.Machine.execWindowRead d s
  | .windowReadout d => Sys2Proof.Machine.execWindowReadout d s
  | .windowCancel d => Sys2Proof.Machine.execWindowCancel d s
  | .windowRelease d => Sys2Proof.Machine.execWindowRelease d s
  | .cmpJobStart j => Sys2Proof.Machine.execCmpJobStart j s
  | .cmpJobAbort j => Sys2Proof.Machine.execCmpJobAbort j s
  | .cmpJobRun j => Sys2Proof.Machine.execCmpJobRun j s
  | .cmpJobEnd j => Sys2Proof.Machine.execCmpJobEnd j s
  | .cmpParityError j => Sys2Proof.Machine.execCmpParityError j s
  | .datagramClose m => Sys2Proof.Machine.execDatagramClose m s
  | .datagramSend port => Sys2Proof.Machine.execDatagramSend port s
  | .overwriteReport m => Sys2Proof.Machine.execOverwriteReport m s
  | .linkUp port rate10 gearTx gearRx => Sys2Proof.Machine.execLinkUp port rate10 gearTx gearRx s
  | .portLoss port cause => Sys2Proof.Machine.execPortLoss port cause s
  | .linkLoopbackTest port pass => Sys2Proof.Machine.execLinkLoopbackTest port pass s
  | .linkRetry port => Sys2Proof.Machine.execLinkRetry port s
  | .icmpEchoRequest port v6 src echo => Sys2Proof.Machine.execIcmpEchoRequest port v6 src echo s
  | .read r => Sys2Proof.Machine.execRead r s
  | .write r => Sys2Proof.Machine.execWrite r s
  | .timedWriteEffect => Sys2Proof.Machine.execTimedWriteEffect s
  | .blockRead r => Sys2Proof.Machine.execBlockRead r s
  | .authChallenge r => Sys2Proof.Machine.execAuthChallenge r s
  | .authResponse r => Sys2Proof.Machine.execAuthResponse r s
  | .sessionTimeout id => Sys2Proof.Machine.execSessionTimeout id s
  | .authLockoutEnd svc src => Sys2Proof.Machine.execAuthLockoutEnd svc src s
  | .trigger r => Sys2Proof.Machine.execTrigger r s
  | .sync r => Sys2Proof.Machine.execSync r s
  | .nack r => Sys2Proof.Machine.execNack r s
  | .ack r => Sys2Proof.Machine.execAck r s
  | .unknownRequest type r => Sys2Proof.Machine.execUnknownRequest type r s
  | .hmacKeyRevoke mask => Sys2Proof.Machine.execHmacKeyRevoke mask s
  | .svcStatus => Sys2Proof.Machine.execSvcStatus s
  | .svcRequest bytes => Sys2Proof.Machine.execSvcRequest bytes s
  | .svcResponse read => Sys2Proof.Machine.execSvcResponse read s
  | .svcClear => Sys2Proof.Machine.execSvcClear s
  | .stackLinkTraining port lanes neigh neighId => Sys2Proof.Machine.execStackLinkTraining port lanes neigh neighId s
  | .stackLaneSpare port lane => Sys2Proof.Machine.execStackLaneSpare port lane s
  | .stackPacketRx port words check => Sys2Proof.Machine.execStackPacketRx port words check s
  | .framePacket words => Sys2Proof.Machine.execFramePacket words s
  | .rttPacket rt => Sys2Proof.Machine.execRttPacket rt s
  | .hopTapStep => Sys2Proof.Machine.execHopTapStep s
  | .busInwardFrame stamp lines => Sys2Proof.Machine.execBusInwardFrame stamp lines s
  | .busOutwardFrame stamp lines ctrl when => Sys2Proof.Machine.execBusOutwardFrame stamp lines ctrl when s
  | .clockBusLoss => Sys2Proof.Machine.execClockBusLoss s
  | .stkResume => Sys2Proof.Machine.execStkResume s
  | .deputyHandback => Sys2Proof.Machine.execDeputyHandback s
  | .poolLost => Sys2Proof.Machine.execPoolLost s
  | .mergeRecordsRx pos epoch recs => Sys2Proof.Machine.execMergeRecordsRx pos epoch recs s
  | .mergeAckRx epoch => Sys2Proof.Machine.execMergeAckRx epoch s
  | .mergeDrop pos => Sys2Proof.Machine.execMergeDrop pos s
  | .forwardDatagram pos live again d => Sys2Proof.Machine.execForwardDatagram pos live again d s
  | .stackMgmtPacket type r => Sys2Proof.Machine.execStackMgmtPacket type r s
  | .creditGrant => Sys2Proof.Machine.execCreditGrant s
  | .epochCopy => Sys2Proof.Machine.execEpochCopy s
  | .epochCommit => Sys2Proof.Machine.execEpochCommit s
  | .coreFailureDetect cause => Sys2Proof.Machine.execCoreFailureDetect cause s
  | .catchupComplete => Sys2Proof.Machine.execCatchupComplete s
  | .standbyFault core cause => Sys2Proof.Machine.execStandbyFault core cause s
  | .bistComplete core coverage => Sys2Proof.Machine.execBistComplete core coverage s
  | .provingComplete core => Sys2Proof.Machine.execProvingComplete core s
  | .coreRevert => Sys2Proof.Machine.execCoreRevert s
  | .plannedSwap => Sys2Proof.Machine.execPlannedSwap s
  | .drillDue => Sys2Proof.Machine.execDrillDue s
  | .drillEnd => Sys2Proof.Machine.execDrillEnd s
  | .redSwap => Sys2Proof.Machine.execRedSwap s
  | .redRestart => Sys2Proof.Machine.execRedRestart s
  | .wvLaneOut lane cause => Sys2Proof.Machine.execWvLaneOut lane cause s
  | .weathervaneMajorityLoss => Sys2Proof.Machine.execWeathervaneMajorityLoss s
  | .holdFreeze => Sys2Proof.Machine.execHoldFreeze s
  | .rtSlotStart => Sys2Proof.Machine.execRtSlotStart s
  | .rtSlotEnd => Sys2Proof.Machine.execRtSlotEnd s
  | .fieldZeroStart => Sys2Proof.Machine.execFieldZeroStart s
  | .fieldZeroComplete => Sys2Proof.Machine.execFieldZeroComplete s
  | .fieldZeroClear ch => Sys2Proof.Machine.execFieldZeroClear ch s
  | .laneEyeScan lane width height ctle adapted => Sys2Proof.Machine.execLaneEyeScan lane width height ctle adapted s
  | .updateBegin r => Sys2Proof.Machine.execUpdateBegin r s
  | .updateChunk r => Sys2Proof.Machine.execUpdateChunk r s
  | .updateEnd r => Sys2Proof.Machine.execUpdateEnd r s
  | .updateVerifyComplete => Sys2Proof.Machine.execUpdateVerifyComplete s
  | .updateLockTimeout => Sys2Proof.Machine.execUpdateLockTimeout s
  | .updConfirm => Sys2Proof.Machine.execUpdConfirm s
  | .autoConfirm => Sys2Proof.Machine.execAutoConfirm s
  | .updCancel => Sys2Proof.Machine.execUpdCancel s
  | .imageKeyRevoke mask => Sys2Proof.Machine.execImageKeyRevoke mask s
  | .nvmSectorRepair flash => Sys2Proof.Machine.execNvmSectorRepair flash s
  | .logRecordTimeout => Sys2Proof.Machine.execLogRecordTimeout s
  | .logPageWrite => Sys2Proof.Machine.execLogPageWrite s
  | .lostReport => Sys2Proof.Machine.execLostReport s
  | .logSectorSpare flash sector => Sys2Proof.Machine.execLogSectorSpare flash sector s
  | .logMediumFail => Sys2Proof.Machine.execLogMediumFail s
  | .logRead r => Sys2Proof.Machine.execLogRead r s
  | .logClear r => Sys2Proof.Machine.execLogClear r s
  | .sysShutdown => Sys2Proof.Machine.execSysShutdown s
  | .shutdownComplete => Sys2Proof.Machine.execShutdownComplete s
  | .thermalEvent tj sensor => Sys2Proof.Machine.execThermalEvent tj sensor s
  | .registerWrite addr value => Sys2Proof.Machine.execRegisterWrite addr value s
  | .stackLinkLoss port => Sys2Proof.Machine.execStackLinkLoss port s
  | .macQueueParityError port => Sys2Proof.Machine.execMacQueueParityError port s
  | .nvmOperationComplete res => Sys2Proof.Machine.execNvmOperationComplete res s
  | .ptpAnnounceRx d m => Sys2Proof.Machine.execPtpAnnounceRx d m s
  | .pdelayReqRx d t2 t3 => Sys2Proof.Machine.execPdelayReqRx d t2 t3 s
  | .groupDisable g => Sys2Proof.Machine.execGroupDisable g s
  | .invalidDatagramRx rx => Sys2Proof.Machine.execInvalidDatagramRx rx s
  | .arpNdpRequest port v6 addr => Sys2Proof.Machine.execArpNdpRequest port v6 addr s
  | .testPortInstruction instr => Sys2Proof.Machine.execTestPortInstruction instr s

end Sys2Proof.Machine
end

