-- ==== Sys2Proof/Machine/Step.lean ====
section
/-! DEFINITION. Step.lean: one step of the hub: the command at the front of the queue, or one tick of its clock on an
empty queue (log 2). -/
namespace Sys2Proof.Machine

/-- One step: the command at the front of the queue runs on the state with the rest of the queue; with no command
waiting one tick passes (log 2). -/
def step (s : State) : Host.Outcome State Fault Refusal :=
  match s.pending with
  | [] => s.idleStep
  | c :: rest => exec c { s with pending := rest }

/-- The opcode table gives its rows no bits, so no word spells a command and the state stays (log 9). -/
def State.withFetchWord (s : State) (_nbits _w : Nat) : State := s

end Sys2Proof.Machine
end

