-- ==== Sys2Proof/Safety.lean ====
section
/-! DEFINITION. Safety.lean: the terms in which statements speak of a run: which registers an event may change, the newest record
of the log, what is out of service for the life of the part, the legal changes of mode, and the form of a state's data. -/
namespace Sys2Proof.Machine

/-- The registers an event may change: LOG_SEQ, LOG_ALERT and LOG_LOST (R410, R412). -/
def eventRegs : List Nat := [R.LOG_SEQ, R.LOG_ALERT, R.LOG_LOST]

/-- Every register but the listed ones reads as before. -/
def RegsBut (s t : State) (l : List Nat) : Prop := ∀ a, a ∉ l → t.rd a = s.rd a

/-- The newest record in staging is of an event and a source (R407, R410). -/
def Newest (s : State) (code source : Nat) : Prop := ∃ r rs, s.log.staged = r :: rs ∧ r.code = code ∧ r.source = source

/-- Staging has room for `n` more records (R410). -/
abbrev State.logRoom (s : State) (n : Nat) : Prop := s.log.staged.length + n ≤ Config.stagingSlots

/-- The register file and every byte memory are in their canonical form (log 3). -/
def State.canonical (s : State) : Prop :=
  Regs.canon s.regs = true ∧ Mem.canon 0 s.dram = true ∧ Mem.canon 0 s.net8 = true ∧ Mem.canon 0 s.stk.poolMem = true
    ∧ Mem.canon nvmErased s.part.nvm0 = true ∧ Mem.canon nvmErased s.part.nvm1 = true

/-- What the part has lost, used up or burned for its life stays so (R18, R42, R110, R119, R151, R219, R273, R299, R306, R353, R387,
R390, R391, R419): `q` is the part at some later time. -/
structure Part.Lasts (p q : Part) : Prop where
  serial : q.serial = p.serial
  mac : q.mac = p.mac
  hmacKeys : q.hk = p.hk
  imageKeys : q.ik = p.ik
  hmacRevoked : p.hkRev &&& q.hkRev = p.hkRev
  imageRevoked : p.ikRev &&& q.ikRev = p.ikRev
  antiRollback : p.arb &&& q.arb = p.arb
  tombstones : p.tombs <+: q.tombs
  flashLost : ∀ f, p.nvmOk.getD f false = false → q.nvmOk.getD f false = false
  slices : p.slices ⊆ q.slices
  channels : p.lostCh ⊆ q.lostCh
  converters : p.convs ⊆ q.convs
  groups : p.lostGrp ⊆ q.lostGrp
  cores : p.retired ⊆ q.retired
  pins : p.ilkOut &&& q.ilkOut = p.ilkOut
  uplinks : p.linkOos ⊆ q.linkOos
  limp : p.limp &&& q.limp = p.limp
  rows : p.rowsUsed ≤ q.rowsUsed
  lanes : p.lanes ⊆ q.lanes

/-- The changes of mode that R42 lists, and no change. A trim that follows LOAD may end in HOLD in its first tick (R349). -/
def modeMay : Mode → Mode → Bool
  | _, .load => true
  | .load, .dormant => true
  | .load, .trim => true
  | .load, .hold => true
  | .trim, .run => true
  | .trim, .limp => true
  | .trim, .hold => true
  | .run, .trim => true
  | .run, .limp => true
  | .run, .hold => true
  | .limp, .trim => true
  | .limp, .run => true
  | .limp, .hold => true
  | a, b => a == b

/-- A request that the hub serves now and has not answered before (R275, R286, R291, R292): it names this hub, came in on a port that runs,
and, where the steward serves its operation, meets no restart. -/
structure State.Serves (s : State) (typ : Nat) (r : Req) (steward : Bool) : Prop where
  powered : s.sys.porst = false
  loaded : s.sys.mode ≠ .load
  port : r.svc = true ∨ s.portReady r.port = true
  named : s.names r = true
  steward : steward = true → s.sys.steward = true
  new : s.kept typ r = none

/-- A stack port that is up and waits for no acknowledgement. -/
abbrev State.portQuiet (s : State) (x : Nat) : Prop := (s.stkPort x).up = true ∧ (s.stkPort x).replay = [] ∧ (s.stkPort x).waiting = []

/-- The packet in which a payload of at most 1,024 words leaves stack port `x` for the hub at a position (R307, R308). -/
def State.packet (s : State) (x seq kind dest : Nat) (words : List Word) : Tx :=
  { port := 3 + x, kind := .packet, seq := seq, words := words
    stk := some { kind := kind, cls := kindClass kind, dest := dest, src := s.sys.pos, last := true, seq := (s.stkPort x).linkSeq, ack := (s.stkPort x).ackSeq } }

/-- A request has been answered with the words of a response (R291, R300, R323): the response went out where the request came in, back to the
ringmaster in packets on the stack port where it came through one, and is kept. -/
def Answered (t : State) (typ : Nat) (r : Req) (words : List Word) : Prop :=
  let k : Resp := { src := srcKey r, typ := typ, seq := r.seq, words := words, port := r.port, v6 := r.v6 }
  let bytes := (t.respHead k).bytes words
  t.net.resps.head? = some k ∧
    (r.svc = false → r.port < 3 → t.net.out.head? = some (t.respTx k)) ∧
    (r.svc = false → 3 ≤ r.port → (t.stk.ports.val {} (r.port - 3)).up = true → ∃ l : List Tx,
      l ≠ [] ∧ l <:+ (t.stk.ports.val {} (r.port - 3)).replay ++ (t.stk.ports.val {} (r.port - 3)).waiting ∧ (l.map (·.words)).flatten = bytesWords bytes ∧
      ∀ p ∈ l, ∃ h, p.stk = some h ∧ h.kind = 8 ∧ h.dest = 0) ∧
    (r.svc = true → t.net.svcState = 2 ∧ t.net.svcResp = bytes ∧ t.net.svcPos = 0)

end Sys2Proof.Machine
end

