-- ==== Sys2Proof/Certificates/Slice0/Obligations.lean ====
section
/-! DEFINITION. Obligations.lean: the statements for the provers. Each docstring says what its statement states and which rules of the
spec it comes from. -/
open Sys2Proof Sys2Proof.Machine

/-- A step takes the command at the front of the queue and runs it on the state with the queue's rest. -/
def Obligations.StepRunsTheFrontCommand : Prop :=
  ∀ (c : Instr) (rest : List Instr) (s : State), s.pending = c :: rest → step s = exec c { s with pending := rest }

/-- With no command waiting one tick passes (log 2): the tick number advances by one, or takes the number that the clock bus gave this frame
boundary (R312), the FRC by 500 ns until AT is set (R56), and the level of ALERT_N at the end of the tick is kept for the next (R431).
With PORST_N asserted from outside nothing runs. -/
def Obligations.EmptyQueueLetsATickPass : Prop :=
  (∀ s : State, s.pending = [] → s.sys.porst = true → s.sys.relHeld = false → ∃ t, step s = .next t ∧ t = { s with pwr := t.pwr } ∧ t.pwr.low = s.pwr.low) ∧
  (∀ s : State, s.pending = [] → s.sys.porst = false →
    ∃ t, step s = .next t ∧ t.pending = [] ∧
      (t.tick = s.tick + 1 ∨ s.onBus = true ∧ s.stk.frameNew = true ∧ s.stk.frameTick = some t.tick) ∧ t.sys.alert = s.alertNow ∧ t.sys.mode = s.sys.mode ∧
      t.part = s.part ∧ t.core = s.core ∧ t.fe = s.fe ∧ t.dram = s.dram ∧ t.jobs = s.jobs ∧
      (s.tim.atSet = false → t.tim.frc = s.tim.frc + 500 * 2 ^ 16))

/-- No command changes the queue of waiting commands. Tick numbers advance by one per tick and no command skips or repeats one (R33): only a
reset and the end of LOAD number anew. -/
def Obligations.CommandsLeaveQueueAndTick : Prop :=
  (∀ (c : Instr) (s t : State), exec c s = .next t → t.pending = s.pending) ∧
  (∀ (c : Instr) (s t : State), exec c s = .next t → s.sys.mode ≠ .load → t.sys.mode ≠ .load → t.tick = s.tick)

/-- The state after reset (R42, R45, R425, R445): LOAD with PORST_N asserted, no command waiting, ILK pins low, REPLACE_N, HOLD_N and ALERT_N
deasserted, every register at its reset word. The state after reset has the canonical form. -/
def Obligations.ResetIsLoadWithOutputsSafe : Prop :=
  (State.reset.sys.mode = .load ∧ State.reset.sys.porst = true ∧ State.reset.pending = [] ∧ State.reset.ilkPins = 0 ∧
    State.reset.replaceN = false ∧ State.reset.holdN = false ∧ State.reset.alertN = false ∧ (∀ a, State.reset.rd a = resetWord a)) ∧
  (State.reset.canonical)

/-- The register file and every byte memory stay in their canonical form, in every step. -/
def Obligations.StepKeepsTheCanonicalForm : Prop :=
  ∀ s t : State, s.canonical → step s = .next t → t.canonical

/-- What the part has lost, used up or burned stays so in every step, through resets as well (R18, R42, R110, R387). -/
def Obligations.PartLossesLastForLife : Prop :=
  ∀ s t : State, step s = .next t → s.part.Lasts t.part

/-- The mode changes only as R42 lists, whatever the command. -/
def Obligations.ModeChangesOnlyAsListed : Prop :=
  ∀ s t : State, step s = .next t → modeMay s.sys.mode t.sys.mode = true

/-- After a command that raises case n of R434 the hub stops; only the listed cases are raised. -/
def Obligations.FaultsAreUncheckedCases : Prop :=
  ∀ (c : Instr) (s : State), s.sys.unchecked = none → (∃ t, exec c s = .next t) ∨ (∃ n, 1 ≤ n ∧ n ≤ 8 ∧ exec c s = .fault (.uncheckedCase n))

/-- A register field reads what was put into it, cut to its width, and no other register and no other bit of its register changes. The bytes
of a memory read as last written, every other byte as before, and the canonical form stays. -/
def Obligations.RegistersAndMemoriesReadAsWritten : Prop :=
  (∀ (s : State) (f g : Fld) (v : Nat), f.lo + f.len ≤ 32 →
    (s.put f v).get f = v % 2 ^ f.len ∧
    (g.addr ≠ f.addr ∨ g.lo + g.len ≤ f.lo ∨ f.lo + f.len ≤ g.lo → (s.put f v).get g = s.get g) ∧
    (s.put f v) = { s with regs := (s.put f v).regs }) ∧
  (∀ (d : Byte) (m : List Host.Cell) (a : Nat) (bs : List Byte),
    (∀ i, i < bs.length → Mem.read d (Mem.write d m a bs) (a + i) = bs.getD i d) ∧
    (∀ b, b < a ∨ a + bs.length ≤ b → Mem.read d (Mem.write d m a bs) b = Mem.read d m b) ∧
    (Mem.canon d m = true → Mem.canon d (Mem.write d m a bs) = true))

/-- PORST_ASSERT (R42, R445): LOAD with the outputs safe; nothing is kept but the part, and every register outside the event recorder's reads
its reset word. PORST_RELEASE and BROWNOUT_RESET with no valid image (R55, R303, R394, R444, R445): the straps are latched, the FRC starts
at 0, LOAD begins and finds no image; a brown-out keeps no DRAM and shows its cause. -/
def Obligations.ColdResetsBeginLoad : Prop :=
  (∀ s : State, ∃ t, exec .porstAssert s = .next t ∧ t.sys.mode = .load ∧ t.sys.porst = true ∧ t.ilkPins = 0 ∧ t.tick = 0 ∧
    t.tim = {} ∧ t.dram = [] ∧ t.net8 = [] ∧ t.core = {} ∧ t.cal = {} ∧ t.hist = {} ∧ t.jobs = [] ∧ t.sid = [] ∧
    t.net = { out := s.net.out } ∧ t.pending = s.pending ∧ s.part.Lasts t.part ∧ (∀ a, a ∉ eventRegs → t.rd a = resetWord a)) ∧
  (∀ (pos : BitVec 4) (adr : BitVec 2) (s : State), s.sys.porst = true → s.sys.relHeld = false → s.suppliesStand = true → s.nvmq = [] → s.bootChoice = none →
    ∃ t, exec (.porstRelease pos adr) s = .next t ∧ t.sys.porst = false ∧ t.sys.mode = s.sys.mode ∧ t.sys.pos = pos.toNat ∧
      t.sys.svcAddr = adr.toNat ∧ t.sys.load = .noImage ∧ t.sys.steward = true ∧ t.tim.frc = 0 ∧ t.tick = 0 ∧ t.dram = [] ∧
      t.get F.SYS_RESET_CAUSE_CAUSE = 0) ∧
  (∀ (pos : BitVec 4) (adr : BitVec 2) (s : State), s.sys.porst = true → s.sys.relHeld = false → s.suppliesStand = false →
    ∃ t, exec (.porstRelease pos adr) s = .next t ∧ t = { s with sys := t.sys } ∧ t.sys.porst = true ∧ t.sys.relHeld = true ∧ t.sys.pos = pos.toNat) ∧
  (∀ (rows : BitVec 8) (s : State), s.sys.porst = false → s.nvmq = [] → s.bootChoice = none →
    ∃ t, exec (.brownoutReset rows) s = .next t ∧ t.sys.mode = .load ∧ t.sys.porst = false ∧ t.ilkPins = 0 ∧ t.sys.load = .noImage ∧
      t.dram = [] ∧ t.tick = 0 ∧ t.get F.SYS_RESET_CAUSE_CAUSE = 1 ∧ t.get F.SYS_RESET_CAUSE_SUPPLY = rows.toNat)

/-- LOAD_END and LOCK_WAIT_END (R42, R44, R72, R157): without an image the hub enters DORMANT; with one, once every slow input is checked and
read, it ends LOAD at once, or waits for a lock where the image sets a wait and no domain qualifies. AT is set as LOAD ends. -/
def Obligations.LoadEnds : Prop :=
  (∀ s : State, s.sys.porst = false → s.sys.mode = .load → s.sys.load = .noImage →
    ∃ t, exec .loadEnd s = .next t ∧ t.sys.mode = .dormant ∧ t.tim.atSet = true ∧ t.part = s.part ∧ t.ilkPins = 0) ∧
  (∀ s : State, s.sys.porst = false → s.sys.mode = .load → s.sys.load = .running → s.idLoaded = true → s.get F.UPD_LOAD_WAIT = 0 →
    ∃ t, exec .loadEnd s = .next t ∧ t.sys.mode = .load ∧ t.sys.load = .done ∧ t.tim.atSet = true ∧ t.sys.loadEnd = t.tick) ∧
  (∀ s : State, s.sys.porst = false → s.sys.mode = .load → s.sys.load = .running → s.idLoaded = true → 0 < s.get F.UPD_LOAD_WAIT →
    s.qualified 0 = false → s.qualified 1 = false →
    ∃ t, exec .loadEnd s = .next t ∧ t.sys = { s.sys with load := .waitingLock, waitFrom := s.tick } ∧ t.tim = s.tim ∧ t.tick = s.tick) ∧
  (∀ s : State, s.sys.mode = .load → s.sys.load = .waitingLock →
    s.qualified 0 = true ∨ s.qualified 1 = true ∨ s.sys.waitFrom + s.get F.UPD_LOAD_WAIT * 2000000 ≤ s.tick →
    ∃ t, exec .lockWaitEnd s = .next t ∧ t.sys.mode = .load ∧ t.sys.load = .done ∧ t.tim.atSet = true ∧ t.sys.loadEnd = t.tick)

/-- SYS_WARM_RESET, WARM_RESET_EXECUTE and UPDATE_RESET (R42, R48): the write schedules the reset 100 ms later; it takes place no earlier,
keeps the DRAM but for the top 16 MiB in which LOAD stages an image, AT, the tick number and the sequence of the log, ends every session
and job, and shows its cause. Where no slot holds a valid image LOAD finds none. -/
def Obligations.WarmResetKeepsDramAndTime : Prop :=
  (∀ (svc : Bool) (key : Nat) (s : State), s.sys.porst = false → s.sys.mode ≠ .load → s.sys.resetAt = none → s.logRoom 3 →
    ∃ t, exec (.sysWarmReset svc key) s = .next t ∧ t.sys = { s.sys with resetAt := some (s.tick + 200000) } ∧
      Newest t Ev.WARM_RESET (evSource 0 0) ∧ t = { s with sys := t.sys, sid := t.sid, log := t.log, regs := t.regs } ∧ RegsBut s t eventRegs) ∧
  (∀ s : State, s.resetDue false = true → s.nvmq = [] → s.bootChoice = none →
    ∃ t, exec .warmResetExecute s = .next t ∧ t.sys.mode = .load ∧ t.sys.load = .noImage ∧ t.ilkPins = 0 ∧ t.tick = s.tick ∧
      (∀ a, a < imageStage ∨ imageStage + 2 ^ 24 ≤ a → Mem.read 0 t.dram a = Mem.read 0 s.dram a) ∧
      t.tim.atVal = s.tim.atVal ∧ t.tim.frc = s.tim.frc ∧ t.tim.views = s.tim.views ∧ t.net.sessions = [] ∧ t.jobs = [] ∧
      (s.sys.chg = none → ∀ r, r ∈ s.log.staged → ∃ x, x ∈ t.log.staged ∧ x.seq = r.seq ∧ x.code = r.code) ∧
      (s.sys.chg = none → s.logMerged = [] → 0 < s.log.next → s.log.next < 2 ^ 32 → s.logRoom 8 →
        t.log.next = (s.log.next + (t.log.staged.length - s.log.staged.length)) % 2 ^ 32) ∧
      t.get F.SYS_RESET_CAUSE_CAUSE = 2) ∧
  (∀ s : State, s.resetDue true = true → s.nvmq = [] → s.bootChoice = none →
    ∃ t, exec .updateReset s = .next t ∧ t.sys.mode = .load ∧ t.sys.load = .noImage ∧ t.ilkPins = 0 ∧ t.tick = s.tick ∧
      (∀ a, a < imageStage ∨ imageStage + 2 ^ 24 ≤ a → Mem.read 0 t.dram a = Mem.read 0 s.dram a) ∧
      t.tim.atVal = s.tim.atVal ∧ t.tim.frc = s.tim.frc ∧ t.tim.views = s.tim.views ∧ t.net.sessions = [] ∧ t.jobs = [] ∧
      (s.sys.chg = none → ∀ r, r ∈ s.log.staged → ∃ x, x ∈ t.log.staged ∧ x.seq = r.seq ∧ x.code = r.code) ∧
      (s.sys.chg = none → s.logMerged = [] → 0 < s.log.next → s.log.next < 2 ^ 32 → s.logRoom 8 →
        t.log.next = (s.log.next + (t.log.staged.length - s.log.staged.length)) % 2 ^ 32) ∧
      t.get F.SYS_RESET_CAUSE_CAUSE = 3) ∧
  (∀ (T : Nat) (s : State), s.sys.resetAt = some T → s.tick < T → exec .warmResetExecute s = .next s ∧ exec .updateReset s = .next s)

/-- SYS_TRIM_REQ, TRIM_START, TRIM_END and LIMP_RETURN_TO_RUN (R42, R47, R117, R360): a request waits for the next frame boundary and a second
one is refused; the trim takes 364,000 ticks; RUN or LIMP follows with every vote at trip; with the last cause gone LIMP ends at the next
frame boundary, unless a trim is due there. -/
def Obligations.TrimAndReturnToRun : Prop :=
  (∀ s : State, s.sys.porst = false → s.running = true → s.sys.trimPend = none →
    exec .sysTrimReq s = .next { s with sys := { s.sys with trimPend := some s.tick } }) ∧
  (∀ s : State, s.sys.porst = false → s.running = true → s.sys.trimPend.isSome = true →
    exec .sysTrimReq s = .next (s.flag F.SYS_ALERT_WR_REFUSED)) ∧
  (∀ (c : Nat) (s : State), s.running = true → s.tick % 2000 = 0 → s.bumping = false → s.sys.trimPend = some c →
    c < s.tick → s.sys.unchecked = none →
    ∃ t, exec (.trimStart [] []) s = .next t ∧ t.sys.mode = .trim ∧ t.cal.trimStart = some s.tick ∧ t.sys.trimPend = none ∧ t.ilkPins = 0 ∧
      t.tick = s.tick ∧ t.part = s.part) ∧
  (∀ (codes : List ConvCodes) (f : Nat) (s : State), s.sys.mode = .trim → s.cal.trimStart = some f → f + 364000 ≤ s.tick → s.tick % 2000 = 0 →
    ∃ t, exec (.trimEnd codes) s = .next t ∧ t.sys.mode = (if t.limpBits = 0 then .run else .limp) ∧ t.cal.trimStart = none ∧ t.core.votes = 0 ∧
      (∀ p, p < 16 → t.backupVote p = false)) ∧
  (∀ (e : Nat) (s : State), s.sys.limpEnd = some e → e < s.tick → s.sys.mode = .limp → s.limpBits = 0 → s.tick % 2000 = 0 → s.trimDue = false → s.logRoom 4 →
    ∃ t, exec .limpReturnToRun s = .next t ∧
      t.sys = { s.sys with mode := .run, prev := .limp, limpEnd := none, chg := some ⟨s.tick, .limp, s.sys.prev, 0x14, s.log.next⟩ } ∧
      t.red = { s.red with drillFrom := some (s.red.drillFrom.getD s.tick) } ∧
      Newest t Ev.MODE_CHANGE (evSource 0 0) ∧ t = { s with sys := t.sys, red := t.red, upd := t.upd, log := t.log, regs := t.regs } ∧ RegsBut s t eventRegs)

/-- SUPPLY_WARNING and BRACING_END (R50, R51, R52, R54, R55): bracing begins with the first reading below the warning level, marks samples
with DIP for a supply of the rows that do so, goes on while a reading is not above the resume level, and ends with one record of the event
64 ticks after the last such reading. A supply below its reset level resets the hub, that of a core counts as the core's failure.
SYS_SHUTDOWN and SHUTDOWN_COMPLETE (R432): the write starts the write-backs and clears SAFE_OFF; SAFE_OFF is set when nothing is pending,
or after 120 s, when what is pending is given up. -/
def Obligations.SuppliesBraceAndShutDown : Prop :=
  (∀ (row mV : Nat) (s : State), row < 9 → s.sys.porst = false → s.belowWarning row mV = true → s.belowReset row mV = false →
    s.pwr.bracing = none ∨ s.bracingNow = true →
    ∃ t, exec (.supplyWarning row mV) s = .next t ∧ t = { s with pwr := t.pwr } ∧ t.pwr.bracing = some (s.pwr.bracing.getD s.tick) ∧
      t.pwr.crossed = s.pwr.crossed ||| BitVec.ofNat 8 (2 ^ supplyRow row) ∧ t.pwr.lastLow = s.tick ∧
      t.pwr.lows.look row = some (match s.pwr.lows.look row with | some v => min v mV | none => mV) ∧
      t.pwr.dipFrom = (if row < 4 then some (s.pwr.dipFrom.getD s.tick) else s.pwr.dipFrom)) ∧
  (∀ (row mV : Nat) (s : State), row < 9 → s.sys.porst = false → s.belowWarning row mV = false → s.belowResume row mV = true →
    s.bracingNow = true →
    exec (.supplyWarning row mV) s =
      .next { s with pwr := { s.pwr with lastLow := s.tick, low := row :: s.pwr.low.filter (fun r => r != row), okTicks := 0 } }) ∧
  (∀ (row mV : Nat) (s : State), row < 7 → s.sys.porst = false → s.belowReset row mV = true → s.nvmq = [] → s.bootChoice = none →
    ∃ t, exec (.supplyWarning row mV) s = .next t ∧ t.sys.mode = .load ∧ t.sys.load = .noImage ∧ t.ilkPins = 0 ∧ t.dram = [] ∧ t.tick = 0 ∧
      t.get F.SYS_RESET_CAUSE_CAUSE = 1 ∧ t.get F.SYS_RESET_CAUSE_SUPPLY = 2 ^ row) ∧
  (∀ (mV : Nat) (s : State), s.sys.porst = false → s.belowReset 7 mV = true →
    exec (.supplyWarning 7 mV) s = exec (.coreSupplyReset .a) ((s.noteSupply 7 mV).brace 7 mV)) ∧
  (∀ (mV : Nat) (s : State), s.sys.porst = false → s.belowReset 8 mV = true →
    exec (.supplyWarning 8 mV) s = exec (.coreSupplyReset .b) ((s.noteSupply 8 mV).brace 8 mV)) ∧
  (∀ (b : Nat) (s : State), s.pwr.bracing = some b → s.pwr.lastLow + 64 ≤ s.tick →
    ∃ t, exec .bracingEnd s = .next t ∧ t.pwr.bracing = none ∧ t.pwr.dipFrom = none ∧ t.pwr.lows = [] ∧ t.pwr.crossed = 0 ∧
      t.pwr.dips = (match s.pwr.dipFrom with | some f => (f, s.pwr.lastLow + 64) :: s.pwr.dips | none => s.pwr.dips).take 32 ∧
      t.sys = s.sys ∧ t.tick = s.tick ∧ t.fe = s.fe ∧ t.core = s.core ∧
      (s.pwr.arbTo = 0 → s.pwr.ikBurn = 0 → s.pwr.hkBurn = 0 → s.net.sessions = [] → s.logRoom 5 → Newest t Ev.SUPPLY_DIP (evSource 0 0))) ∧
  (∀ s : State, s.served = true → ∃ t, exec .sysShutdown s = .next t ∧ t.sys = { s.sys with shut := some s.tick, safeOff := false } ∧
      t = { s with sys := t.sys, sid := t.sid } ∧ (∀ ch, s.tracked ch = true → (s.sid.look ch).isSome = true → (t.sid.val {} ch).wbDue = true)) ∧
  (∀ (b : Nat) (s : State), s.sys.shut = some b → s.wbPending = 0 → s.logSettled = true → s.logRoom 2 →
    ∃ t, exec .shutdownComplete s = .next t ∧ t.sys = { s.sys with shut := none, safeOff := true } ∧ Newest t Ev.SHUTDOWN (evSource 0 0) ∧
      t = { s with sys := t.sys, log := t.log, regs := t.regs }) ∧
  (∀ (b : Nat) (s : State), s.sys.shut = some b → b + 240000000 ≤ s.tick →
    ∃ t, exec .shutdownComplete s = .next t ∧ t.sys.shut = none ∧ t.sys.safeOff = true ∧ t.wbPending = 0)

/-- STEWARD_WATCHDOG_EXPIRY and STEWARD_RESUME (R14, R15): the restart ends every session and management goes unanswered until the steward
serves again; a fourth restart within 60 s asserts ALERT_N. THERMAL_EVENT (R456): the temperature shows in SYS_ENV, ALERT_N follows its
two thresholds, and an excess over 105 °C is logged once, when it has lasted 1 s; nothing is throttled. DRAM_REFRESH_CHANGE,
DRAM_ROW_REPAIR and ECC_CORRECTABLE_ERROR (R8, R18, R21, R219): the refresh interval follows the temperature; the row that is due is
repaired and counts, and with no row left the hub is in LIMP for that class; a corrected error advances its memory's counter, counts for
its row and is logged. -/
def Obligations.HousekeepingIsRecorded : Prop :=
  (∀ s : State, s.sys.porst = false → s.sys.steward = true →
    ∃ t, exec .stewardWatchdogExpiry s = .next t ∧ t.sys.steward = false ∧ t.net.sessions = [] ∧ t.net.chals = [] ∧
      t.sys.restarts = s.tick :: s.sys.restarts.filter (fun r => decide (s.tick < r + 120000000)) ∧
      (3 ≤ (s.sys.restarts.filter (fun r => decide (s.tick < r + 120000000))).length → t.on F.SYS_ALERT_STEWARD = true) ∧
      t.core = s.core ∧ t.fe = s.fe ∧ t.dram = s.dram ∧ t.red = s.red ∧ t.tick = s.tick) ∧
  (∀ s : State, s.sys.porst = false → s.sys.restarts ≠ [] → s.sys.steward = false →
    ∃ t, exec .stewardResume s = .next t ∧ t.sys = { s.sys with steward := true } ∧ t = { s with sys := t.sys, cal := t.cal, sid := t.sid }) ∧
  (∀ (tj : Int) (sensor : Nat) (s : State), s.sys.porst = false →
    ∃ t, exec (.thermalEvent tj sensor) s = .next t ∧ t = { s with pwr := t.pwr, regs := t.regs, log := t.log } ∧
      t.get F.SYS_ENV_TJ = (tj % 65536).toNat ∧ (1100 < tj → t.pwr.hot = true) ∧ (tj < 1050 → t.pwr.hot = false) ∧
      (1050 ≤ tj → tj ≤ 1100 → t.pwr.hot = s.pwr.hot) ∧ (1050 < tj → t.pwr.hotFrom = some (s.pwr.hotFrom.getD s.tick)) ∧
      (tj ≤ 1050 → t.pwr.hotFrom = none ∧ t.pwr.hotNoted = false ∧ t.log = s.log) ∧ (s.pwr.hotNoted = true → t.log = s.log)) ∧
  (∀ (tj : Int) (sensor f : Nat) (s : State), s.sys.porst = false → 1050 < tj → s.pwr.hotFrom = some f → f + 2000000 ≤ s.tick →
    s.pwr.hotNoted = false → s.logRoom 3 →
    ∃ t, exec (.thermalEvent tj sensor) s = .next t ∧ t.pwr.hotNoted = true ∧ Newest t Ev.THERMAL (evSource 0 0) ∧
      RegsBut s t (R.SYS_ENV :: eventRegs)) ∧
  (∀ (temp : Int) (s : State), s.sys.porst = false →
    ∃ t, exec (.dramRefreshChange temp) s = .next t ∧ t = { s with regs := t.regs } ∧
      (95 ≤ temp → t.get F.HST_DRAM_REFI = 2) ∧ (85 ≤ temp → temp ≤ 93 → t.get F.HST_DRAM_REFI = 1) ∧ (temp ≤ 83 → t.get F.HST_DRAM_REFI = 0) ∧
      t.get F.HST_DRAM_TEMP = (temp % 256).toNat) ∧
  (∀ (row : Nat) (s : State), s.sys.porst = false → s.rowDue = some row → s.part.rowsUsed < 63 →
    ∃ t, exec (.dramRowRepair false) s = .next t ∧ t = { s with regs := t.regs, part := t.part, sys := t.sys } ∧
      t.sys = { s.sys with eccRows := t.sys.eccRows } ∧ (∀ k, (0, row, k) ∉ t.sys.eccRows) ∧
      t.part = { s.part with rowsUsed := s.part.rowsUsed + 1 } ∧ t.get (F.SYS_SPAREc_USED 5) = min 4095 (s.get (F.SYS_SPAREc_USED 5) + 1)) ∧
  (∀ (row : Nat) (s : State), s.sys.porst = false → s.rowDue = some row → s.part.rowsUsed < 64 →
    ∃ t, exec (.dramRowRepair true) s = .next t ∧ t.part.rowsUsed = s.part.rowsUsed + 1 ∧ t.limpBits.testBit 5 = true ∧
      t.on (F.SYS_SPAREc_EXH 5) = true ∧ (s.sys.mode = .run → t.sys.mode = .limp)) ∧
  (∀ (mem : Nat) (adr : Word) (s : State), s.sys.porst = false → mem ≠ 1 → mem ≠ 2 → s.logRoom 3 →
    ∃ t, exec (.eccCorrectableError mem adr) s = .next t ∧ t.sys.eccCnt.val 0 mem = s.sys.eccCnt.val 0 mem + 1 ∧
      t.on F.SYS_ALERT_MEM_CORR = true ∧ Newest t Ev.MEM_CORR (evSource 0 0) ∧ t.part = s.part ∧ t.dram = s.dram ∧
      (mem = 0 → t.sys.eccRows.head? = some (0, Config.memRow adr.toNat, s.tick))) ∧
  (∀ (mem : Nat) (adr : Word) (s : State), s.sys.porst = false → mem = 1 ∨ mem = 2 → 
    ∃ t, exec (.eccCorrectableError mem adr) s = .next t ∧ t.sys.eccCnt.val 0 mem = s.sys.eccCnt.val 0 mem + 1 ∧ t.dram = s.dram)

/-- EPOCH_COPY and EPOCH_COMMIT (R335 to R338): at an epoch boundary the active core's state is frozen into the buffer it names next on every
core that takes copies, and that copy counts only once its marker is written; the commit writes the marker, and nothing else about the
copy changes. A copy that is not committed by tick b + 249, or that the next boundary finds uncommitted, is a missed deadline of the
active core. -/
def Obligations.EpochsAreCopiedAndCommitted : Prop :=
  (∀ (c : CoreId) (s : State), s.red.active = some c → s.role c = .active → s.tick % 250 = 0 → s.red.bump = none → s.red.copy = none →
    s.running = true ∨ s.sys.mode = .trim →
    ∃ t, exec .epochCopy s = .next t ∧ t = { s with red := t.red, sys := t.sys } ∧ t.sys = { s.sys with freeCtr := t.sys.freeCtr } ∧
      t.red.seq = (s.red.seq + 1) % 2 ^ 32 ∧ t.red.copy = some t.red.seq ∧
      t.red.active = s.red.active ∧ t.red.roleA = s.red.roleA ∧ t.red.roleB = s.red.roleB ∧
      (∀ k, (s.role k).copies = true → ∃ e, (t.bufs k).look (t.red.seq % 2) = some e ∧ e.bound = s.tick ∧ e.seq = t.red.seq ∧
        e.serial = s.cal.cur.serial ∧ e.body = (s.coreRun (s.coreLast - s.core.pos)).core ∧ e.len ≤ 393216 ∧
        e.marker = ((s.bufs k).val {} (t.red.seq % 2)).marker) ∧
      (∀ k, (s.role k).copies = false → t.bufs k = s.bufs k)) ∧
  (∀ (q : Nat) (c : CoreId) (s : State), s.red.copy = some q → s.red.active = some c → s.red.drill = none →
    s.sys.unchecked = none → s.tick ≤ s.copyBound c q + 249 →
    ∃ t, exec .epochCommit s = .next t ∧ t.red.copy = none ∧ t.red.active = s.red.active ∧
      t.get F.RED_EPOCH_SIZE_COPY = s.tick - s.copyBound c q ∧
      (∀ e, t.newestEpoch c = some e → t.rd R.RED_EPOCH_SEQ = wd e.seq) ∧
      (∀ i e, s.red.bufA.look i = some e →
        t.red.bufA.look i = some (if e.seq = q then { e with marker := 2 ^ 32 - 1 - q % 2 ^ 32, crcOk := Config.bodyCrc 0 s.sys.freeCtr } else e)) ∧
      (∀ i e, s.red.bufB.look i = some e →
        t.red.bufB.look i = some (if e.seq = q then { e with marker := 2 ^ 32 - 1 - q % 2 ^ 32, crcOk := Config.bodyCrc 1 s.sys.freeCtr } else e)) ∧
      t.core = s.core ∧ t.fe = s.fe ∧ t.dram = s.dram ∧ t.log = s.log ∧ t.tick = s.tick) ∧
  (∀ (q : Nat) (c : CoreId) (s : State), s.red.copy = some q → s.red.active = some c → s.role c = .active → s.sys.porst = false →
    s.copyBound c q + 249 < s.tick → exec .epochCommit s = exec (.deadlineMiss .activeCore) s) ∧
  (∀ (q : Nat) (c : CoreId) (s : State), s.red.copy = some q → s.red.active = some c → s.role c = .active → s.sys.porst = false →
    s.tick % 250 = 0 → s.red.bump = none → s.running = true ∨ s.sys.mode = .trim → exec .epochCopy s = exec (.deadlineMiss .activeCore) s)

/-- CORE_FAILURE_DETECT (R333, R339, R341, R345, R346): with a standby that holds a committed epoch the standby takes the active role and
replays from that epoch with the votes frozen, the failed core leaves; without one the hub is without a core. CATCHUP_COMPLETE (R339,
R344): in the tick in which the replay catches up, and not before, the core becomes ACTIVE, the bump ends, the frozen votes go, and the
switch-over is reported with its length. -/
def Obligations.FailureHandsOverToTheStandby : Prop :=
  (∀ (cause : CoreCause) (c : CoreId) (e : EpochBuf) (s : State), s.running = true ∨ s.sys.mode = .trim → s.red.active = some c →
    s.role c = .active → s.sys.porst = false → s.role (coreOther c) = .standby → s.newestEpoch (coreOther c) = some e → s.sys.unchecked = none →
    ∃ t, exec (.coreFailureDetect cause) s = .next t ∧ t.red.active = some (coreOther c) ∧ t.role (coreOther c) = .catchup ∧
      (t.role c = .bist ∨ t.role c = .retired) ∧ t.core = e.body ∧ t.red.heldVotes.isSome = true ∧ t.red.marking = true ∧ t.red.copy = none ∧
      (∃ b, t.red.bump = some b ∧ b.d = s.tick ∧ b.f = s.tick - causeDelay cause ∧ b.bstar = e.bound ∧ b.planned = false) ∧
      t.get (F.RED_COREx_STAT_CAUSE (coreNum c)) = causeCode cause ∧ t.fe = s.fe ∧ t.dram = s.dram ∧ t.tick = s.tick) ∧
  (∀ (cause : CoreCause) (c : CoreId) (s : State), cause ≠ .heartbeat → s.running = true ∨ s.sys.mode = .trim → s.red.active = some c →
    s.role c = .active → s.sys.porst = false → s.role (coreOther c) = .bist ∨ s.role (coreOther c) = .proving ∨ s.role (coreOther c) = .retired → s.sys.unchecked = none →
    ∃ t, exec (.coreFailureDetect cause) s = .next t ∧ t.red.active = none ∧ t.red.bump = none ∧ t.red.noCoreAt = some (s.tick - 2) ∧
      t.on F.RED_ALERT_NOCORE = true ∧ t.limpBits.testBit 14 = true ∧ t.sys.mode ≠ .run ∧ t.fe = s.fe ∧ t.dram = s.dram) ∧
  (∀ (b : Bump) (c : CoreId) (s : State), s.red.bump = some b → s.red.active = some c → s.role c = .catchup → s.red.drill = none → b.nocore = false →
    b.catchUp ≤ s.tick → s.sys.unchecked = none → (∀ n ch, (s.coefAt n).polyBad ch = false) →
    ∃ t, exec .catchupComplete s = .next t ∧ t.role c = .active ∧ t.red.bump = none ∧ t.red.heldVotes = none ∧ t.red.marking = false ∧
      t.on F.RED_ALERT_SWITCHOVER = true ∧ t.get F.RED_BUMP_LAST = min 65535 (s.tick - b.f) ∧ t.core = (s.coreRun (s.coreLast - s.core.pos)).core)

/-- STANDBY_FAULT, CORE_SUPPLY_RESET and AVS_PMBUS_FAIL (R55, R334, R353, R443): a fault of the core that stands by sends it to BIST, or
retires it at the third in 24 h, with no switch-over; the hub is in LIMP while a core is out of service. The lockstep comparators do not
run in STANDBY: a mismatch there changes nothing. A supply failure of the active core is a failure of that core. A fault in a shared unit
never changes which core is active, nor the role of a core (R8). -/
def Obligations.StandbyFaultsDoNotSwitch : Prop :=
  (∀ (core : CoreId) (cause : CoreCause) (s : State), s.running = true → s.red.active = some (coreOther core) → s.role core = .standby →
    s.sys.porst = false → cause ≠ .lockstep → s.sys.unchecked = none →
    ∃ t, exec (.standbyFault core cause) s = .next t ∧ (t.role core = .bist ∨ t.role core = .retired) ∧ t.red.active = s.red.active ∧
      t.role (coreOther core) = s.role (coreOther core) ∧ t.red.bump = s.red.bump ∧ t.limpBits.testBit 2 = true ∧
      t.get (F.RED_COREx_STAT_CAUSE (coreNum core)) = causeCode cause ∧ t.core = s.core ∧ t.fe = s.fe ∧ t.net = s.net) ∧
  (∀ (core : CoreId) (s : State), s.running = true → s.red.active = some (coreOther core) → s.role core = .standby →
    s.sys.porst = false → s.sys.unchecked = none →
    ∃ t, exec (.coreSupplyReset core) s = .next t ∧ (t.role core = .bist ∨ t.role core = .retired) ∧ t.red.active = s.red.active ∧
      t.role (coreOther core) = s.role (coreOther core) ∧ t.red.bump = s.red.bump ∧ t.limpBits.testBit 2 = true ∧
      t.get (F.RED_COREx_STAT_CAUSE (coreNum core)) = 5 ∧ t.core = s.core ∧ t.fe = s.fe ∧ t.net = s.net) ∧
  (∀ (core : CoreId) (status : BitVec 16) (s : State), s.running = true → s.red.active = some (coreOther core) → s.role core = .standby →
    s.sys.porst = false → s.sys.unchecked = none →
    ∃ t, exec (.avsPmbusFail core status) s = .next t ∧ (t.role core = .bist ∨ t.role core = .retired) ∧ t.red.active = s.red.active ∧
      t.role (coreOther core) = s.role (coreOther core) ∧ t.red.bump = s.red.bump ∧ t.limpBits.testBit 2 = true ∧
      t.get (F.RED_COREx_STAT_CAUSE (coreNum core)) = 5 ∧ t.core = s.core ∧ t.fe = s.fe ∧ t.net = s.net) ∧
  (∀ (core : CoreId) (s : State), s.red.active = some core → exec (.coreSupplyReset core) s = exec (.coreFailureDetect .supply) s) ∧
  (∀ (c : Instr) (s t : State),
    (∃ m a, c = .eccCorrectableError m a) ∨ (∃ g, c = .dramRowRepair g) ∨ (∃ j, c = .cmpParityError j) ∨ (∃ p, c = .macQueueParityError p) ∨
      (∃ p k, c = .portLoss p k) ∨ (∃ p b, c = .linkLoopbackTest p b) ∨ (∃ p l, c = .stackLaneSpare p l) ∨ c = .stewardWatchdogExpiry ∨ c = .logMediumFail ∨
      (∃ f k, c = .logSectorSpare f k) ∨ (∃ b, c = .nvmOperationComplete b) ∨ (∃ x, c = .deadlineMiss (.sharedUnit x)) ∨ c = .poolLost ∨ c = .clockBusLoss →
    exec c s = .next t → t.red.active = s.red.active ∧ t.red.roleA = s.red.roleA ∧ t.red.roleB = s.red.roleB)

/-- DEADLINE_MISS (R37): an outvoted lane is logged; the loss of a majority also puts the hub in LIMP; the fault of a uplink takes that uplink
out for life, that of the steward restarts it, that of the compression engine fails the job in hand, and a core counts as failed.
AVS_ADJUST and AVS_MARGIN_LOW (R21, R22, R345): 5 mV steps within 0.70 to 0.90 V, downward at most once per frame and never while the hub
braces; an active core without margin at 0.90 V hands over to the standby, or runs on with an alert where there is none. -/
def Obligations.DeadlinesAndVoltagesAreWatched : Prop :=
  (∀ (block : Nat) (s : State), s.sys.porst = false → s.logRoom 1 →
    ∃ t, exec (.deadlineMiss (.tmrLane block)) s = .next t ∧ t = { s with log := t.log, regs := t.regs } ∧ RegsBut s t eventRegs ∧
      Newest t Ev.DEADLINE (evSource block 0)) ∧
  (∀ (block : Nat) (s : State), s.sys.porst = false →
    ∃ t, exec (.deadlineMiss (.tmrMajority block)) s = .next t ∧ t.on F.SYS_ALERT_DEADLINE = true ∧ t.limpBits.testBit 10 = true ∧
      (s.sys.mode = .run → t.sys.mode = .limp) ∧ t.red = s.red ∧ t.core = s.core) ∧
  (∀ (x : Nat) (s : State), s.sys.porst = false → x < 2 →
    ∃ t, exec (.deadlineMiss (.sharedUnit (.uplink x))) s = .next t ∧ x ∈ t.part.linkOos ∧ t.red.active = s.red.active) ∧
  (∀ s : State, s.sys.porst = false → exec (.deadlineMiss (.sharedUnit .steward)) s = exec .stewardWatchdogExpiry s) ∧
  (∀ (k : Nat) (s : State), s.sys.porst = false → exec (.deadlineMiss (.sharedUnit (.compression k))) s = exec (.cmpParityError k) s) ∧
  (∀ (c : CoreId) (s : State), s.sys.porst = false → s.red.active = some c → s.role c = .active →
    exec (.deadlineMiss .activeCore) s = exec (.coreFailureDetect .deadline) s) ∧
  (∀ (c : CoreId) (s : State), s.sys.porst = false → s.red.active = some c → s.role c = .active → s.role (coreOther c) ≠ .active →
    exec (.deadlineMiss .standbyCore) s = exec (.standbyFault (coreOther c) .deadline) s) ∧
  (∀ (core : CoreId) (s : State), s.sys.porst = false →
    ∃ t, exec (.avsAdjust core true) s = .next t ∧ t = { s with pwr := t.pwr } ∧ t.avs core = min 900 (s.avs core + 5) ∧
      t.avs (coreOther core) = s.avs (coreOther core)) ∧
  (∀ (core : CoreId) (s : State), s.sys.porst = false → s.pwr.bracing = none →
    (match core with | .a => s.pwr.downA | .b => s.pwr.downB) ≠ some (s.tick / 2000) →
    ∃ t, exec (.avsAdjust core false) s = .next t ∧ t = { s with pwr := t.pwr } ∧ t.avs core = max 700 (s.avs core - 5) ∧
      t.avs (coreOther core) = s.avs (coreOther core)) ∧
  (∀ (core : CoreId) (s : State), s.sys.porst = false → s.avs core = 900 → s.red.active = some core → s.role (coreOther core) = .standby → s.logRoom 3 →
    ∃ t, exec (.avsMarginLow core) s = .next t ∧ t.red.swapReq = some s.tick ∧ core ∈ t.red.avsOut ∧ t.red.active = some core ∧
      Newest t Ev.AVS_MARGIN (evSource 0 (coreNum core)) ∧ t = { s with red := t.red, log := t.log, regs := t.regs } ∧ RegsBut s t eventRegs) ∧
  (∀ (core : CoreId) (s : State), s.sys.porst = false → s.avs core = 900 → s.red.active = some core → s.role (coreOther core) ≠ .standby →
    ∃ t, exec (.avsMarginLow core) s = .next t ∧ t.on F.RED_ALERT_AVS = true ∧ t.red = s.red)

/-- BIST_COMPLETE, PROVING_COMPLETE, RED_RESTART (R331, R352, R353, R355): a core that passes proves itself and then stands by; one that fails
is retired for life; a restart sends the core that stands by to BIST. -/
def Obligations.CoresReturnToService : Prop :=
  (∀ (core : CoreId) (s : State), s.role core = .bist → s.sys.mode ≠ .load → s.red.active.isSome = true →
    ∃ t, exec (.bistComplete core none) s = .next t ∧ t.role core = .proving ∧ t.get (F.RED_COREx_STAT_BIST_PASS (coreNum core)) = 1 ∧
      t.red.active = s.red.active ∧ t.role (coreOther core) = s.role (coreOther core)) ∧
  (∀ (core : CoreId) (v : Nat) (s : State), s.role core = .bist → s.sys.mode ≠ .load →
    ∃ t, exec (.bistComplete core (some v)) s = .next t ∧ t.role core = .retired ∧ core ∈ t.part.retired ∧
      t.get (F.RED_COREx_STAT_BIST_PASS (coreNum core)) = 0 ∧ t.get (F.RED_COREx_STAT_CAUSE (coreNum core)) = 6 ∧
      t.role (coreOther core) = s.role (coreOther core)) ∧
  (∀ (core : CoreId) (s : State), s.role core = .bist → s.sys.mode = .load → s.primary = core → s.get (F.RED_COREx_STAT_CAUSE (coreNum core)) = 0 →
    s.red.active = none →
    ∃ t, exec (.bistComplete core none) s = .next t ∧ t.role core = .active ∧ t.red.active = some core) ∧
  (∀ (core : CoreId) (s : State), s.role core = .bist → s.sys.mode = .load → s.get (F.RED_COREx_STAT_CAUSE (coreNum core)) ≠ 0 → s.red.noCoreAt = none →
    ∃ t, exec (.bistComplete core none) s = .next t ∧ t.role core = .proving ∧ t.red.active = s.red.active ∧
      t.role (coreOther core) = s.role (coreOther core)) ∧
  (∀ (core : CoreId) (s : State), s.role core = .proving → s.roleSince core + s.holdoff ≤ s.tick →
    ∃ t, exec (.provingComplete core) s = .next t ∧ t.role core = .standby ∧ t.red.active = s.red.active ∧
      t.role (coreOther core) = s.role (coreOther core) ∧ (s.limpBits.testBit 2 = true → (s.role (coreOther core)).out = false →
        t.limpBits.testBit 2 = false)) ∧
  (∀ (core : CoreId) (s : State), s.served = true → s.role core = .standby ∨ s.role core = .proving →
    s.role (coreOther core) ≠ .standby → s.role (coreOther core) ≠ .proving →
    ∃ t, exec .redRestart s = .next t ∧ t.role core = .bist ∧ t.role (coreOther core) = s.role (coreOther core) ∧ t.red.active = s.red.active ∧
      t.limpBits.testBit 2 = true) ∧
  (∀ s : State, s.served = true → (∀ k, s.role k ≠ .standby ∧ s.role k ≠ .proving) → exec .redRestart s = .next (s.flag F.RED_ALERT_WR_REFUSED))

/-- CORE_REVERT, RED_SWAP, DRILL_DUE, PLANNED_SWAP and DRILL_END (R350 to R352, R355): a swap is asked for, begins at the next epoch boundary,
and ends when the new core has been ACTIVE for 250 ticks and committed an epoch; a request with no core standing by, or in a bump, is
refused. -/
def Obligations.PlannedSwapsWaitForTheBoundary : Prop :=
  (∀ (u : Nat) (s : State), s.red.revertAt = some u → u ≤ s.tick → s.swapReady = true → s.red.active = some (coreOther s.primary) →
    s.on F.RED_CFG_REVERT_EN = true → s.logRoom 2 →
    ∃ t, exec .coreRevert s = .next t ∧ t.red = { s.red with revertAt := none, revertReq := some s.tick } ∧
      Newest t Ev.CORE_RETURN (evSource 11 (coreNum s.primary)) ∧ t = { s with red := t.red, log := t.log, regs := t.regs } ∧ RegsBut s t eventRegs) ∧
  (∀ (core : CoreId) (s : State), s.served = true → s.role core = .standby → s.red.bump = none →
    exec .redSwap s = .next { s with red := { s.red with swapReq := some s.tick } }) ∧
  (∀ s : State, s.served = true → s.red.bump.isSome = true ∨ (s.role .a ≠ .standby ∧ s.role .b ≠ .standby) →
    exec .redSwap s = .next (s.flag F.RED_ALERT_WR_REFUSED)) ∧
  (∀ (u : Nat) (s : State), s.red.drillFrom = some u → s.on F.RED_DRILL_CFG_EN = true → u + s.get F.RED_DRILL_CFG_PERIOD * 7200000000 ≤ s.tick →
    exec .drillDue s = .next { s with red := { s.red with drillReq := true } }) ∧
  (∀ (u : Nat) (s : State), s.tick % 250 = 0 → s.running = true → s.red.swapReq = some u → u < s.tick → s.swapReady = true →
    ∃ t, exec .plannedSwap s = .next t ∧ t = { s with red := t.red } ∧ t.red.swapReq = none ∧ t.red.active = s.red.active ∧
      (∃ d, t.red.drill = some d ∧ d.bound = s.tick ∧ d.since = none)) ∧
  (∀ s : State, s.tick % 250 ≠ 0 → exec .plannedSwap s = .next s) ∧
  (∀ (d : Drill) (c : CoreId) (u : Nat) (s : State), s.red.drill = some d → s.red.active = some c → d.since = some u → u + 250 ≤ s.tick →
    s.red.seq ≠ d.seqAt → s.red.copy = none → s.role (coreOther c) = .shadow → s.red.avsOut = [] → s.logRoom 4 →
    ∃ t, exec .drillEnd s = .next t ∧ t.red.drill = none ∧ t.role (coreOther c) = .standby ∧ t.role c = s.role c ∧ t.red.active = some c)

/-- WV_LANE_OUT, WEATHERVANE_MAJORITY_LOSS and HOLD_FREEZE (R348, R349): a lane that fails its parity, or that differs from the majority in
the 4th of 16 ticks, leaves until the next LOAD and puts the hub in LIMP; without a majority it enters HOLD with every core halted; RAW,
the safety net and AUX freeze RED_HOLD_POST later. -/
def Obligations.MajorityLossHolds : Prop :=
  (∀ (lane cause : Nat) (s : State), lane < 3 → cause ≠ 1 → bitOf (s.get F.RED_WV_STAT_LANES) lane = true →
    2 ≤ popc 3 (s.get F.RED_WV_STAT_LANES - 2 ^ lane) →
    ∃ t, exec (.wvLaneOut lane cause) s = .next t ∧ t.get F.RED_WV_STAT_LANES = s.get F.RED_WV_STAT_LANES - 2 ^ lane ∧
      t.limpBits.testBit 12 = true ∧ t.on F.RED_ALERT_WV_LANE = true ∧ (s.sys.mode = .run → t.sys.mode = .limp) ∧ t.red = s.red ∧ t.core = s.core) ∧
  (∀ (lane cause : Nat) (s : State), lane < 3 → cause ≠ 1 → bitOf (s.get F.RED_WV_STAT_LANES) lane = true → s.running = true →
    popc 3 (s.get F.RED_WV_STAT_LANES - 2 ^ lane) < 2 →
    ∃ t, exec (.wvLaneOut lane cause) s = .next t ∧ t.sys.mode = .hold ∧ t.red.active = none) ∧
  (∀ (lane : Nat) (s : State), lane < 3 → s.get F.RED_WV_STAT_LANES = 7 → s.red.wvDiff = [] →
    ∃ t, exec (.wvLaneOut lane 1) s = .next t ∧ t = { s with red := t.red, regs := t.regs } ∧ t.red = { s.red with wvDiff := [(lane, s.tick)] } ∧
      t.get F.RED_WV_STAT_LANES = 7 ∧ t.get F.RED_WV_STAT_DISAGREE = min 65535 (s.get F.RED_WV_STAT_DISAGREE + 1)) ∧
  (∀ (lane : Nat) (s : State), lane < 3 → s.get F.RED_WV_STAT_LANES = 7 →
    s.red.wvDiff = [(lane, s.tick - 1), (lane, s.tick - 2), (lane, s.tick - 3)] → 3 ≤ s.tick →
    ∃ t, exec (.wvLaneOut lane 1) s = .next t ∧ t.get F.RED_WV_STAT_LANES = 7 - 2 ^ lane ∧ t.limpBits.testBit 12 = true ∧
      t.get F.RED_WV_STAT_DISAGREE = min 65535 (s.get F.RED_WV_STAT_DISAGREE + 1) ∧ (s.sys.mode = .run → t.sys.mode = .limp)) ∧
  (∀ (lane : Nat) (s : State), lane < 3 → bitOf (s.get F.RED_WV_STAT_LANES) lane = true → popc 3 (s.get F.RED_WV_STAT_LANES) < 3 → s.running = true →
    ∃ t, exec (.wvLaneOut lane 1) s = .next t ∧ t.sys.mode = .hold ∧ t.red.active = none) ∧
  (∀ s : State, s.running = true ∨ s.sys.mode = .trim →
    ∃ t, exec .weathervaneMajorityLoss s = .next t ∧ t.sys.mode = .hold ∧ t.red.active = none ∧ t.red.bump = none ∧ t.red.holdAt = some s.tick ∧
      (∀ k, t.role k = .halted ∨ t.role k = .retired) ∧ t.on F.RED_ALERT_MAJORITY = true ∧ t.holdN = true ∧ t.replaceN = true ∧ t.alertN = true ∧
      t.cal.trimStart = none ∧ t.part = s.part ∧ t.dram = s.dram) ∧
  (∀ (h : Nat) (s : State), s.red.holdAt = some h → s.sys.mode = .hold → s.red.frozen = false → h + s.get F.RED_HOLD_POST_MS * 2000 ≤ s.tick →
    ∃ t, exec .holdFreeze s = .next t ∧ t.red = { s.red with frozen := true } ∧ t.sys = s.sys ∧ t.dram = s.dram ∧ t.net8 = s.net8)

/-- R94: a raw20 word holds the code in bits 17 to 0 and the range in bits 19 and 18. -/
def Obligations.Raw20WordsHoldCodeAndRange : Prop :=
  ∀ (c : BitVec 18) (r : Nat), r < 4 → (raw20 c r).extractLsb' 0 18 = c ∧ (raw20 c r).extractLsb' 18 2 = BitVec.ofNat 2 r

/-- The range decision (R97): up one range at 0.9 of full scale or with Δu at 0.95, down one at the 64th quiet sample, within the limits;
nothing else. Normalisation (R95): the value stays within 24 bits without its most negative code, and OVR marks a clipped value or a code
at an end of the converter's range. -/
def Obligations.RangesAndValuesStayInBounds : Prop :=
  (∀ (l rmin rmax r q : Nat) (u du : Int), rmin ≤ r → r ≤ rmax →
    let d := rangeDecision l rmin rmax r q u du
    rmin ≤ d.1 ∧ d.1 ≤ rmax ∧ r ≤ d.1 + 1 ∧ d.1 ≤ r + 1 ∧ (d.1 = r + 1 → 5 * (u.natAbs : Int) < fullScale r ∧ 63 ≤ q) ∧
      (9 * fullScale r ≤ 10 * (u.natAbs : Int) → rmin < r → d.1 = r - 1) ∧ (d.1 ≠ r → d.2 = 0) ∧ (fullScale r ≤ 5 * (u.natAbs : Int) → d.2 = 0) ∧
      (19 * fullScale r ≤ 20 * ((u.natAbs : Int) + l * du.natAbs) → rmin < r → d = (r - 1, 0)) ∧
      (d.1 < r → rmin < r ∧ (9 * fullScale r ≤ 10 * (u.natAbs : Int) ∨ 19 * fullScale r ≤ 20 * ((u.natAbs : Int) + l * du.natAbs))) ∧
      (d.1 = r + 1 → ¬ (rmin < r ∧ (9 * fullScale r ≤ 10 * (u.natAbs : Int) ∨ 19 * fullScale r ≤ 20 * ((u.natAbs : Int) + l * du.natAbs)))) ∧
      (10 * (u.natAbs : Int) < 9 * fullScale r → 20 * ((u.natAbs : Int) + l * du.natAbs) < 19 * fullScale r → 5 * (u.natAbs : Int) < fullScale r →
        d = if 63 ≤ q ∧ r < rmax then (r + 1, 0) else (r, q + 1))) ∧
  (∀ (code : Int) (r : Nat) (o g : Int),
    -8388607 ≤ (normalise code r o g).1 ∧ (normalise code r o g).1 ≤ 8388607 ∧
      (code.natAbs = 131071 → (normalise code r o g).2 = true) ∧
      (code.natAbs ≠ 131071 → -8388607 ≤ rhe ((code * 4 ^ (3 - r) - o) * (2 ^ 31 + g)) (2 ^ 31) →
        rhe ((code * 4 ^ (3 - r) - o) * (2 ^ 31 + g)) (2 ^ 31) ≤ 8388607 →
        normalise code r o g = (rhe ((code * 4 ^ (3 - r) - o) * (2 ^ 31 + g)) (2 ^ 31), false)))

/-- SLICE_CONVERSION (R91, R93, R94, R105): one record of 200 words for the tick; a slice out of service carries the FAILED marker, in TRIM
every other one the TRIM marker, and a slice whose channel converts carries its code and range. SAMPLE_COLLECT (R9, R17, R35, R220): the
oldest conversion becomes a 500-byte tick record in the safety net at its tick's place, and its samples are delivered; a conversion is
collected in a later tick than its own, and a frozen hub writes nothing. -/
def Obligations.ConversionsReachTheSafetyNet : Prop :=
  (∀ (codes : List (BitVec 18)) (s : State), s.live = true →
    ∃ t w, exec (.sliceConversion codes) s = .next t ∧ t = { s with fe := t.fe, cal := t.cal } ∧ t.cal = { s.cal with trim := t.cal.trim } ∧
      (s.sys.mode ≠ .trim → s.cal.trimStart = none → t.cal = s.cal) ∧ t.fe.conv = s.fe.conv ++ [w] ∧ w.tick = s.tick ∧
      w.words.length = 200 ∧ t.fe.banks = s.fe.banks ∧ t.fe.btu = s.fe.btu ∧ t.fe.journal = s.fe.journal ∧
      (∀ i, i < 200 → i ∈ s.part.slices → w.words.getD i 0 = marker 1) ∧
      (∀ i, i < 200 → i ∉ s.part.slices → s.sys.mode = .trim → w.words.getD i 0 = marker 2) ∧
      (∀ i ch, i < 200 → i ∉ s.part.slices → s.sys.mode ≠ .trim → sliceChannel i = some ch →
        w.words.getD i 0 = if s.convertsAt ch s.tick then raw20 (clipCode (codes.getD i 0)) (s.rangeFor ch (s.fe.slices.val {} i)) else marker 0)) ∧
  (∀ (codes : List (BitVec 18)) (s : State), s.live = false → exec (.sliceConversion codes) s = .next s) ∧
  (∀ (c : ConvTick) (rest : List ConvTick) (s : State), s.fe.conv = c :: rest → c.tick < s.tick → s.red.frozen = false → c.words.length = 200 →
    ∃ t, exec .sampleCollect s = .next t ∧ t.fe.conv = rest ∧ t.netTick = some c.tick ∧ (∃ d, t.fe.dlv = some d ∧ d.tick = c.tick) ∧
      (∀ i, i < 500 → Mem.read 0 t.net8 (c.tick % 16777 * 500 + i) = (tickRecord c.words).getD i 0) ∧
      (∀ a, a < c.tick % 16777 * 500 ∨ c.tick % 16777 * 500 + 500 ≤ a → Mem.read 0 t.net8 a = Mem.read 0 s.net8 a) ∧
      t.core = s.core ∧ t.red = s.red ∧ t.part = s.part ∧ t.sys = s.sys ∧ t.tick = s.tick) ∧
  (∀ (c : ConvTick) (rest : List ConvTick) (s : State), s.fe.conv = c :: rest → c.tick < s.tick → s.red.frozen = true →
    ∃ t, exec .sampleCollect s = .next t ∧ t.fe.conv = rest ∧ t.net8 = s.net8 ∧ t.dram = s.dram ∧ t.netTick = s.netTick) ∧
  (∀ (c : ConvTick) (rest : List ConvTick) (s : State), s.fe.conv = c :: rest → s.tick ≤ c.tick → exec .sampleCollect s = .next s)

/-- SLICE_ABRUPT_FAILURE, SLICE_SUBSTITUTION, SLICE_GRADUAL_FAILURE, GRADUAL_SUBSTITUTION and SPARE_FAIL (R108 to R111): a failed slice leaves
for life; the bank's free spare serves its channel from tick n + 3, or from the next frame boundary for a gradual failure, and the journal
says so; a bank that loses its spare puts the hub in LIMP. -/
def Obligations.SparesStandInForSlices : Prop :=
  (∀ (i : Nat) (s : State), s.live = true → i < 200 → i % 25 < 24 → i ∉ s.part.slices → s.sys.mode ≠ .trim → s.spareFree (i / 25) = true →
    ∃ t, exec (.sliceAbruptFailure i) s = .next t ∧ i ∈ t.part.slices ∧ (t.fe.banks.val {} (i / 25)).input = some (i % 25) ∧
      (t.fe.banks.val {} (i / 25)).standing = true ∧ (t.fe.banks.val {} (i / 25)).liveFrom = s.tick + 3 ∧ t.on F.AFF_ALERT_SLICE_FAIL = true ∧
      t.fe.journal = s.fe.journal ∧ t.sys.mode = s.sys.mode ∧ t.core = s.core ∧ t.red = s.red) ∧
  (∀ (b i : Nat) (s : State), (s.fe.banks.val {} b).input = some i → (s.fe.banks.val {} b).pend = true → (s.fe.banks.val {} b).liveFrom ≤ s.tick →
    ∃ t, exec (.sliceSubstitution b) s = .next t ∧
      t.fe.journal = ⟨(s.fe.banks.val {} b).liveFrom, 24 * b + i, some (spareSlice b)⟩ :: s.fe.journal ∧ (t.fe.banks.val {} b).pend = false ∧
      t.part = s.part ∧ t.core = s.core) ∧
  (∀ (b i : Nat) (s : State), s.live = true → b < 8 → i < 24 → 25 * b + i ∉ s.part.slices → s.stuck (25 * b + i) = true →
    ∃ t, exec (.sliceGradualFailure b i) s = .next t ∧
      (t.fe.banks.val {} b).gradual = (s.fe.banks.val {} b).gradual ++ [(i, nextFrame s.tick)] ∧ t.part.slices = s.part.slices ∧
      t.on F.AFF_ALERT_SLICE_FAIL = true ∧ (s.spareFree b = false → t.limpBits.testBit 0 = true)) ∧
  (∀ (b i f : Nat) (s : State), (s.fe.banks.val {} b).gradual = [(i, f)] → f ≤ s.tick → i < 24 → 25 * b + i ∉ s.part.slices → s.spareFree b = true →
    ∃ t, exec (.gradualSubstitution b) s = .next t ∧ t.fe.journal = ⟨f, 24 * b + i, some (spareSlice b)⟩ :: s.fe.journal ∧
      25 * b + i ∈ t.part.slices ∧ (t.fe.banks.val {} b).standing = true ∧ (t.fe.banks.val {} b).gradual = []) ∧
  (∀ (b : Nat) (s : State), s.live = true → b < 8 → spareSlice b ∉ s.part.slices →
    ∃ t, exec (.spareFail b) s = .next t ∧ spareSlice b ∈ t.part.slices ∧ (t.fe.banks.val {} b).standing = false ∧
      t.limpBits.testBit 0 = true ∧ t.get (F.AFF_BANKb_STAT_SPARE_STATE b) = 3 ∧ (s.sys.mode = .run → t.sys.mode = .limp))

/-- BTU_EVALUATE and BTU_AUTO_PERMIT (R112, R113): every enabled unit judges the samples delivered, without the core, and a disabled one stays
as it is; a unit with one source and no persistence trips on the first sample above its limit; a tripped unit returns to permit by itself
only with LATCH 0 and after 64 counted ticks. -/
def Obligations.BackupUnitsTripOnTheirOwn : Prop :=
  (∀ (d : Delivered) (s : State), s.fe.dlv = some d →
    ∃ t, exec .btuEvaluate s = .next t ∧ t = { s with fe := t.fe, regs := t.regs, log := t.log } ∧ t.fe = { s.fe with btu := t.fe.btu } ∧
      (∀ p, p < 16 → s.on (F.AFF_BTUp_CFG_EN p) = true → (t.fe.btu.val {} p).evalTick = some d.tick ∧
        (s.backupVote p = false → t.backupVote p = false)) ∧
      (∀ p, p < 16 → s.on (F.AFF_BTUp_CFG_EN p) = false → t.fe.btu.val {} p = s.fe.btu.val {} p)) ∧
  (∀ (p : Nat) (d : Delivered) (x : FSample) (s : State), p < 16 → s.fe.dlv = some d → s.on (F.AFF_BTUp_CFG_EN p) = true →
    (s.fe.btu.val {} p).evalTick ≠ some d.tick → s.get (F.AFF_BTUp_CFG_PERSIST p) = 0 → s.btuSource p 0 < 192 → s.btuSource p 0 ∉ d.failed →
    d.samples.find? (fun e => e.1 == s.btuSource p 0) = some (s.btuSource p 0, x) → s.getI (F.AFF_BTUp_HI_VALUE p) < x.x →
    ∃ t, exec .btuEvaluate s = .next t ∧ t.backupVote p = false ∧ t = { s with fe := t.fe, regs := t.regs, log := t.log } ∧
      t.fe.conv = s.fe.conv ∧ t.fe.banks = s.fe.banks) ∧
  (∀ (p : Nat) (s : State), p < 16 → (s.fe.btu.val {} p).tripped = true → s.on (F.AFF_BTUp_CFG_EN p) = true →
    s.on (F.AFF_BTUp_CFG_LATCH p) = false → 64 ≤ (s.fe.btu.val {} p).count →
    ∃ t, exec (.btuAutoPermit p) s = .next t ∧ t.backupVote p = true ∧ (t.fe.btu.val {} p).count = 0 ∧ t.get (F.AFF_BTUp_STAT_TRIPPED p) = 0 ∧
      t = { s with fe := t.fe, regs := t.regs } ∧ RegsBut s t [R.AFF_BTUp_STAT p] ∧ (∀ q, q ≠ p → t.backupVote q = s.backupVote q))

/-- The interlock pins (R11, R45, R115, R119): low in LOAD, DORMANT and TRIM and under PORST_N; otherwise a pin permits only where its enable,
the core vote and the backup vote permit and it has not been taken out. ILK_REARM and ILK_READBACK_FAIL (R118, R119): a re-arm with both
sides clear brings both votes back to permit, one with a side that violates is refused, and the REARM bits return to 0; with the command
journal full (R342) the command is refused; a pin that reads back wrong goes low for life and the hub enters LIMP. -/
def Obligations.PinsPermitOnlyByBothVotes : Prop :=
  (∀ s : State, s.sys.porst = true ∨ s.sys.mode = .load ∨ s.sys.mode = .dormant ∨ s.sys.mode = .trim → s.ilkPins = 0) ∧
  (∀ (p : Nat) (s : State), s.sys.porst = false → s.sys.mode = .run ∨ s.sys.mode = .limp ∨ s.sys.mode = .hold → p < 16 →
    s.ilkPins.getLsbD p = (bitOf (s.get F.AFF_ILK_EN_EN) p && s.coreVotes.getLsbD p && s.backupVote p && !(s.part.ilkOut.getLsbD p))) ∧
  (∀ (pins : BitVec 16) (s : State), s.running = true → s.red.active.isSome = true → s.red.bump = none → s.journalFull = false →
    ∃ t, exec (.ilkRearm pins) s = .next t ∧
      (∀ p, p < 16 → pins.getLsbD p = true → s.backupClear p = true → s.coreClear p = true →
        t.core.votes.getLsbD p = true ∧ t.backupVote p = true) ∧
      (∀ p, p < 16 → pins.getLsbD p = false ∨ s.backupClear p = false ∨ s.coreClear p = false →
        t.core.votes.getLsbD p = s.core.votes.getLsbD p ∧ t.backupVote p = s.backupVote p) ∧
      t.get F.AFF_ILK_CTRL_REARM = s.get F.AFF_ILK_CTRL_REARM &&& (~~~pins).toNat ∧ t.part = s.part ∧ t.sys = s.sys ∧ t.dram = s.dram) ∧
  (∀ (pins : BitVec 16) (s : State), s.journalFull = true → exec (.ilkRearm pins) s = .next (s.journalRefuse F.AFF_ALERT_WR_REFUSED)) ∧
  (∀ (pins : BitVec 16) (s : State), s.sys.mode = .hold →
    ∃ t, exec (.ilkRearm pins) s = .next t ∧ t.core.votes = s.core.votes ∧ t.fe = s.fe ∧ (pins ≠ 0 → t.on F.AFF_ALERT_REARM_REFUSED = true)) ∧
  (∀ (pin : Nat) (s : State), pin < 16 → s.part.ilkOut.getLsbD pin = false → s.sys.porst = false →
    ∃ t, exec (.ilkReadbackFail pin) s = .next t ∧ t.part.ilkOut.getLsbD pin = true ∧ t.ilkPins.getLsbD pin = false ∧ t.limpBits.testBit 11 = true ∧
      t.on F.AFF_ALERT_ILK_READBACK = true ∧ (s.sys.mode = .run → t.sys.mode = .limp) ∧ t.core = s.core ∧ t.fe = s.fe)

/-- ROM_CHECK, TEMPLATE_READ and SID_NO_IDLE (R156, R164, R166): what an identity slot found decides whether a sensor is present and which; a
template comes in page by page, a bad page is read again; a check with no idle time for 30 s is reported. LIFE_WRITEBACK and SID_WB_NOW
(R163, R169): as the write's identity slot ends the counters stand in the sensor's copy with the lower sequence number, or the failure is
reported; a request marks every counted sensor. -/
def Obligations.SensorsAreFoundAndCounted : Prop :=
  (∀ (ch : Nat) (s : State), 256 ≤ ch → ch < 512 → s.idEnds ch 0 = true →
    ∃ t, exec (.romCheck ch .absent) s = .next t ∧ (t.sid.val {} ch).rom = none ∧ (t.sid.val {} ch).valid = false ∧
      t.get (F.CH_SID_STAT_PRESENT ch) = 0 ∧ 
      (t.sid.val {} ch).due = (if (s.sid.val {} ch).due ≤ s.idStart ch ∧ s.sys.mode ≠ .load then
        (s.sid.val {} ch).due + ((s.idStart ch - (s.sid.val {} ch).due) / 20000000 + 1) * 20000000 else s.idStart ch + 20000000) ∧
      (∀ k, k ≠ ch → t.sid.val {} k = s.sid.val {} k) ∧ t.core = s.core ∧
      (∀ r, (t.grp (chGrp ch)).idRun = some r → r.start = s.tick) ∧ t.slow.ident = (s.tick, ch, [0]) :: s.slow.ident) ∧
  (∀ (ch : Nat) (ident : BitVec 64) (ok : Bool) (s : State), 256 ≤ ch → ch < 512 → s.idEnds ch 0 = true →
    (s.sid.val {} ch).rom ≠ some ident.toNat →
    ∃ t, exec (.romCheck ch (.rom ident ok)) s = .next t ∧ (t.sid.val {} ch).rom = some ident.toNat ∧ (t.sid.val {} ch).reading = ok ∧
      (t.sid.val {} ch).valid = false ∧ t.get (F.CH_SID_STAT_PRESENT ch) = 1 ∧ (∀ k, k ≠ ch → t.sid.val {} k = s.sid.val {} k)) ∧
  (∀ (ch : Nat) (s : State), 256 ≤ ch → ch < 512 → s.idEnds ch 0 = true →
    ∃ t, exec (.romCheck ch .crcBad) s = .next t ∧ (t.sid.val {} ch).rom = (s.sid.val {} ch).rom ∧ (t.sid.val {} ch).due = (s.sid.val {} ch).due ∧
      t.get (F.CH_SID_STAT_PRESENT ch) = 1 ∧ (∀ k, k ≠ ch → t.sid.val {} k = s.sid.val {} k) ∧ t.core = s.core) ∧
  (∀ (ch : Nat) (page : List Byte) (s : State), 256 ≤ ch → ch < 512 → (s.sid.val {} ch).reading = true → (s.sid.val {} ch).page ≠ 7 →
    page.length = 32 → s.idEnds ch 1 = true →
    ∃ t, exec (.templateRead ch page true) s = .next t ∧ (t.sid.val {} ch).tmpl = (s.sid.val {} ch).tmpl ++ page ∧
      (t.sid.val {} ch).page = (s.sid.val {} ch).page + 1 ∧ (t.sid.val {} ch).retries = 0 ∧ t.regs = s.regs) ∧
  (∀ (ch : Nat) (page : List Byte) (s : State), 256 ≤ ch → ch < 512 → (s.sid.val {} ch).reading = true → (s.sid.val {} ch).page = 7 →
    page.length = 32 → s.idEnds ch 1 = true → tmplValid ((s.sid.val {} ch).tmpl ++ page) = true →
    ∃ t, exec (.templateRead ch page true) s = .next t ∧ (t.sid.val {} ch).valid = true ∧ (t.sid.val {} ch).reading = false ∧
      t.get (F.CH_SID_STAT_TEMPLATE ch) = 1 ∧ (∀ k, k ≠ ch → t.sid.val {} k = s.sid.val {} k)) ∧
  (∀ (ch : Nat) (page : List Byte) (s : State), 256 ≤ ch → ch < 512 → (s.sid.val {} ch).reading = true → (s.sid.val {} ch).retries < 3 →
    s.idEnds ch 1 = true →
    ∃ t, exec (.templateRead ch page false) s = .next t ∧ (t.sid.val {} ch).tmpl = (s.sid.val {} ch).tmpl ∧ (t.sid.val {} ch).reading = true ∧
      (t.sid.val {} ch).retries = (s.sid.val {} ch).retries + 1 ∧ t.regs = s.regs) ∧
  (∀ (ch : Nat) (s : State), 256 ≤ ch → ch < 512 → s.running = true → s.romDue ch = true → (s.sid.val {} ch).due + 60000000 ≤ s.tick →
    s.on (F.CH_SID_STAT_NO_IDLE ch) = false → s.logRoom 2 →
    ∃ t, exec (.sidNoIdle ch) s = .next t ∧ t.get (F.CH_SID_STAT_NO_IDLE ch) = 1 ∧ Newest t Ev.SID_NO_IDLE (evSource 4 (chGrp ch)) ∧
      t = { s with log := t.log, regs := t.regs } ∧ RegsBut s t (R.CH_SID_STAT ch :: eventRegs)) ∧
  (∀ (ch : Nat) (s : State), 256 ≤ ch → ch < 512 → (s.sid.val {} ch).wbDue = true → s.tracked ch = true → s.idEnds ch 2 = true →
    ∃ t, exec (.lifeWriteback ch true) s = .next t ∧ (t.sid.val {} ch).wbDue = false ∧
      (t.sid.val {} ch).tmpl = (s.sid.val {} ch).tmpl.take (0xA0 + 32 * tmplTarget (s.sid.val {} ch).tmpl)
        ++ copyBytes (t.sid.val {} ch).copySeq [(s.sid.val {} ch).time, (s.sid.val {} ch).cycles, (s.sid.val {} ch).charge, (s.sid.val {} ch).ovr]
        ++ (s.sid.val {} ch).tmpl.drop (0xC0 + 32 * tmplTarget (s.sid.val {} ch).tmpl) ∧
      (∀ k, k ≠ ch → t.sid.val {} k = s.sid.val {} k)) ∧
  (∀ (ch : Nat) (s : State), 256 ≤ ch → ch < 512 → (s.sid.val {} ch).wbDue = true → s.tracked ch = true → s.idEnds ch 2 = true → s.logRoom 3 →
    ∃ t, exec (.lifeWriteback ch false) s = .next t ∧ (t.sid.val {} ch).wbDue = false ∧ (t.sid.val {} ch).tmpl = (s.sid.val {} ch).tmpl ∧
      t.on F.SID_ALERT_WB_FAIL = true ∧ Newest t Ev.SID_WB_FAIL (evSource 15 ch)) ∧
  (∀ s : State, s.liveMode = true →
    ∃ t, exec .sidWbNow s = .next t ∧ t = { s with sid := t.sid } ∧ (∀ ch e, s.sid.look ch = some e → s.tracked ch = true → (t.sid.val {} ch).wbDue = true) ∧
      (∀ ch, s.tracked ch = false → t.sid.val {} ch = s.sid.val {} ch))

/-- NVM_OPERATION_COMPLETE (R51, R382): a program or an erase does to its flash what it says and to no other byte; a failed one is tried
again, and a third failure or reads that fail lose the flash; a missing SFDP is found at the next LOAD; while the hub braces an erase
waits. LOG_RECORD_TIMEOUT, LOG_PAGE_WRITE, LOST_REPORT, LOG_SECTOR_SPARE and LOG_MEDIUM_FAIL (R410, R412, R414, R418, R419): an open
record closes after 600 s; closed records go to the flashes 8 at a time; losses are reported once staging has room; a bad sector goes to a
spare; with no flash left a tombstone is burned and the hub enters LIMP. -/
def Obligations.FlashesAndLogKeepTheirRecords : Prop :=
  (∀ (o : NvmOp) (rest : List NvmOp) (s : State), s.nvmq = o :: rest → o.tries < 3 → s.sys.porst = false → s.pwr.bracing = none → o.onLog = false → o.erase = false →
    o.flash < 2 → o.why = .chunk ∨ o.why = .header → s.upd.endReq = none →
    ∃ t, exec (.nvmOperationComplete .done) s = .next t ∧ t.nvmq = rest ∧ t.flash o.flash = Mem.write nvmErased (s.flash o.flash) o.off o.data ∧
      t.flash (1 - o.flash) = s.flash (1 - o.flash) ∧ t.regs = s.regs ∧ t.log = s.log ∧ t.tick = s.tick) ∧
  (∀ (o : NvmOp) (rest : List NvmOp) (s : State), s.nvmq = o :: rest → o.tries < 3 → s.sys.porst = false → s.pwr.bracing = none → o.onLog = false → o.erase = true →
    o.flash < 2 → o.why = .chunk ∨ o.why = .header →
    ∃ t, exec (.nvmOperationComplete .done) s = .next t ∧ t.nvmq = rest ∧ (∀ a, Mem.read nvmErased (t.flash o.flash) a =
        if o.off ≤ a ∧ a < o.off + 65536 then nvmErased else Mem.read nvmErased (s.flash o.flash) a) ∧ t.flash (1 - o.flash) = s.flash (1 - o.flash)) ∧
  (∀ (o : NvmOp) (rest : List NvmOp) (s : State), s.nvmq = o :: rest → o.tries < 2 → s.sys.porst = false → s.pwr.bracing = none →
    ∃ t, exec (.nvmOperationComplete .failed) s = .next t ∧ t.nvmq = { o with tries := o.tries + 1 } :: rest ∧ t.part = s.part) ∧
  (∀ (o : NvmOp) (rest : List NvmOp) (s : State), s.nvmq = o :: rest → o.tries = 2 → s.sys.porst = false → s.pwr.bracing = none → o.onLog = false →
    s.flashOk o.flash = true →
    ∃ t, exec (.nvmOperationComplete .failed) s = .next t ∧ t.flashOk o.flash = false ∧ (∀ k, k ∈ t.nvmq → k.flash ≠ o.flash) ∧ t.limpBits.testBit 7 = true) ∧
  (∀ (f off : Nat) (s : State), f < 2 → s.flashOk f = true → s.sys.porst = false →
    ∃ t, exec (.nvmOperationComplete (.readLost f off)) s = .next t ∧ t.flashOk f = false ∧ (∀ k, k ∈ t.nvmq → k.flash ≠ f) ∧
      t.limpBits.testBit 7 = true ∧ t.on F.UPD_ALERT_NVM_FAIL = true) ∧
  (∀ (f : Nat) (s : State), f < 2 → s.sys.porst = false → s.upd.endReq = none →
    ∃ t, exec (.nvmOperationComplete (.noSfdp f)) s = .next t ∧ t = { s with part := { s.part with sfdp := t.part.sfdp } } ∧
      t.part.sfdp = s.part.sfdp.set f false) ∧
  (∀ (b : Nat) (s : State), s.log.openAt = some b → b + 1200000000 ≤ s.tick →
    ∃ t, exec .logRecordTimeout s = .next t ∧ t = { s with log := { s.log with staged := t.log.staged, openAt := none } } ∧
      t.log.staged.length = s.log.staged.length ∧ (∀ r rs, s.log.staged = r :: rs → t.log.staged = { r with closedAt := some s.tick } :: rs)) ∧
  (∀ s : State, s.sys.porst = false → 8 ≤ s.logWaiting.length → s.logBusy = false → s.pwr.bracing = none → s.logTakes 0 = true → s.logTakes 1 = true →
    ∃ t, exec .logPageWrite s = .next t ∧ t = { s with nvmq := t.nvmq, part := t.part, log := { s.log with page := (s.logWaiting.take 8).map LogRec.seq } } ∧
      t.part.carNext = (s.part.carNext + 8) % carSlots ∧
      (∀ f, f < 2 → ∃ o, o ∈ t.nvmq ∧ o ∉ s.nvmq ∧ o.flash = f ∧ o.why = .log ∧ o.erase = false ∧
        o.recs.map (fun e => e.2) = s.logWaiting.take 8 ∧ o.recs.head?.map (fun e => e.1) = some (16384 + s.part.carNext))) ∧
  (∀ (cls n b : Nat) (s : State), s.log.lost = [(cls, n, b)] → cls < 256 → s.logRoom 3 →
    ∃ t, exec .lostReport s = .next t ∧ t.log.lost = [] ∧ Newest t Ev.LOST (evSource 14 cls) ∧ t = { s with log := t.log, regs := t.regs }) ∧
  (∀ (f sec n : Nat) (o : NvmOp) (rest : List NvmOp) (s : State), f < 2 → s.nvmq = o :: rest → o.onLog = true → o.tries = 3 → o.flash = f → o.logSector = sec →
    s.part.logSpare[f]? = some n → n < 8 → s.bracingNow = false →
    ∃ t, exec (.logSectorSpare f sec) s = .next t ∧ t.nvmq = ({ s with
        part := t.part, nvmq := (if o.erase then [] else rewriteOps f sec o.why (s.sectorRecs f sec)) ++ [{ o with tries := 0 }] ++ rest }).writeLife.nvmq ∧ t.part.logSpare[f]? = some (n + 1) ∧
      (f, sec, 120 + n) ∈ t.part.sectorMap ∧ t.on F.LOG_ALERT_SPARE = true ∧ (n = 7 → t.limpBits.testBit 8 = true)) ∧
  (∀ s : State, s.logTakes 0 = false → s.logTakes 1 = false → s.sys.porst = false → s.bracingNow = false → s.log.noted = false →
    ∃ t, exec .logMediumFail s = .next t ∧ t.limpBits.testBit 13 = true ∧ t.on F.LOG_ALERT_MEDIUM = true ∧ (s.sys.mode = .run → t.sys.mode = .limp) ∧
      (s.log.tombBurned = false → s.part.tombs.length < 32 → t.part.tombs.length = s.part.tombs.length + 1) ∧
      (s.log.tombBurned = true → t.part.tombs = s.part.tombs))

/-- R391: a write of UPD_KEY.REVOKE burns the slots it names (deferred while the hub braces, R51), or is refused with ERR_RANGE and burns
nothing where it names the slot of the running image or would leave no valid slot. -/
def Obligations.ImageKeysAreBurnedOrKept : Prop :=
  (∀ (svc : Bool) (slot : Nat) (mask : BitVec 4) (s : State), mask ≠ 0 → s.pwr.bracing = none → (s.upd.runHdr = [] ∨ mask.toNat.testBit (hdrKey s.upd.runHdr) = false) →
    (List.range 4).any (fun i => s.imageKeyOk i && !(mask ||| s.pwr.ikBurn).toNat.testBit i) = true →
    (s.writeReg false svc slot R.UPD_KEY (wd (mask.toNat * 256))).1 = none ∧
      (s.writeReg false svc slot R.UPD_KEY (wd (mask.toNat * 256))).2.part = { s.part with ikRev := s.part.ikRev ||| mask }) ∧
  (∀ (svc : Bool) (slot : Nat) (mask : BitVec 4) (s : State), mask ≠ 0 →
    ((s.upd.runHdr ≠ [] ∧ mask.toNat.testBit (hdrKey s.upd.runHdr) = true) ∨
      (List.range 4).any (fun i => s.imageKeyOk i && !(mask ||| s.pwr.ikBurn).toNat.testBit i) = false) →
    s.writeReg false svc slot R.UPD_KEY (wd (mask.toNat * 256)) = (some 3, s.flag F.UPD_ALERT_WR_REFUSED))

/-- UPDATE_VERIFY_COMPLETE, UPDATE_LOCK_TIMEOUT, UPD_CONFIRM, AUTO_CONFIRM, UPD_CANCEL and NVM_SECTOR_REPAIR (R389, R399, R400, R402, R403,
R406): a slot that does not verify leaves the download open; the lock goes after 60 s; a TRIAL image is confirmed by command or after
CONFIRM_S seconds of RUN; an activation that is pending can be cancelled; a bad sector of the running slot is rewritten. IMAGE_KEY_REVOKE
and HMAC_KEY_REVOKE (R299, R391): the revoke bits of the mask are burned, never cleared; a write that would leave no valid image key, or
revokes the running image's, is refused. -/
def Obligations.UpdatesConfirmOrCancel : Prop :=
  (∀ (e : Resp) (s : State), s.upd.endReq = some e → s.upd.stage = 2 → s.sys.steward = true → s.slotImage s.inactive = none →
    ∃ t, exec .updateVerifyComplete s = .next t ∧ t.upd = { s.upd with stage := 1, endReq := none } ∧ t.on F.UPD_ALERT_REFUSED = true ∧ t.part = s.part ∧
      t.nvmq = s.nvmq) ∧
  (∀ (id : Word) (s : State), s.upd.lock = some id → s.upd.stage = 1 → s.pwr.bracing = none → s.upd.idleFrom + 120000000 ≤ s.tick → s.logRoom 2 →
    ∃ t, exec .updateLockTimeout s = .next t ∧ t.upd = { s.upd with lock := none, endReq := none, stage := 0 } ∧ t.on F.UPD_ALERT_ABORT = true ∧
      Newest t Ev.UPD_ABORT (evSource 13 0) ∧ t = { s with upd := t.upd, log := t.log, regs := t.regs }) ∧
  (∀ s : State, s.served = true → s.upd.trial = true → s.logRoom 3 →
    ∃ t, exec .updConfirm s = .next t ∧ t.upd.trial = false ∧ t.upd.burnTo = hdrArb s.upd.runHdr ∧ Newest t Ev.UPD_CONFIRMED (evSource 13 s.upd.runSlot) ∧
      t.get F.UPD_STAT_TRIES = 0 ∧ t = { s with upd := t.upd, nvmq := t.nvmq, log := t.log, regs := t.regs } ∧ RegsBut s t (R.UPD_STAT :: eventRegs)) ∧
  (∀ s : State, s.served = true → s.upd.trial = false → exec .updConfirm s = .next (s.flag F.UPD_ALERT_WR_REFUSED)) ∧
  (∀ (u : Nat) (s : State), s.upd.runFrom = some u → s.upd.trial = true → s.on F.UPD_CFG_AUTO_CONFIRM = true → s.sys.mode = .run → s.sys.steward = true →
    u + s.get F.UPD_CFG_CONFIRM_S * 2000000 ≤ s.tick → s.logRoom 3 →
    ∃ t, exec .autoConfirm s = .next t ∧ t.upd.trial = false ∧ t.upd.burnTo = hdrArb s.upd.runHdr ∧ Newest t Ev.UPD_CONFIRMED (evSource 13 s.upd.runSlot) ∧
      t = { s with upd := t.upd, nvmq := t.nvmq, log := t.log, regs := t.regs }) ∧
  (∀ s : State, s.served = true → s.activationPending = true → s.logRoom 3 →
    ∃ t, exec .updCancel s = .next t ∧ t.upd.stage = 0 ∧ Newest t Ev.UPD_CANCEL (evSource 13 s.inactive) ∧
      t = { s with upd := t.upd, nvmq := t.nvmq, log := t.log, regs := t.regs }) ∧
  (∀ s : State, s.served = true → s.activationPending = false → exec .updCancel s = .next (s.flag F.UPD_ALERT_WR_REFUSED)) ∧
  (∀ (f : Nat) (s : State), s.running = true → s.sys.steward = true → s.nvmq.any (fun o => o.why == .repair && o.flash == f) = false →
    ∃ t, exec (.nvmSectorRepair f) s = .next t ∧ t = { s with nvmq := t.nvmq } ∧
      (∀ im c, s.slotImage s.upd.runSlot = some im → im.2.2.2.find? (fun b => b.1 == f) = some (f, c) →
        t = s.nvmQueue (sectorOps .repair s.upd.runSlot im.1 im.2.1 im.2.2.1 f c)) ∧
      (s.slotImage s.upd.runSlot = none → t = s)) ∧
  (∀ (mask : BitVec 4) (s : State), s.served = true → s.pwr.bracing = none → mask ≠ 0 →
    (s.upd.runHdr != [] && mask.toNat.testBit (hdrKey s.upd.runHdr)) = false →
    (List.range 4).any (fun i => s.imageKeyOk i && !(mask ||| s.pwr.ikBurn).toNat.testBit i) = true → s.logRoom 2 →
    ∃ t, exec (.imageKeyRevoke mask) s = .next t ∧ t.part = { s.part with ikRev := s.part.ikRev ||| mask } ∧ Newest t Ev.IMG_KEY_REVOKED (evSource 13 0) ∧
      t = { s with part := t.part, log := t.log, regs := t.regs }) ∧
  (∀ (mask : BitVec 4) (s : State), s.served = true → s.upd.runHdr ≠ [] → mask.toNat.testBit (hdrKey s.upd.runHdr) = true →
    exec (.imageKeyRevoke mask) s = .next (s.flag F.UPD_ALERT_WR_REFUSED)) ∧
  (∀ (mask : BitVec 4) (s : State), s.served = true → s.pwr.bracing = none → mask ≠ 0 →
    (List.range 4).any (fun i => s.hmacSlotOk i && !(mask ||| s.pwr.hkBurn).toNat.testBit i) = true →
    ∃ t, exec (.hmacKeyRevoke mask) s = .next t ∧ t.part = { s.part with hkRev := s.part.hkRev ||| mask } ∧
      (∀ k, k ∈ t.net.sessions → k ∈ s.net.sessions ∧ mask.toNat.testBit k.slot = false)) ∧
  (∀ (mask : BitVec 4) (s : State), s.served = true → (List.range 4).any (fun i => s.hmacSlotOk i && !(mask ||| s.pwr.hkBurn).toNat.testBit i) = false →
    exec (.hmacKeyRevoke mask) s = .next (s.flag F.NSP_ALERT_WR_REFUSED))

/-- PTP_MEASUREMENT (R18, R64, R65): offset and mean path delay are computed from the four times, corrected by the port's latencies, and the
asymmetry, and enter the domain's history; in peer-to-peer mode the path delay is that of the Pdelay exchange. Nothing is computed without
the steward or with the domain OFF. A servo that fails its self-check holds its domain over for good, brings in the other domain and puts
the hub in LIMP. PTP_ANNOUNCE_RX, PDELAY_REQ_RX and DOMAIN_LOSS_TIMEOUT (R62, R65, R67): of the masters heard on the bound port, in the
domain number and over the transport set, the better one is kept; a Pdelay request is answered in one message or two, with the port's
latencies taken off; a domain that hears nothing for LOSS_TMO holds over. The form of the messages is the model's (log 49). -/
def Obligations.DomainsMeasureTheirMasters : Prop :=
  (∀ (d : Nat) (t1 t2 t3 t4 m r rx tx : Int) (s : State), d < 2 → (s.dom d).state = .locked → s.sys.steward = true → s.on (F.TIM_TDd_CTRL_MECH d) = false →
    rx = (s.portLat (s.get (F.TIM_TDd_CTRL_PORT d)) true : Int) → tx = (s.portLat (s.get (F.TIM_TDd_CTRL_PORT d)) false : Int) → r = t2 - rx - t1 → m = r + (t4 - (t3 + tx)) →
    ∃ t, exec (.ptpMeasurement d t1 t2 t3 t4 (none, true)) s = .next t ∧
      (t.dom d).hist.head? = some (m, 2 * r - m - 2 * s.getI (F.TIM_TDd_ASYM_VALUE d)) ∧
      (t.dom d).lastMsg = s.tick ∧ t.tim.frc = s.tim.frc ∧ t.tim.atVal = s.tim.atVal ∧ t.core = s.core ∧ t.fe = s.fe) ∧
  (∀ (d : Nat) (t1 t2 t3 t4 p m r rx tx : Int) (s : State), d < 2 → (s.dom d).state = .locked → s.sys.steward = true → s.on (F.TIM_TDd_CTRL_MECH d) = true →
    rx = (s.portLat (s.get (F.TIM_TDd_CTRL_PORT d)) true : Int) → tx = (s.portLat (s.get (F.TIM_TDd_CTRL_PORT d)) false : Int) → r = t2 - rx - t1 → m = 2 * p - (rx + tx) →
    ∃ t, exec (.ptpMeasurement d t1 t2 t3 t4 (some p, true)) s = .next t ∧
      (t.dom d).hist.head? = some (m, 2 * r - m - 2 * s.getI (F.TIM_TDd_ASYM_VALUE d)) ∧ (t.dom d).lastMsg = s.tick) ∧
  (∀ (d : Nat) (t1 t2 t3 t4 : Int) (p : Option Int) (s : State), d < 2 → (s.dom d).state ≠ .off → s.sys.steward = true → s.servoDead d = false →
    (s.dom (1 - d)).state ≠ .off → s.servoDead (1 - d) = false →
    ∃ t, exec (.ptpMeasurement d t1 t2 t3 t4 (p, false)) s = .next t ∧ d ∈ t.part.servoOut ∧ t.part.domSpare = 1 ∧ (t.dom d).state = .holdover ∧
      t.limpBits.testBit 9 = true ∧ (s.sys.mode = .run → t.sys.mode = .limp)) ∧
  (∀ (d : Nat) (m : Announce) (s : State), d < 2 → (s.dom d).state ≠ .off → s.sys.steward = true → m.port = s.get (F.TIM_TDd_CTRL_PORT d) →
    m.domain = s.get (F.TIM_TDd_CTRL_PTP_DOM d) → m.transport = s.get (F.TIM_TDd_CTRL_TRANSPORT d) → s.tim.masters.look d = none →
    ∃ t, exec (.ptpAnnounceRx d m) s = .next t ∧ t.tim.masters.look d = some ⟨m.prio1, m.cls, m.acc, m.var, m.prio2, m.ident, m.steps, m.port⟩ ∧
      t = { s with tim := { s.tim with masters := t.tim.masters }, net := t.net } ∧ (m.unicast = false → t.net = s.net) ∧
      (m.unicast = true → t.net.out.length = s.net.out.length + 1)) ∧
  (∀ (d : Nat) (m : Announce) (o : Master) (s : State), d < 2 → (s.dom d).state ≠ .off → s.sys.steward = true → s.tim.masters.look d = some o →
    m.prio1 < o.prio1 → m.port = s.get (F.TIM_TDd_CTRL_PORT d) → m.domain = s.get (F.TIM_TDd_CTRL_PTP_DOM d) →
    m.transport = s.get (F.TIM_TDd_CTRL_TRANSPORT d) →
    ∃ t, exec (.ptpAnnounceRx d m) s = .next t ∧ t.tim.masters.look d = some ⟨m.prio1, m.cls, m.acc, m.var, m.prio2, m.ident, m.steps, m.port⟩) ∧
  (∀ (d r x port : Nat) (s : State), d < 2 → (s.dom d).state ≠ .off → s.on (F.TIM_TDd_CTRL_MECH d) = true → port = s.get (F.TIM_TDd_CTRL_PORT d) →
    s.linkUp port = true → s.on (F.TIM_TDd_CTRL_TWO_STEP d) = false →
    ∃ t, exec (.pdelayReqRx d r x) s = .next t ∧ t = { s with net := { s.net with out := t.net.out } } ∧
      (∃ k, t.net.out = k :: s.net.out ∧ k.port = port ∧ k.kind = .ptp ∧
        k.words.drop 1 = numWords 2 (x + s.portLat port false - (r - s.portLat port true)))) ∧
  (∀ (d r x port : Nat) (s : State), d < 2 → (s.dom d).state ≠ .off → s.on (F.TIM_TDd_CTRL_MECH d) = true → port = s.get (F.TIM_TDd_CTRL_PORT d) →
    s.linkUp port = true → s.on (F.TIM_TDd_CTRL_TWO_STEP d) = true →
    ∃ t, exec (.pdelayReqRx d r x) s = .next t ∧ t = { s with net := { s.net with out := t.net.out } } ∧
      (∃ k l, t.net.out = l :: k :: s.net.out ∧ k.port = port ∧ l.port = port ∧ k.words.drop 1 = numWords 3 (ts96 (r - s.portLat port true)) ∧
        l.words.drop 1 = numWords 3 (ts96 (x + s.portLat port false)))) ∧
  (∀ (d : Nat) (s : State), d < 2 → (s.dom d).state = .locked ∨ (s.dom d).state = .acquiring →
    (s.dom d).lastMsg + s.get (F.TIM_TDd_QUAL_CFG_LOSS_TMO d) * 2000000 ≤ s.tick →
    ∃ t, exec (.domainLossTimeout d) s = .next t ∧ (t.dom d).state = .holdover ∧ t.get (F.TIM_TDd_STAT_MSG_LOSS d) = 1 ∧
      t.get (F.TIM_TDd_STAT_STATE d) = 3 ∧ t.tim.atVal = s.tim.atVal ∧ t.tim.frc = s.tim.frc)

/-- ASYM_EST_COMPLETE, ASYM_APPLY, STEP_ACCEPT and SOLO_HOLD_EXPIRY (R78, R79, R434): after 64 measurements the estimate is valid; applying it
adds it to the asymmetry, is refused while it is not valid, and beyond ±1 µs is an unchecked case; accepting a step leaves the asymmetry
as it is. -/
def Obligations.PathDelayStepsEnd : Prop :=
  (∀ (d : Nat) (s : State), d < 2 → (s.dom d).estOn = true → (s.dom d).estN = 64 → s.on F.TIM_ASYM_AUTO_AUTO = false →
    ∃ t, exec (.asymEstComplete d) s = .next t ∧ t.rd (R.TIM_TDd_ASYM_EST d) = wd (tw 32 (satI 32 (rhe (s.dom d).estSum (64 * 2 ^ 48)))) ∧
      t.get (F.TIM_TDd_STAT_EST_VALID d) = 1 ∧ (t.dom d).estOn = false ∧ t.rd (R.TIM_TDd_ASYM d) = s.rd (R.TIM_TDd_ASYM d)) ∧
  (∀ (d : Nat) (s : State), d < 2 → s.liveMode = true → s.on (F.TIM_TDd_STAT_EST_VALID d) = true → s.sys.unchecked = none →
    (s.getI (F.TIM_TDd_ASYM_VALUE d) + s.getI (F.TIM_TDd_ASYM_EST_VALUE d)).natAbs ≤ 65536000 →
    ∃ t, exec (.asymApply d) s = .next t ∧
      t.rd (R.TIM_TDd_ASYM d) = wd (tw 32 (s.getI (F.TIM_TDd_ASYM_VALUE d) + s.getI (F.TIM_TDd_ASYM_EST_VALUE d))) ∧
      t.on (F.TIM_TDd_STAT_ASYM_STEP d) = false ∧ t.on (F.TIM_TDd_STAT_EST_VALID d) = false) ∧
  (∀ (d : Nat) (s : State), d < 2 → s.liveMode = true → s.on (F.TIM_TDd_STAT_EST_VALID d) = true → s.sys.unchecked = none →
    65536000 < (s.getI (F.TIM_TDd_ASYM_VALUE d) + s.getI (F.TIM_TDd_ASYM_EST_VALUE d)).natAbs →
    exec (.asymApply d) s = .fault (.uncheckedCase 7)) ∧
  (∀ (d : Nat) (s : State), d < 2 → s.liveMode = true → s.on (F.TIM_TDd_STAT_EST_VALID d) = false → s.sys.unchecked = none →
    exec (.asymApply d) s = .next (s.flag F.TIM_ALERT_WR_REFUSED)) ∧
  (∀ (d : Nat) (s : State), d < 2 → s.liveMode = true → s.on (F.TIM_TDd_STAT_ASYM_STEP d) = true →
    ∃ t, exec (.stepAccept d) s = .next t ∧ t.on (F.TIM_TDd_STAT_ASYM_STEP d) = false ∧ t.rd (R.TIM_TDd_ASYM d) = s.rd (R.TIM_TDd_ASYM d) ∧
      (t.dom d).solo = none) ∧
  (∀ (d u : Nat) (s : State), d < 2 → (s.dom d).solo = some u → s.on (F.TIM_TDd_STAT_ASYM_STEP d) = true → s.on F.TIM_ASYM_AUTO_SOLO = true →
    u + s.get F.TIM_ASYM_AUTO_SOLO_HOLD * 2000000 ≤ s.tick →
    ∃ t, exec (.soloHoldExpiry d) s = .next t ∧ t.on (F.TIM_TDd_STAT_ASYM_STEP d) = false ∧ t.rd (R.TIM_TDd_ASYM d) = s.rd (R.TIM_TDd_ASYM d) ∧
      (t.dom d).solo = none)

/-- AT_SOURCE_CHANGE, AT_REVERT and SLEW_END (R70, R71, R73 to R76): AT follows a new domain only at a frame boundary, never steps as it does
so, and the change is reported; AT goes back to the preferred domain after HOLD seconds of its being qualified; a slew ends when the
residual is zero. -/
def Obligations.TheTimescaleNeverSteps : Prop :=
  (∀ (w : Option Nat) (s : State), s.tick % 2000 = 0 → s.tim.atSet = true → s.tim.decide = some w → s.tim.decideAt ≤ s.tick → w ≠ s.tim.follow → s.logRoom 4 →
    ∃ t, exec .atSourceChange s = .next t ∧ t.tim.follow = w ∧ t.tim.decide = none ∧ t.tim.atVal = s.tim.atVal ∧ t.tim.views = s.tim.views ∧
      t.tim.frc = s.tim.frc ∧ t.tick = s.tick ∧ t.on F.TIM_ALERT_AT_SOURCE = true ∧ t.get F.TIM_STAT_AT_SRC = t.tim.atSrc % 4 ∧
      Newest t Ev.AT_SOURCE (evSource 1 0)) ∧
  (∀ (q : Nat) (s : State), s.get F.TIM_CTRL_AT_MODE = 0 → s.on F.TIM_REVERT_EN = true → s.qualified s.atPref = true → (s.dom s.atPref).qualSince = some q →
    q + s.get F.TIM_REVERT_HOLD * 2000000 ≤ s.tick → s.tim.follow = some (1 - s.atPref) → s.tim.decide = none →
    ((s.tim.atVal - (s.view s.atPref).val).natAbs : Int) ≤ (s.get F.TIM_JOIN_MAX_VALUE : Int) * 1000 * 2 ^ 64 →
    ∃ t, exec .atRevert s = .next t ∧ t.tim = { s.tim with decide := some (some s.atPref), decideAt := nextFrame (if s.tick = q + s.get F.TIM_REVERT_HOLD * 2000000 then s.tick - 1 else s.tick) } ∧
      t = { s with tim := t.tim, regs := t.regs }) ∧
  (∀ s : State, s.tim.slewing = true → s.resid = 0 →
    ∃ t, exec .slewEnd s = .next t ∧ t.tim = { s.tim with slewing := false } ∧ t.get F.TIM_STAT_SLEWING = 0 ∧ t = { s with tim := t.tim, regs := t.regs, net := t.net })

/-- FRC_SOURCE_CHANGE, SYNCE_LOSS, MCLK_MARKER, MCLK_LOSS and PPS_IN_EDGE (R66, R80, R85): the source in use follows what arrives with the
counter's value unbroken; the loss of the recovered clock in use is reported; markers are counted, one whose interval is bad is discarded,
and their loss clears the lock; an edge of PPS_IN leaves its time in AT. TD_OFFSET_WRITE, TD3_RATE_WRITE and SNAP_LATCH (R58, R81, R88): a
view takes the value written, TD0 and TD1 only while OFF; TD3 takes its rate; a snapshot shows the counter and AT of one instant and
changes nothing but its registers. -/
def Obligations.ClocksAndViewsAreShown : Prop :=
  (∀ (a b : Option (BitVec 4)) (s : State), s.linkUp 0 = true → s.linkUp 1 = true →
    ∃ t, exec (.frcSourceChange a b) s = .next t ∧ t.tim.rxClk.look 0 = some (a.map BitVec.toNat) ∧ t.tim.rxClk.look 1 = some (b.map BitVec.toNat) ∧
      t.get F.TIM_STAT_FRC_ACT = t.frcSource % 4 ∧ t.tim.frc = s.tim.frc ∧ t.tim.atVal = s.tim.atVal ∧ t = { s with tim := t.tim, regs := t.regs }) ∧
  (∀ (a b : Option (BitVec 4)) (s : State), s.linkUp 0 = false → s.linkUp 1 = true → s.get F.TIM_STAT_FRC_ACT = 1 → s.logRoom 3 →
    ∃ t, exec (.frcSourceChange a b) s = .next t ∧ t.tim.rxClk.look 0 = none ∧ t.tim.frc = s.tim.frc ∧ t.on F.TIM_ALERT_SYNCE_LOSS = true ∧
      Newest t Ev.SYNCE_LOSS (evSource 1 0)) ∧
  (∀ (p : Nat) (q : BitVec 4) (s : State), s.get F.TIM_STAT_FRC_ACT = p + 1 → s.logRoom 3 →
    ∃ t, exec (.synceLoss p q) s = .next t ∧ t.tim = { s.tim with rxClk := s.tim.rxClk.drop p } ∧ t.on F.TIM_ALERT_SYNCE_LOSS = true ∧
      Newest t Ev.SYNCE_LOSS (evSource 1 p)) ∧
  (∀ (ts : Nat) (s : State), s.on F.TIM_MCLK_CFG_EN = true → s.tim.mLast.any (fun m => !s.markerGood (ts - m)) = false →
    ∃ t, exec (.mclkMarker ts) s = .next t ∧ t.tim.mLast = some ts ∧ t.tim.mCount = s.tim.mCount + 1 ∧ t.tim.frc = s.tim.frc ∧ t.tim.atVal = s.tim.atVal ∧
      t.core = s.core) ∧
  (∀ (ts m : Nat) (s : State), s.on F.TIM_MCLK_CFG_EN = true → s.tim.mLast = some m → s.markerGood (ts - m) = false →
    ∃ t, exec (.mclkMarker ts) s = .next t ∧ t = { s with tim := t.tim } ∧ t.tim = { s.tim with mLast := some ts }) ∧
  (∀ s : State, s.on F.TIM_MCLK_CFG_EN = true → s.on F.TIM_MCLK_STAT_LOSS = false →
    4 * (s.get F.TIM_MCLK_CFG_DIV * 1000000 * 65536) ≤ (s.tim.frc - s.tim.mGoodAt) * s.get F.TIM_MCLK_CFG_NOM_KHZ → s.logRoom 2 →
    ∃ t, exec .mclkLoss s = .next t ∧ t.tim = { s.tim with mGood := 0 } ∧ t.on F.TIM_MCLK_STAT_LOSS = true ∧ t.on F.TIM_MCLK_STAT_LOCK = false ∧
      t.on F.TIM_ALERT_MCLK_LOSS = true ∧ Newest t Ev.MCLK_LOSS (evSource 1 2)) ∧
  (∀ (back : Nat) (s : State), s.on F.TIM_PPS_CFG_IN_EN = true →
    ∃ t, exec (.ppsInEdge back) s = .next t ∧ t = { s with regs := t.regs } ∧ t.rd R.TIM_PPS_IN0 = wd (ts96 (s.atUnits - back)) ∧
      t.rd (R.TIM_PPS_IN0 + 4) = wd (ts96 (s.atUnits - back) / 2 ^ 32) ∧ t.rd (R.TIM_PPS_IN0 + 8) = wd (ts96 (s.atUnits - back) / 2 ^ 64) ∧
      RegsBut s t [R.TIM_PPS_IN0, R.TIM_PPS_IN0 + 4, R.TIM_PPS_IN0 + 8]) ∧
  (∀ (d : Nat) (v : BitVec 96) (s : State), d < 4 → s.liveMode = true → 2 ≤ d ∨ (s.dom d).state = .off →
    ∃ t, exec (.tdOffsetWrite d v) s = .next t ∧ (t.view d).val = (ts96Units v.toNat : Int) * 2 ^ 48 ∧ (t.view d).rate = (s.view d).rate ∧
      (∀ k, k ≠ d → t.view k = s.view k) ∧ t.tim = { s.tim with views := t.tim.views } ∧ t = { s with tim := t.tim, regs := t.regs }) ∧
  (∀ (d : Nat) (v : BitVec 96) (s : State), d < 2 → s.liveMode = true → (s.dom d).state ≠ .off →
    exec (.tdOffsetWrite d v) s = .next (s.flag F.TIM_ALERT_WR_REFUSED)) ∧
  (∀ (r : BitVec 40) (s : State), s.liveMode = true →
    ∃ t, exec (.td3RateWrite r) s = .next t ∧ (t.view 3).rate = sx 40 r.toNat ∧ (t.view 3).val = (s.view 3).val ∧ (∀ k, k ≠ 3 → t.view k = s.view k) ∧
      t = { s with tim := t.tim, regs := t.regs }) ∧
  (∀ s : State, s.liveMode = true →
    ∃ t, exec .snapLatch s = .next t ∧ t = { s with regs := t.regs } ∧ t.rd R.TIM_SNAP_FRC0 = wd s.tim.frc ∧ t.rd R.TIM_SNAP_FRC1 = wd (s.tim.frc / 2 ^ 32) ∧
      t.rd R.TIM_SNAP_TICK_LO = wd (tickOf s.atUnits).1 ∧ t.rd R.TIM_SNAP_SUBTICK = wd (tickOf s.atUnits).2 ∧ t.rd R.TIM_SNAP_AT0 = wd (ts96 s.atUnits))

/-- TCMP_ARM, TCMP_DISARM and TCMP_FIRE (R82, R83): a unit is armed at a target later than two ticks on, or refused as late; it fires at its
target, where a start of a timing output takes effect in that very tick, repeats with its period or disarms, and outside RUN and LIMP
actions 1 to 4 are void. TOUT_START and TOUT_STOP (R84, R88): a timing output starts or stops at the next tick; a start outside the ranges
of its settings is refused. -/
def Obligations.CompareUnitsAndOutputsFire : Prop :=
  (∀ (u : Nat) (s : State), u < 16 → s.liveMode = true → s.tick + 2 < s.rd64 (R.TIM_TCMPu_TICK_LO u) →
    ∃ t, exec (.tcmpArm u) s = .next t ∧ t.tim.tcmp.val {} u = ⟨true, s.rd64 (R.TIM_TCMPu_TICK_LO u), (s.rd (R.TIM_TCMPu_PERIOD u)).toNat⟩ ∧
      t.rd (R.TIM_TCMPu_STAT u) = 1 ∧ (∀ k, k ≠ u → t.tim.tcmp.val {} k = s.tim.tcmp.val {} k) ∧ t = { s with tim := t.tim, regs := t.regs, stk := t.stk }) ∧
  (∀ (u : Nat) (s : State), u < 16 → s.liveMode = true → s.rd64 (R.TIM_TCMPu_TICK_LO u) ≤ s.tick + 2 →
    ∃ t, exec (.tcmpArm u) s = .next t ∧ t = { s with regs := t.regs } ∧ t.get (F.TIM_TCMPu_STAT_ERR_LATE u) = 1 ∧ t.on F.TIM_ALERT_TCMP_LATE = true) ∧
  (∀ (u : Nat) (s : State), u < 16 → s.liveMode = true →
    ∃ t, exec (.tcmpDisarm u) s = .next t ∧ t.tim.tcmp.val {} u = { s.tim.tcmp.val {} u with armed := false } ∧ t.get (F.TIM_TCMPu_STAT_ARMED u) = 0 ∧
      t = { s with tim := t.tim, regs := t.regs }) ∧
  (∀ (u : Nat) (s : State), u < 16 → (s.tim.tcmp.val {} u).armed = true → (s.tim.tcmp.val {} u).target ≤ s.tick → (s.tim.tcmp.val {} u).period = 0 →
    s.get (F.TIM_TCMPu_CTRL_ACTION u) = 5 → (s.tim.tout.val {} (s.get (F.TIM_TCMPu_CTRL_TOUT_SEL u))).stopAt = none → s.sys.unchecked = none →
    ∃ t, exec (.tcmpFire u) s = .next t ∧ (t.tim.tcmp.val {} u).armed = false ∧
      (t.tim.tout.val {} (s.get (F.TIM_TCMPu_CTRL_TOUT_SEL u))).running = true ∧ (t.tim.tout.val {} (s.get (F.TIM_TCMPu_CTRL_TOUT_SEL u))).startAt = none ∧
      (s.live = true → s.toutOk (s.get (F.TIM_TCMPu_CTRL_TOUT_SEL u)) = true → (s.tim.tout.val {} (s.get (F.TIM_TCMPu_CTRL_TOUT_SEL u))).running = false →
        s.tick % s.get (F.TIM_TOUTt_PERIOD_PERIOD (s.get (F.TIM_TCMPu_CTRL_TOUT_SEL u))) = s.get (F.TIM_TOUTt_PHASE_PHASE (s.get (F.TIM_TCMPu_CTRL_TOUT_SEL u))) →
        (t.tim.tout.val {} (s.get (F.TIM_TCMPu_CTRL_TOUT_SEL u))).level = true) ∧ t = { s with tim := t.tim, regs := t.regs }) ∧
  (∀ (u : Nat) (s : State), u < 16 → (s.tim.tcmp.val {} u).armed = true → (s.tim.tcmp.val {} u).target ≤ s.tick → 0 < (s.tim.tcmp.val {} u).period →
    1 ≤ s.get (F.TIM_TCMPu_CTRL_ACTION u) → s.get (F.TIM_TCMPu_CTRL_ACTION u) ≤ 4 → s.running = false → s.sys.unchecked = none →
    ∃ t, exec (.tcmpFire u) s = .next t ∧ t.get (F.TIM_TCMPu_STAT_VOID u) = 1 ∧
      t.tim.tcmp.val {} u = { s.tim.tcmp.val {} u with target := (s.tim.tcmp.val {} u).target + (s.tim.tcmp.val {} u).period } ∧
      t.core = s.core ∧ t.hist = s.hist ∧ t.slow = s.slow) ∧
  (∀ (k : Nat) (s : State), k < 4 → s.liveMode = true → s.toutOk k = true →
    ∃ t, exec (.toutStart k) s = .next t ∧ t.tim.tout.val {} k = { s.tim.tout.val {} k with startAt := some (s.tick + 1) } ∧
      (∀ j, j ≠ k → t.tim.tout.val {} j = s.tim.tout.val {} j) ∧ t = { s with tim := t.tim }) ∧
  (∀ (k : Nat) (s : State), k < 4 → s.liveMode = true → s.toutOk k = false → exec (.toutStart k) s = .next (s.flag F.TIM_ALERT_WR_REFUSED)) ∧
  (∀ (k : Nat) (s : State), k < 4 → s.liveMode = true →
    ∃ t, exec (.toutStop k) s = .next t ∧ t.tim.tout.val {} k = { s.tim.tout.val {} k with stopAt := some (s.tick + 1) } ∧
      (∀ j, j ≠ k → t.tim.tout.val {} j = s.tim.tout.val {} j) ∧ t = { s with tim := t.tim })

/-- CHANNEL_ENABLE, CHANNEL_DISABLE, CHANNEL_ENABLE_EFFECT and CHANNEL_DISABLE_EFFECT (R186, R191, R213, R434): an enable within the budget
waits for the next frame boundary and restarts the chain there; beyond the budget it is refused; a disable leaves an open CHANNEL_OFF gap;
an output period outside the rule is an unchecked case. FLT_SYNC_ARM, FLT_SYNC_DISARM and FILTER_SYNC (R182): the command SYNC is armed
for a tick later than two on or refused as late; in RUN and LIMP it reaches the chains at its tick, in every other mode it has no effect. -/
def Obligations.EnablesAndSyncsReachTheChains : Prop :=
  (∀ (ch : Nat) (s : State), ch < 192 → s.liveMode = true → s.on (F.CH_AFE_CTRL_EN ch) = false → s.journalFull = false → s.phaseOk ch = true →
    s.on (F.CH_AFE_CTRL_ACQ_ARM ch) = false →
    ∃ t, exec (.channelEnable ch) s = .next t ∧
      (s.budgetOk ch = true → t.get (F.CH_AFE_CTRL_EN ch) = 1 ∧ t.sys.fastPend.look ch = some (true, nextFrame s.tick) ∧
        t = { s with regs := t.regs, sys := { s.sys with fastPend := t.sys.fastPend } } ∧ RegsBut s t [R.CH_AFE_CTRL ch]) ∧
      (s.budgetOk ch = false → t = (s.flag F.AFF_ALERT_WR_REFUSED).flag F.FLT_ALERT_BUDGET)) ∧
  (∀ (ch : Nat) (s : State), ch < 192 → s.liveMode = true → s.on (F.CH_AFE_CTRL_EN ch) = true → s.journalFull = false → ch ∈ s.sys.fastEff →
    ∃ t, exec (.channelDisable ch) s = .next t ∧ t.get (F.CH_AFE_CTRL_EN ch) = 0 ∧ t.sys.fastPend.look ch = some (false, nextFrame s.tick) ∧
      t = { s with regs := t.regs, sys := { s.sys with fastPend := t.sys.fastPend } } ∧ RegsBut s t [R.CH_AFE_CTRL ch]) ∧
  (∀ (ch b : Nat) (s : State), ch < 192 → s.sys.fastPend.look ch = some (true, b) → b ≤ s.tick → s.fltPeriodOk ch = true → s.sys.unchecked = none →
    ∃ t, exec (.channelEnableEffect ch) s = .next t ∧ ch ∈ t.sys.fastEver ∧ ch ∈ t.sys.fastEff ∧ (b, CoreCmd.enableFast ch) ∈ t.red.journal ∧ t.tick = s.tick ∧ t.part = s.part) ∧
  (∀ (ch b : Nat) (s : State), ch < 192 → s.sys.fastPend.look ch = some (true, b) → b ≤ s.tick → s.fltPeriodOk ch = false → s.sys.unchecked = none →
    exec (.channelEnableEffect ch) s = .fault (.uncheckedCase 2)) ∧
  (∀ (ch b : Nat) (s : State), ch < 192 → s.sys.fastPend.look ch = some (false, b) → b ≤ s.tick → ch ∈ s.sys.fastEver → s.sys.openGap.look ch = none →
    ∃ t, exec (.channelDisableEffect ch) s = .next t ∧ (b, CoreCmd.disableFast ch) ∈ t.red.journal ∧
      t.sys.openGap.look ch = some (Gap.CHANNEL_OFF, b, 0) ∧ ch ∉ t.sys.fastEff ∧ t.tick = s.tick ∧ t.part = s.part) ∧
  (∀ s : State, s.liveMode = true → s.journalFull = false → s.tick + 2 < s.rd64 R.FLT_SYNC_TICK_LO →
    ∃ t, exec .fltSyncArm s = .next t ∧ (s.rd64 R.FLT_SYNC_TICK_LO, 0) ∈ t.hist.syncs ∧ t.get F.FLT_SYNC_STAT_ARMED = 1 ∧ t.get F.FLT_SYNC_STAT_ERR_LATE = 0 ∧
      t = { s with hist := { s.hist with syncs := t.hist.syncs }, regs := t.regs, stk := t.stk }) ∧
  (∀ s : State, s.liveMode = true → s.journalFull = false → s.rd64 R.FLT_SYNC_TICK_LO ≤ s.tick + 2 →
    ∃ t, exec .fltSyncArm s = .next t ∧ t = { s with regs := t.regs } ∧ t.get F.FLT_SYNC_STAT_ERR_LATE = 1 ∧ t.on F.FLT_ALERT_SYNC_LATE = true) ∧
  (∀ s : State, s.liveMode = true →
    ∃ t, exec .fltSyncDisarm s = .next t ∧ (∀ e, e ∈ t.hist.syncs → e ∈ s.hist.syncs ∧ e.2 ≠ 0) ∧ t.get F.FLT_SYNC_STAT_ARMED = 0 ∧
      t = { s with hist := { s.hist with syncs := t.hist.syncs }, regs := t.regs }) ∧
  (∀ (ts src : Nat) (s : State), s.hist.syncs = [(ts, src)] → ts ≤ s.tick → s.running = true →
    ∃ t, exec (.filterSync src) s = .next t ∧ t.hist.syncs = [] ∧ (ts, CoreCmd.sync src) ∈ t.red.journal) ∧
  (∀ (ts src : Nat) (s : State), s.hist.syncs = [(ts, src)] → ts ≤ s.tick → s.running = false →
    ∃ t, exec (.filterSync src) s = .next t ∧ t.hist.syncs = [] ∧ t.core = s.core ∧ t.red = s.red)

/-- CORE_TICK_PROCESS (R35, R36, R142): where no coefficient set holds a NaN, an infinity or a subnormal number, the core in the active role
processes the input ticks that are due, one after another, and no other: one per tick in real time, none without an active core or in
DORMANT and HOLD. An error in the safety net counts only in a replay (R345). FRAME_STATUS and REC_TIME_SECOND_MARK (R76, R207, R278): at a
frame boundary the temperature and power show in SYS_ENV and, in TRIM, RUN and LIMP, REC_STATUS is placed on every live stream that
carries an enabled channel; at each second of AT REC_TIME is. -/
def Obligations.TheCoreProcessesEveryInputTick : Prop :=
  (∀ s : State, s.sys.unchecked = none → (∀ n ch, (s.coefAt n).polyBad ch = false) →
    ∃ t, exec .coreTickProcess s = .next t ∧ t = s.netRead.coreRun s.coreDue ∧ t.core.pos = s.core.pos + s.coreDue ∧ t.tick = s.tick ∧ t.dram = s.dram ∧
      t.sys.mode = s.sys.mode ∧ t.part = s.part) ∧
  (∀ s : State, s.red.bump = none → s.netRead = s) ∧
  (∀ (c : CoreId) (n : Nat) (s : State), s.running = true → s.red.active = some c → s.red.bump = none → s.netTick = some n → s.core.pos ≤ n →
    s.core.pos < s.tick → s.coreDue = 1) ∧
  (∀ s : State, s.red.active = none ∨ s.sys.mode = .dormant ∨ s.sys.mode = .hold → s.coreDue = 0) ∧
  (∀ s : State, s.red.bump = none → s.coreDue ≤ 1) ∧
  (∀ (tj pw : BitVec 16) (s : State), s.sys.porst = false → s.tick % 2000 = 0 →
    ∃ t, exec (.frameStatus tj pw) s = .next t ∧ t.get F.SYS_ENV_POWER = pw.toNat ∧ t.get F.SYS_ENV_TJ = tj.toNat ∧
      t = { s with pwr := t.pwr, regs := t.regs, net := t.net } ∧ RegsBut s t [R.SYS_ENV] ∧ (s.streaming = false → t.net = s.net)) ∧
  (∀ (tj pw : BitVec 16) (s : State), s.sys.porst = false → s.tick % 2000 = 0 → s.streaming = true →
    ∃ t, exec (.frameStatus tj pw) s = .next t ∧
      (∀ m, m ∈ s.sharedStreams → ∃ p, p ∈ (t.stream m).placed ∧ p.key.rank = 1 ∧ p.key.place = s.tick ∧ p.words.length = 10) ∧
      (∀ m, m ∉ s.sharedStreams → t.stream m = s.stream m)) ∧
  (∀ s : State, s.tick % 2000000 = 0 → s.streaming = true →
    ∃ t, exec .recTimeSecondMark s = .next t ∧ t = { s with net := t.net } ∧
      (∀ m, m ∈ s.sharedStreams → ∃ p, p ∈ (t.stream m).placed ∧ p.key.rank = 3 ∧ p.key.place = s.tick ∧ p.words = s.recTime 7))

/-- GROUP_ENABLE, GROUP_DISABLE and SCAN_START (R145, R146, R147): enabling a group under AUTO in RUN lets its first scan start at once, under
TCMP it waits; a disabled one starts no scan; at a multiple of S the scan visits the enabled channels in ascending order, and a start that
finds a scan in progress is counted as an overrun and reported. -/
def Obligations.GroupsScanAtMultiplesOfTheirPeriod : Prop :=
  (∀ (g : Nat) (s : State), g < 16 → s.liveMode = true → s.on (F.AFS_GRPg_CFG_EN g) = false →
    ∃ t, exec (.groupEnable g) s = .next t ∧ t.get (F.AFS_GRPg_CFG_EN g) = 1 ∧
      t.grp g = { s.grp g with started := false, first := if s.on (F.AFS_GRPg_CFG_START_SRC g) = false ∧ s.running = true then some s.tick else none } ∧
      (∀ k, k ≠ g → t.grp k = s.grp k) ∧ t = { s with regs := t.regs, slow := { s.slow with grp := t.slow.grp } } ∧ RegsBut s t [R.AFS_GRPg_CFG g]) ∧
  (∀ (g : Nat) (s : State), g < 16 → s.liveMode = true → s.on (F.AFS_GRPg_CFG_EN g) = true →
    ∃ t, exec (.groupDisable g) s = .next t ∧ t.get (F.AFS_GRPg_CFG_EN g) = 0 ∧ t.grp g = { s.grp g with started := false, first := none } ∧
      (∀ k, k ≠ g → t.grp k = s.grp k) ∧ t = { s with regs := t.regs, slow := { s.slow with grp := t.slow.grp } } ∧ RegsBut s t [R.AFS_GRPg_CFG g]) ∧
  (∀ (g f : Nat) (s : State), g < 16 → s.acquiring = true → s.on (F.AFS_GRPg_CFG_EN g) = true → s.tick % s.get (F.AFS_GRPg_PERIOD_S g) = 0 →
    (s.grp g).first = some f → f ≤ s.tick → (s.grp g).scan = none → s.part.lostGrp.contains g = false →
    (∀ ch, ch ∈ grpChans g → (s.slow.en.val {} ch).pend = none) → (∃ i, i < 16 ∧ (s.slow.en.val {} (256 + 16 * g + i)).eff = true) →
    ∃ t, exec (.scanStart g) s = .next t ∧
      (t.grp g).scan = some { start := s.tick, todo := (List.range 16).filter (fun i => (s.slow.en.val {} (256 + 16 * g + i)).eff), next := s.tick, slot := none } ∧
      (t.grp g).started = true ∧ t.get (F.AFS_GRPg_STAT_RUNNING g) = 1 ∧ t.rd64 (R.AFS_GRPg_SCAN_LO g) = s.tick % 2 ^ 64 ∧
      t = { s with regs := t.regs, slow := { s.slow with grp := t.slow.grp } } ∧
      RegsBut s t [R.AFS_GRPg_STAT g, R.AFS_GRPg_SCAN_LO g, R.AFS_GRPg_SCAN_LO g + 4]) ∧
  (∀ (g f : Nat) (sc : Scan) (s : State), g < 16 → s.acquiring = true → s.on (F.AFS_GRPg_CFG_EN g) = true → s.tick % s.get (F.AFS_GRPg_PERIOD_S g) = 0 →
    (s.grp g).first = some f → f ≤ s.tick → (s.grp g).scan = some sc → sc.slot = none → s.logRoom 3 →
    ∃ t, exec (.scanStart g) s = .next t ∧ t.get (F.AFS_GRPg_STAT_OVERRUN g) = min 65535 (s.get (F.AFS_GRPg_STAT_OVERRUN g) + 1) ∧
      t.on F.AFS_ALERT_SCAN_OVERRUN = true ∧ Newest t Ev.SCAN_OVERRUN (evSource 3 g) ∧ t = { s with regs := t.regs, log := t.log })

/-- SLOW_SLOT and SLOW_SAMPLE_RELEASE (R128, R130, R131, R149): a slot takes the next channel of the scan with its code, its checks made only
with BO_I set; when the slot is over its sample is released in one slot record, one whose converter failed is recorded without a sample,
and the scan ends with its last slot. SLOW_CHANNEL_ENABLE and SLOW_CHANNEL_DISABLE (R127, R148, R342): the enable is stored at once and
acts at a later scan start; one that R127 forbids is refused, and one that the full command journal cannot take too. -/
def Obligations.SlotsConvertAndRelease : Prop :=
  (∀ (g i : Nat) (code : BitVec 24) (v1 v2 v3 v4 : Int) (sc : Scan) (rest : List Nat) (s : State), (s.grp g).scan = some sc → sc.slot = none → sc.todo = i :: rest →
    sc.next ≤ s.tick → s.acquiring = true → (s.grp g).takeover = none →
    ∃ t sl, exec (.slowSlot g code (v1, v2) (v3, v4)) s = .next t ∧ (t.grp g).scan = some { sc with todo := rest, slot := some sl } ∧
      sl.input = i ∧ sl.start = sc.next ∧ sl.len = s.slotTicks (256 + 16 * g + i) ∧ sl.conv = s.convFor g ∧ sl.failed = false ∧
      sl.code = clampI (-8388607) 8388607 (sx 24 code.toNat) ∧
      sl.beforeBad = (s.get (F.CH_SIN_BO_BO_I (256 + 16 * g + i)) != 0 && decide ((s.get (F.CH_SIN_BO_BO_THR (256 + 16 * g + i)) * 1000 : Nat) ≤ v2 - v1)) ∧
      sl.afterBad = (s.get (F.CH_SIN_BO_BO_I (256 + 16 * g + i)) != 0 && decide ((s.get (F.CH_SIN_BO_BO_THR (256 + 16 * g + i)) * 1000 : Nat) ≤ v4 - v3)) ∧
      (∀ k, k ≠ g → t.grp k = s.grp k) ∧ t = { s with slow := { s.slow with grp := t.slow.grp } }) ∧
  (∀ (g : Nat) (sc : Scan) (sl : SlotRun) (s : State), (s.grp g).scan = some sc → sc.slot = some sl → sl.start + sl.len ≤ s.tick → s.acquiring = true → sl.failed = false →
    ∃ t, exec (.slowSampleRelease g) s = .next t ∧
      t.slow.aux = (s.slotRec g sl, s.slotSide g sl) :: s.slow.aux ∧
      (t.grp g).scan = (if sc.todo = [] then none else some { sc with slot := none, next := sl.start + sl.len }) ∧
      (∀ k, k ≠ g → t.grp k = s.grp k) ∧ t = { s with slow := t.slow, regs := t.regs, log := t.log } ∧ RegsBut s t (R.AFS_GRPg_STAT g :: eventRegs)) ∧
  (∀ (g : Nat) (sc : Scan) (sl : SlotRun) (s : State), (s.grp g).scan = some sc → sc.slot = some sl → sl.start + sl.len ≤ s.tick → s.acquiring = true → sl.failed = true →
    ∃ t, exec (.slowSampleRelease g) s = .next t ∧
      t.slow.aux = (s.lostRec g sl, s.slotSide g sl) :: s.slow.aux ∧ (s.slotSide g sl).sensor = noSample ∧
      (t.grp g).scan = (if sc.todo = [] then none else some { sc with slot := none, next := sl.start + sl.len }) ∧
      (∀ k, k ≠ g → t.grp k = s.grp k) ∧ t.part = s.part ∧ t.fe = s.fe ∧ t.dram = s.dram ∧ t.log = s.log ∧ t.tick = s.tick ∧ RegsBut s t [R.AFS_GRPg_STAT g]) ∧
  (∀ (ch : Nat) (s : State), 256 ≤ ch → ch < 512 → s.liveMode = true → s.on (F.CH_SIN_CFG_EN ch) = false → s.journalFull = false → s.slowEnOk ch = true →
    ∃ t, exec (.slowChannelEnable ch) s = .next t ∧ t.get (F.CH_SIN_CFG_EN ch) = 1 ∧ (t.slow.en.val {} ch).pend = some true ∧
      (t.slow.en.val {} ch).eff = (s.slow.en.val {} ch).eff ∧ s.tick < (t.slow.en.val {} ch).notBefore ∧
      t = { s with regs := t.regs, slow := { s.slow with en := t.slow.en }, sid := t.sid, cal := { s.cal with due := t.cal.due } } ∧
      (∀ k, k ≠ ch → t.sid.val {} k = s.sid.val {} k) ∧ RegsBut s t [R.CH_SIN_CFG ch]) ∧
  (∀ (ch : Nat) (s : State), 256 ≤ ch → ch < 512 → s.liveMode = true → s.on (F.CH_SIN_CFG_EN ch) = false → s.journalFull = false → s.slowEnOk ch = false →
    exec (.slowChannelEnable ch) s = .next (s.flag F.AFS_ALERT_WR_REFUSED)) ∧
  (∀ (ch : Nat) (s : State), 256 ≤ ch → ch < 512 → s.liveMode = true → s.on (F.CH_SIN_CFG_EN ch) = true → s.journalFull = false →
    ∃ t, exec (.slowChannelDisable ch) s = .next t ∧ t.get (F.CH_SIN_CFG_EN ch) = 0 ∧
      (t.slow.en.val {} ch).pend = (if (s.slow.en.val {} ch).eff then some false else none) ∧ (t.slow.en.val {} ch).eff = (s.slow.en.val {} ch).eff ∧
      t = { s with regs := t.regs, slow := { s.slow with en := t.slow.en } } ∧ RegsBut s t [R.CH_SIN_CFG ch]) ∧
  (∀ (ch : Nat) (s : State), 256 ≤ ch → ch < 512 → s.liveMode = true → s.journalFull = true →
    ∃ t, exec (if s.on (F.CH_SIN_CFG_EN ch) then .slowChannelDisable ch else .slowChannelEnable ch) s = .next t ∧ t = { s with regs := t.regs } ∧
      t.on F.AFS_ALERT_WR_REFUSED = true ∧ t.on F.RED_ALERT_JOURNAL_FULL = true ∧ t.get (F.CH_SIN_CFG_EN ch) = s.get (F.CH_SIN_CFG_EN ch))

/-- R127: the enable of input 15 is refused while another input of its group has REF 2, and REF 2 is refused on another input while input 15
is enabled; both set AFS_ALERT.WR_REFUSED and change nothing else. -/
def Obligations.ReferenceInputsAreGuarded : Prop :=
  (∀ (g i : Nat) (s : State), g < 16 → i < 15 → s.liveMode = true → s.journalFull = false → s.get (F.CH_SIN_CFG_REF (256 + 16 * g + i)) = 2 →
    s.on (F.CH_SIN_CFG_EN (256 + 16 * g + 15)) = false → exec (.slowChannelEnable (256 + 16 * g + 15)) s = .next (s.flag F.AFS_ALERT_WR_REFUSED)) ∧
  (∀ (g i : Nat) (v : Word) (s : State), g < 16 → i < 15 → s.liveMode = true → s.sys.unchecked = none → s.get (F.CH_SIN_CFG_REF (256 + 16 * g + i)) = 2 →
    (F.CH_SIN_CFG_EN (256 + 16 * g + 15)).ofWord v = 1 →
    exec (.registerWrite (R.CH_SIN_CFG (256 + 16 * g + 15)) v) s = .next (s.flag F.AFS_ALERT_WR_REFUSED)) ∧
  (∀ (g i : Nat) (v : Word) (s : State), g < 16 → i < 15 → s.liveMode = true → s.sys.unchecked = none → s.on (F.CH_SIN_CFG_EN (256 + 16 * g + 15)) = true →
    (F.CH_SIN_CFG_REF (256 + 16 * g + i)).ofWord v = 2 →
    exec (.registerWrite (R.CH_SIN_CFG (256 + 16 * g + i)) v) s = .next (s.flag F.AFS_ALERT_WR_REFUSED))

/-- EXC_FAULT, EXC_FAULT_END, CONVERTER_FAIL and CONVERTER_TAKEOVER (R136, R150, R151): a fault of an excitation source shows while it lasts
and is logged at both ends; a converter that fails leaves for life, once; a spare takes over in the tick in which the next slot of a scan
begins, and at no other. -/
def Obligations.ConvertersFailOnceAndSparesTakeOver : Prop :=
  (∀ (g k : Nat) (s : State), g < 16 → k < 3 → (s.grp g).exc.look k = none → s.excRuns g k s.tick = true → s.logRoom 4 →
    ∃ t, exec (.excFault g k) s = .next t ∧ (t.grp g).exc.look k = some s.tick ∧
      t.get (F.AFS_GRPg_STAT_EXC_FAULT g) = s.get (F.AFS_GRPg_STAT_EXC_FAULT g) ||| 2 ^ k ∧ t.on F.AFS_ALERT_EXC_FAULT = true ∧
      Newest t Ev.EXC_FAULT (evSource 3 g) ∧ t = { s with slow := { s.slow with grp := t.slow.grp }, regs := t.regs, log := t.log }) ∧
  (∀ (g k f : Nat) (s : State), g < 16 → k < 3 → (s.grp g).exc.look k = some f → s.logRoom 4 →
    ∃ t, exec (.excFaultEnd g k) s = .next t ∧ (t.grp g).exc.look k = none ∧
      t.get (F.AFS_GRPg_STAT_EXC_FAULT g) = s.get (F.AFS_GRPg_STAT_EXC_FAULT g) &&& (7 - 2 ^ k) ∧
      Newest t Ev.EXC_FAULT (evSource 3 g) ∧ t = { s with slow := { s.slow with grp := t.slow.grp }, regs := t.regs, log := t.log }) ∧
  (∀ (q : Nat) (s : State), s.live = true → q < 18 → s.part.convs.contains q = false →
    ∃ t, exec (.converterFail q) s = .next t ∧ t.part.convs = q :: s.part.convs ∧ t.on F.AFS_ALERT_CONV_FAIL = true ∧ t.fe = s.fe ∧ t.core = s.core ∧
      t.dram = s.dram ∧ t.tick = s.tick) ∧
  (∀ (g q : Nat) (sc : Scan) (s : State), g < 16 → q < 18 → (s.grp g).scan = some sc → sc.slot = none → sc.todo ≠ [] → sc.next ≤ s.tick → s.acquiring = true →
    (s.grp g).takeover = some q → s.logRoom 4 →
    ∃ t, exec (.converterTakeover g) s = .next t ∧ (t.grp g).takeover = none ∧ (t.grp g).scan = some sc ∧ t.get (F.AFS_GRPg_STAT_CONV g) = q ∧
      Newest t Ev.CONV_SUBST (evSource 3 g) ∧ t.part = s.part ∧ t.fe = s.fe ∧ t.dram = s.dram ∧ t.tick = s.tick ∧
      RegsBut s t (R.AFS_STAT :: R.AFS_GRPg_STAT g :: eventRegs))

/-- COEF_SET_ACTIVATION and COEF_REPEAT (R208, R376): the changes due at a frame boundary come into force as one set with the next serial;
with none due the set stays; at a multiple of 60 s the set in force is announced again. In TRIM the set formed at LOAD is announced in
full, once. -/
def Obligations.CoefficientSetsChangeAtFrames : Prop :=
  (∀ s : State, s.running = true → s.tick % 2000 = 0 → s.cal.due.any (fun e => decide (e.1 ≤ s.tick)) = true →
    ∃ t, exec .coefSetActivation s = .next t ∧
      t.cal.cur = { (s.cal.due.filter (fun e => decide (e.1 ≤ s.tick))).foldl (fun c e => CoefSet.change c e.2.2) s.cal.cur with
        serial := (s.cal.cur.serial + 1) % 2 ^ 32, origin := originOf ((s.cal.due.filter (fun e => decide (e.1 ≤ s.tick))).map (·.2.1)) } ∧
      t.cal.due = s.cal.due.filter (fun e => decide (s.tick < e.1)) ∧ t.cal.hist = (s.tick, t.cal.cur) :: s.cal.hist ∧
      t.core = s.core ∧ t.fe = s.fe ∧ t.part = s.part ∧ t.dram = s.dram ∧ t.tick = s.tick) ∧
  (∀ s : State, s.sys.mode = .trim → s.tick % 2000 = 0 → s.cal.announced = false → s.cal.due.all (fun e => decide (s.tick < e.1)) = true →
    ∃ t, exec .coefSetActivation s = .next t ∧ t = { s with cal := { s.cal with announced := true }, net := t.net } ∧
      t.net = (s.announce (s.tick) s.cal.cur true (s.fullEntries s.cal.cur)).net) ∧
  (∀ s : State, s.running = true → s.tick % 120000000 = 0 → s.cal.due.all (fun e => decide (s.tick < e.1)) = true →
    s.cal.hist.head?.any (fun e => decide (e.1 = s.tick)) = false →
    ∃ t, exec .coefRepeat s = .next t ∧ t = { s with net := t.net } ∧ t = s.announce s.tick s.cal.cur true (s.fullEntries s.cal.cur))

/-- RT_SLOT_START and RT_SLOT_END (R365, R369): slots of rolling trim start at multiples of 1,050,000 ticks in RUN and LIMP, and one whose
evaluated span is over ends. FIELD_ZERO_START, FIELD_ZERO_COMPLETE and FIELD_ZERO_CLEAR (R373, R374): a field zero is armed at a tick
later than two ticks on, otherwise refused as late; at the end of its span the new part waits for a frame boundary, or the field zero is
refused with its cause; clearing makes the part 0. -/
def Obligations.CalibrationRunsInItsSlots : Prop :=
  (∀ s : State, s.running = true → s.tick % 1050000 = 0 → s.on F.CAL_CTRL_RT_EN = true → (∀ b, b < 8 → (s.cal.rt.val {} b).input = none) →
    ∃ t, exec .rtSlotStart s = .next t ∧ t.get F.CAL_STAT_RT_ACTIVE = 1 ∧ t.get F.CAL_STAT_SLOT_INPUT = s.tick / 1050000 % 24 ∧
      (∀ b, b < 8 → (t.cal.rt.val {} b).input = none ∨ ((t.cal.rt.val {} b).input = some (s.tick / 1050000 % 24) ∧ (t.cal.rt.val {} b).start = s.tick)) ∧
      (∀ b, b < 8 → s.spareFree b = true → s.on (F.AFF_BANKb_CTRL_SPARE_MAN b) = false → (s.fe.banks.val {} b).gradual = [] →
        s.on (F.CH_CAL_CFG_RT_EN (24 * b + s.tick / 1050000 % 24)) = true →
        (t.cal.rt.val {} b).input = some (s.tick / 1050000 % 24) ∧ t.get (F.AFF_BANKb_STAT_SPARE_STATE b) = 1 ∧
        t.get (F.AFF_BANKb_STAT_SPARE_INPUT b) = s.tick / 1050000 % 24 ∧ t.rd64 (R.CH_CAL_TICK_LO (24 * b + s.tick / 1050000 % 24)) = s.tick % 2 ^ 64) ∧
      t.cal.cur = s.cal.cur ∧ t.core = s.core ∧ t.part = s.part ∧ t.tick = s.tick) ∧
  (∀ s : State, s.running = true →
    ∃ t, exec .rtSlotEnd s = .next t ∧ (∀ b, b < 8 → (s.cal.rt.val {} b).start + 1049577 ≤ s.tick → (t.cal.rt.val {} b).input = none) ∧
      t.core = s.core ∧ t.tick = s.tick ∧ t.dram = s.dram) ∧
  (∀ s : State, s.liveMode = true → s.tick + 2 < s.rd64 R.CAL_FZ_TICK_LO →
    ∃ t, exec .fieldZeroStart s = .next t ∧
      t.cal.fzRun = some { ch := s.get F.CAL_FZ_CTRL_CH, start := s.rd64 R.CAL_FZ_TICK_LO, z := s.getI F.CAL_FZ_Z_Z } ∧ t.get F.CAL_FZ_STAT_STATE = 1 ∧
      t.get F.CAL_FZ_STAT_RESULT = 0 ∧ t.get F.CAL_FZ_STAT_CAUSE = 0 ∧ t = { s with cal := { s.cal with fzRun := t.cal.fzRun }, regs := t.regs } ∧
      RegsBut s t [R.CAL_FZ_STAT]) ∧
  (∀ s : State, s.liveMode = true → s.rd64 R.CAL_FZ_TICK_LO ≤ s.tick + 2 →
    ∃ t, exec .fieldZeroStart s = .next t ∧ t.get F.CAL_FZ_STAT_STATE = 0 ∧ t.get F.CAL_FZ_STAT_RESULT = 2 ∧ t.get F.CAL_FZ_STAT_CAUSE = 1 ∧
      t.on F.CAL_ALERT_FZ_REFUSED = true ∧ t = { s with regs := t.regs, log := t.log }) ∧
  (∀ (z : FzRun) (s : State), s.cal.fzRun = some z → z.start + fzTicks ≤ s.tick → z.cause = 0 → 0 < z.n →
    s.fzFits z.ch (s.cal.cur.fz.val 0 z.ch + rhe (z.sum - z.z * z.n) z.n) = true →
    ∃ t, exec .fieldZeroComplete s = .next t ∧ t.cal.fzRun = none ∧
      t.cal.due = s.cal.due ++ [(frameAtOrAfter (z.start + fzTicks - 1 + 2000), 2, { fz := some (z.ch, s.cal.cur.fz.val 0 z.ch + rhe (z.sum - z.z * z.n) z.n) })] ∧
      t.get F.CAL_FZ_STAT_STATE = 0 ∧ t.get F.CAL_FZ_STAT_RESULT = 1 ∧ t.cal.cur = s.cal.cur ∧ t = { s with cal := t.cal, regs := t.regs, log := t.log }) ∧
  (∀ (z : FzRun) (s : State), s.cal.fzRun = some z → z.start + fzTicks ≤ s.tick → z.cause ≠ 0 → z.cause < 8 →
    ∃ t, exec .fieldZeroComplete s = .next t ∧ t.cal = { s.cal with fzRun := none } ∧ t.get F.CAL_FZ_STAT_RESULT = 2 ∧ t.get F.CAL_FZ_STAT_CAUSE = z.cause ∧
      t = { s with cal := t.cal, regs := t.regs, log := t.log }) ∧
  (∀ (ch : Nat) (s : State), ch < 192 → s.liveMode = true →
    exec (.fieldZeroClear ch) s = .next { s with cal := { s.cal with due := s.cal.due ++ [(nextFrame s.tick, 2, { fz := some (ch, 0) })] } })

/-- TRG_IN_EDGE, TRG_SOURCE_ARM, TRG_SOURCE_DISARM, HELD_TRIGGER_EFFECT and TRIGGER_AUTO_FIRE (R226, R229, R231, R342, R462): what reaches the
core from outside enters the command journal with the tick at which it acts: its stamp + 2 where the core has not judged that tick yet,
the next tick where it has (log 12); edges less than 100 ns apart are one; a held trigger whose tick falls outside RUN and LIMP is
discarded; a source fires only while armed and past its hold-off, as it becomes true or as its AUTO count ends. A source's firing (R229,
R231): a source whose combination becomes true fires only while armed and past its hold-off; it disarms unless it re-arms by itself, and
its AUTO count starts anew. -/
def Obligations.TriggersEnterTheJournal : Prop :=
  (∀ (i : Nat) (rising : Bool) (back : Nat) (s : State), i < 4 → s.running = true → s.core.pos ≤ s.tick → s.red.bump = none → s.hist.trgEdge.look i = none →
    ∃ t, exec (.trgInEdge i rising back) s = .next t ∧ t.hist.trgEdge.look i = some (s.tim.frc - back) ∧
      t.red.journal = s.red.journal ++ [(max (if s.core.pos < s.tick then s.tick else s.tick + 1) (s.tickBack back + 2), .edge i rising (s.tickBack back))] ∧
      t = { s with hist := t.hist, red := t.red }) ∧
  (∀ (i : Nat) (rising : Bool) (back e : Nat) (s : State), i < 4 → s.hist.trgEdge.look i = some e → s.tim.frc - back < e + 100 * 65536 →
    ∃ t, exec (.trgInEdge i rising back) s = .next t ∧ t.hist.trgEdge.look i = some (s.tim.frc - back) ∧ t.red = s.red ∧ t = { s with hist := t.hist }) ∧
  (∀ (q tick : Nat) (s : State), q < 16 → s.running = true → s.journalFull = false → s.core.pos ≤ s.tick → s.tick < tick →
    exec (.trgSourceArm q tick) s = .next { s with red := { s.red with journal := s.red.journal ++ [(tick, .srcArm q)] } } ∧
    exec (.trgSourceDisarm q tick) s = .next { s with red := { s.red with journal := s.red.journal ++ [(tick, .srcDisarm q)] } }) ∧
  (∀ (q tick : Nat) (s : State), q < 16 → s.running = true → s.journalFull = false → s.core.pos ≤ s.tick → tick ≤ s.tick →
    exec (.trgSourceArm q tick) s = .next { s with red := { s.red with journal := s.red.journal ++ [(s.tick + 1, .srcArm q)] } } ∧
    exec (.trgSourceDisarm q tick) s = .next { s with red := { s.red with journal := s.red.journal ++ [(s.tick + 1, .srcDisarm q)] } }) ∧
  (∀ (q tick : Nat) (s : State), q < 16 → s.liveMode = true → s.journalFull = true →
    exec (.trgSourceArm q tick) s = .next (s.journalRefuse F.TRG_ALERT_WR_REFUSED) ∧
    exec (.trgSourceDisarm q tick) s = .next (s.journalRefuse F.TRG_ALERT_WR_REFUSED)) ∧
  (∀ (ident stamp : Nat) (s : State), s.running = true → s.hist.held = [(ident, stamp)] → s.tick = stamp + 2 → s.core.pos < s.tick →
    ∃ t, exec .heldTriggerEffect s = .next t ∧ t.hist = { s.hist with held := [] } ∧
      t.red.journal = s.red.journal ++ [(stamp + 2, .trigger ident stamp)] ∧ t = { s with hist := t.hist, red := t.red }) ∧
  (∀ (ident stamp : Nat) (s : State), s.running = false → s.hist.held = [(ident, stamp)] → stamp + 2 ≤ s.tick →
    exec .heldTriggerEffect s = .next (({ s with hist := { s.hist with held := [] } }).refuseTrigger ident stamp)) ∧
  (∀ (ident stamp : Nat) (s : State), s.running = true → s.hist.held = [(ident, stamp)] → stamp + 2 ≤ s.tick → s.core.pos = s.tick → s.red.bump = none →
    ∃ t, exec .heldTriggerEffect s = .next t ∧ t.hist = { s.hist with held := [] } ∧
      t.red.journal = s.red.journal ++ [(s.tick + 1, .trigger ident stamp)] ∧ t = { s with hist := t.hist, red := t.red }) ∧
  (∀ (q : Nat) (s : State), q < 16 → s.running = true → s.autoDue (s.core.pos + 1) q = true → s.sys.unchecked = none →
    (s.coreRun s.coreDue).sys.unchecked = none → exec (.triggerAutoFire q) s = .next (s.coreRun s.coreDue)) ∧
  (∀ (ext : Bool) (t q : Nat) (s : State), q < 16 → (s.core.srcs.val {} q).armed = false ∨ s.holdPassed t q = false →
    ((s.srcTick ext t).core.srcs.val {} q).lastFire = (s.core.srcs.val {} q).lastFire) ∧
  (∀ (ext : Bool) (t q : Nat) (s : State), q < 16 → (s.core.srcs.val {} q).armed = true → s.holdPassed t q = true →
    (s.srcComb t q = true ∧ (s.core.srcs.val {} q).comb = false) ∨ s.autoDue t q = true → ((s.srcTick ext t).core.srcs.val {} q).lastFire = some t) ∧
  (∀ (s : State) (t stamp q : Nat) (auto : Bool),
    ((s.fireSrc false t stamp q auto).1.core.srcs.val {} q).lastFire = some t ∧
    ((s.fireSrc false t stamp q auto).1.core.srcs.val {} q).autoFrom = t ∧
    ((s.fireSrc false t stamp q auto).1.core.srcs.val {} q).armed = ((s.core.srcs.val {} q).armed && bitOf (s.srcCtrl t q) 3) ∧
    (∀ k, k ≠ q → (s.fireSrc false t stamp q auto).1.core.srcs.val {} k = s.core.srcs.val {} k) ∧
    ((s.fireSrc true t stamp q auto).1.core.srcs.val {} q).armed = ((s.core.srcs.val {} q).armed && bitOf (s.srcCtrl t q) 3))

/-- TRG_CONDITION_WRITE and SPARE_MAN_PARK (R111, R122, R244): a condition that no guarded source names takes the word, and in RUN the core
sees it from the next tick; a guarded one refuses it; a spare is parked on the input named, unless it stands in or has failed. -/
def Obligations.ConditionsAndSparesAreWritten : Prop :=
  (∀ (c : Nat) (v : Word) (s : State), c < 64 → s.sys.mode = .run → s.sys.unchecked = none → s.cndGuarded c = false → s.journalFull = false →
    ∃ t, exec (.trgConditionWrite c 1 v) s = .next t ∧ t.rd (R.TRG_CNDc_A c) = (s.rd (R.TRG_CNDc_A c) &&& 0xFF000000#32) ||| (v &&& 0xFFFFFF#32) ∧
      t.red.journal = s.red.journal ++ [(s.tick + 1, .regWrite (R.TRG_CNDc_A c) (s.rd (R.TRG_CNDc_A c)))] ∧ t = { s with regs := t.regs, red := t.red } ∧
      RegsBut s t [R.TRG_CNDc_A c]) ∧
  (∀ (c : Nat) (v : Word) (s : State), c < 64 → s.running = true → s.sys.unchecked = none → s.cndGuarded c = true →
    exec (.trgConditionWrite c 1 v) s = .next (s.flag F.TRG_ALERT_WR_REFUSED)) ∧
  (∀ (b i : Nat) (s : State), b < 8 → i < 24 → s.running = true → s.sys.unchecked = none → s.get (F.AFF_BANKb_STAT_SPARE_STATE b) = 0 →
    ∃ t, exec (.spareManPark b (wd (1 + i * 256))) s = .next t ∧ t.get (F.AFF_BANKb_CTRL_SPARE_MAN b) = 1 ∧ t.get (F.AFF_BANKb_CTRL_MAN_INPUT b) = i ∧
      (t.fe.banks.val {} b).input = some i ∧ t.get (F.AFF_BANKb_STAT_SPARE_STATE b) = 0 ∧ t.part = s.part ∧ t.core = s.core ∧ t.tick = s.tick) ∧
  (∀ (b : Nat) (v : Word) (s : State), b < 8 → s.running = true → s.sys.unchecked = none → 2 ≤ s.get (F.AFF_BANKb_STAT_SPARE_STATE b) →
    exec (.spareManPark b v) s = .next (s.flag F.AFF_ALERT_WR_REFUSED))

/-- R234: the descriptor allocated is the first free one, in cyclic order, from the one after the last allocated; none is allocated only where
none is free; every descriptor is free from reset, and one that is released is free from the next tick. -/
def Obligations.DescriptorsAreAllocatedInCyclicOrder : Prop :=
  (∀ (s : State) (t d k : Nat), s.hist.lastDesc = some k → s.nextDesc t = some d →
    d < 256 ∧ s.descFree d t = true ∧ ∃ n, n < 256 ∧ d = (k + 1 + n) % 256 ∧ ∀ j, j < n → s.descFree ((k + 1 + j) % 256) t = false) ∧
  (∀ (s : State) (t d : Nat), s.hist.lastDesc = none → s.nextDesc t = some d → d < 256 ∧ s.descFree d t = true ∧ ∀ j, j < d → s.descFree j t = false) ∧
  (∀ (s : State) (t : Nat), s.nextDesc t = none → ∀ d, d < 256 → s.descFree d t = false) ∧
  (∀ d t, State.reset.descFree d t = true) ∧
  (∀ (s : State) (d t : Nat), (s.releaseWin d t 0).descFree d t = false ∧ (s.releaseWin d t 0).descFree d (t + 1) = true)

/-- WINDOW_CLOSE, WINDOW_READ, WINDOW_CANCEL and WINDOW_RELEASE (R234, R237, R239): a window closes when its last tick requested is pinned, is
ready at once or on READ, goes whenever it is cancelled, its pins held to the end of that tick, a queued job of its failed with it, and
its descriptor is free from the tick after its release. WINDOW_READOUT (R215, R238, R278): a ready window of FORM 0 or 1 whose turn it is
goes to its stream, or is discarded where that is no readout stream; one of FORM 2 queues its job first; none goes before its turn. With
the pool running, slots that lie in borrowed memory are asked for first, and the readout waits for them. -/
def Obligations.WindowsCloseAndAreReadOut : Prop :=
  (∀ (d : Nat) (s : State), (s.win d).state = 1 → (s.win d).reqL < (s.win d).lastP →
    ∃ t, exec (.windowClose d) s = .next t ∧ t.win d = { s.win d with state := 2, ready := (s.win d).readReq || !(s.win d).request } ∧
      (∀ k, k ≠ d → t.win k = s.win k) ∧ t = { s with hist := { s.hist with wins := t.hist.wins } }) ∧
  (∀ (d : Nat) (s : State), s.liveMode = true → (s.win d).request = true → (s.win d).state = 1 →
    ∃ t, exec (.windowRead d) s = .next t ∧ t.win d = { s.win d with readReq := true } ∧ t = { s with hist := { s.hist with wins := t.hist.wins } }) ∧
  (∀ (d : Nat) (s : State), s.liveMode = true → (s.win d).request = true → (s.win d).state = 2 → (s.win d).ready = false →
    ∃ t, exec (.windowRead d) s = .next t ∧ t.win d = { s.win d with ready := true } ∧ t = { s with hist := { s.hist with wins := t.hist.wins } }) ∧
  (∀ (d : Nat) (s : State), s.liveMode = true → 1 ≤ (s.win d).state → (s.win d).state ≤ 3 → (s.job d).win = none →
    ∃ t, exec (.windowCancel d) s = .next t ∧ t.win d = { s.win d with state := 0, relAt := some s.tick, ready := false, keepTo := s.tick + 1 } ∧
      (∀ k, k ≠ d → t.win k = s.win k) ∧ t.descFree d s.tick = false ∧ t.descFree d (s.tick + 1) = true ∧
      (t.win d).holds s.tick = decide ((s.win d).first < (s.win d).lastP) ∧ (t.win d).holds (s.tick + 1) = false ∧
      t = { s with hist := { s.hist with wins := t.hist.wins }, net := t.net, jobs := t.jobs, stk := { s.stk with drains := t.stk.drains } }) ∧
  (∀ (d : Nat) (s : State), s.liveMode = true → (s.win d).state = 3 → (s.job d).win = some d → (s.job d).state = 1 → (s.job d).waiting = false → s.jobs.all (fun e => e.1 == d || e.2.state != 1) = true →
    ∃ t, exec (.windowCancel d) s = .next t ∧ (t.win d).state = 4 ∧ (t.win d).relAt = some s.tick ∧ (t.job d).state = 4 ∧ (t.job d).err = 7 ∧
      (t.job d).win = none ∧ t.on F.CMP_ALERT_FAIL = true ∧ t.on F.HST_ALERT_JOB_FAIL = true ∧ t.dram = s.dram ∧ t.core = s.core ∧ t.part = s.part) ∧
  (∀ (d w : Nat) (s : State), (s.win d).written = some w → (s.win d).state = 3 → w < s.tick → (s.job d).win = none →
    ∃ t, exec (.windowRelease d) s = .next t ∧ t.win d = { s.win d with state := 0, relAt := some s.tick, ready := false } ∧
      (∀ k, k ≠ d → t.win k = s.win k) ∧ t = { s with hist := { s.hist with wins := t.hist.wins }, jobs := t.jobs, stk := { s.stk with drains := t.stk.drains } }) ∧
  (∀ (d w : Nat) (s : State), (s.win d).written = some w → (s.win d).state = 3 → w < s.tick → (s.job d).win = some d → (s.job d).state = 3 → s.queued = [] →
    ∃ t, exec (.windowRelease d) s = .next t ∧ t.win d = { s.win d with state := 0, relAt := some s.tick, ready := false } ∧
      t.job d = { s.job d with win := none, ext := none, recs := [] } ∧ (∀ k, k ≠ d → t.job k = s.job k) ∧
      t = { s with hist := { s.hist with wins := t.hist.wins }, jobs := t.jobs, stk := { s.stk with drains := t.stk.drains } }) ∧
  (∀ (d : Nat) (s : State), (s.win d).ready = true → s.sys.mode ≠ .load → s.sys.mode ≠ .dormant → (s.win d).form ≠ 2 → (s.win d).state = 2 →
    ((s.win d).asked = true ∨ s.stk.poolOn = false) → s.readsWait d = false → s.nextOnStream d = true → s.streamReadout (s.win d).stream = false →
    ∃ t, exec (.windowReadout d) s = .next t ∧ t.win d = { s.win d with state := 3, ready := false, written := some s.tick } ∧
      t.on F.NSP_ALERT_NO_STREAM = true ∧ t = { s with hist := { s.hist with wins := t.hist.wins }, regs := t.regs }) ∧
  (∀ (d : Nat) (s : State), (s.win d).ready = true → s.sys.mode ≠ .load → s.sys.mode ≠ .dormant → (s.win d).form ≠ 2 → (s.win d).state = 2 →
    ((s.win d).asked = true ∨ s.stk.poolOn = false) → s.readsWait d = false → s.nextOnStream d = true → s.streamReadout (s.win d).stream = true →
    ∃ t, exec (.windowReadout d) s = .next t ∧ (t.win d).state = 3 ∧ (t.win d).ready = false ∧ t.part = s.part ∧ t.core = s.core ∧ t.dram = s.dram ∧ t.tick = s.tick) ∧
  (∀ (d : Nat) (s : State), (s.win d).ready = true → s.running = true → (s.win d).form = 2 → (s.win d).state = 2 →
    ((s.win d).asked = true ∨ s.stk.poolOn = false) → s.readsWait d = false → (s.job d).state = 1 ∨ (s.job d).state = 2 →
    ∃ t, exec (.windowReadout d) s = .next t ∧ t.win d = { s.win d with state := 3 } ∧ t.job d = { s.job d with waiting := true } ∧
      t = { s with hist := { s.hist with wins := t.hist.wins }, jobs := t.jobs }) ∧
  (∀ (d : Nat) (s : State), (s.win d).ready = true → (s.win d).state = 2 → (s.win d).asked = false → s.stk.poolOn = true → s.live = true →
    s.hist.ring.any (fun e => s.slotBorrowed e.1 && decide ((s.win d).first ≤ e.2) && decide (e.2 < (s.win d).lastP)) = true →
    ∃ t, exec (.windowReadout d) s = .next t ∧ t.win d = { s.win d with asked := true } ∧
      t.stk.rdq = s.stk.rdq ++ ((s.hist.ring.filter (fun e => s.slotBorrowed e.1 && decide ((s.win d).first ≤ e.2) && decide (e.2 < (s.win d).lastP))).reverse.map (fun e => (d, e.1))) ∧
      (∀ k, k ≠ d → t.win k = s.win k) ∧ t = { s with hist := { s.hist with wins := t.hist.wins }, stk := t.stk, net := t.net }) ∧
  (∀ (d : Nat) (s : State), (s.win d).ready = false ∨ ((s.win d).asked = true ∧ (s.win d).form ≠ 2 ∧ s.nextOnStream d = false) →
    exec (.windowReadout d) s = .next s)

/-- R256: the CRC-16 of a block shifts by polynomial 0x1021 from 0xFFFF, highest bit first, over the values as three bytes each, lowest first;
for the nine digits it gives 0x29B1. -/
def Obligations.BlockChecksFollowTheCrcRule : Prop :=
  (∀ (c : BitVec 16) (b : Byte),
    crc16Byte c.toNat b = ((List.range 8).foldl (fun (x : BitVec 16) _ => if x.getMsbD 0 then (x <<< 1) ^^^ 0x1021#16 else x <<< 1) (c ^^^ (b.zeroExtend 16 <<< 8))).toNat) ∧
  (∀ bs : List Byte, crc16 bs = bs.foldl crc16Byte 0xFFFF) ∧
  (crc16 ((List.range 9).map (fun i => BitVec.ofNat 8 (0x31 + i))) = 0x29B1) ∧
  (∀ xs : List FrbSample, frbCrc xs = crc16 (xs.flatMap (fun x => leBytes 3 (tw 24 x.1)))) ∧
  (∀ xs ys : List FrbSample, xs.map (·.1) = ys.map (·.1) → frbCrc xs = frbCrc ys)

/-- CMP_JOB_START, CMP_JOB_ABORT, CMP_JOB_RUN, CMP_JOB_END and CMP_PARITY_ERROR (R263, R264, R266, R267): a job that is started waits for a
unit, a region outside JOB fails it at once, overlapping regions are an unchecked case; a job that ends without error commits its output;
aborts and parity errors end it with their error. -/
def Obligations.CompressionJobsRunToAnEnd : Prop :=
  (∀ (j : Nat) (s : State), j < 256 → s.liveMode = true → s.jobHeld j = false → s.sys.unchecked = none →
    s.rangeBad (s.rd (R.CMP_JOBj_IN j)).toNat (s.rd (R.CMP_JOBj_IN_LEN j)).toNat = false →
    s.rangeBad (s.rd (R.CMP_JOBj_OUT j)).toNat (s.rd (R.CMP_JOBj_OUT_LEN j)).toNat = false →
    regionsMeet (s.rd (R.CMP_JOBj_IN j)).toNat (s.rd (R.CMP_JOBj_IN_LEN j)).toNat (s.rd (R.CMP_JOBj_OUT j)).toNat (s.rd (R.CMP_JOBj_OUT_LEN j)).toNat = false →
    ∃ t, exec (.cmpJobStart j) s = .next t ∧ t.job j = { state := 1, able := s.tick } ∧ (∀ k, k ≠ j → t.job k = s.job k) ∧ t = { s with jobs := t.jobs }) ∧
  (∀ (j : Nat) (s : State), j < 256 → s.liveMode = true → s.jobHeld j = false → s.sys.unchecked = none →
    s.rangeBad (s.rd (R.CMP_JOBj_IN j)).toNat (s.rd (R.CMP_JOBj_IN_LEN j)).toNat = true →
    ∃ t, exec (.cmpJobStart j) s = .next t ∧ (t.job j).state = 4 ∧ (t.job j).err = 8 ∧ (t.job j).commit = 0 ∧ t.on F.CMP_ALERT_FAIL = true ∧
      t = { s with jobs := t.jobs, regs := t.regs, log := t.log }) ∧
  (∀ (j : Nat) (s : State), j < 256 → s.liveMode = true → s.jobHeld j = false → s.sys.unchecked = none →
    s.rangeBad (s.rd (R.CMP_JOBj_IN j)).toNat (s.rd (R.CMP_JOBj_IN_LEN j)).toNat = false →
    s.rangeBad (s.rd (R.CMP_JOBj_OUT j)).toNat (s.rd (R.CMP_JOBj_OUT_LEN j)).toNat = false →
    regionsMeet (s.rd (R.CMP_JOBj_IN j)).toNat (s.rd (R.CMP_JOBj_IN_LEN j)).toNat (s.rd (R.CMP_JOBj_OUT j)).toNat (s.rd (R.CMP_JOBj_OUT_LEN j)).toNat = true →
    exec (.cmpJobStart j) s = .fault (.uncheckedCase 5)) ∧
  (∀ (j : Nat) (s : State), j < 256 → s.liveMode = true → s.jobHeld j = true → s.sys.unchecked = none →
    exec (.cmpJobStart j) s = .next (s.flag F.CMP_ALERT_WR_REFUSED)) ∧
  (∀ (j u : Nat) (s : State), s.queued.find? (fun i => (s.job i).canStart && s.jobEncodes i == s.jobEncodes j) = some j → s.freeUnit (s.jobEncodes j) = some u →
    ∃ t, exec (.cmpJobRun j) s = .next t ∧ t.job j = { s.job j with state := 2, unit := u } ∧ (∀ k, k ≠ j → t.job k = s.job k) ∧ t = { s with jobs := t.jobs }) ∧
  (∀ (j : Nat) (s : State), (s.job j).state = 2 → (s.job j).win = none → (s.job j).ext = none → (s.job j).waiting = false → (s.jobRun j).err = 0 →
    (s.jobRun j).done.all (fun b => decide (b.k ≤ s.get F.CMP_CTRL_KMAX)) = true → s.queued = [] →
    ∃ t, exec (.cmpJobEnd j) s = .next t ∧ (t.job j).state = 3 ∧ (t.job j).err = 0 ∧ (t.job j).commit = (s.jobRun j).out.length ∧
      (t.job j).blocks = (s.jobRun j).done.length ∧ (t.job j).result = (s.jobRun j).result ∧ (∀ k, k ≠ j → t.job k = s.job k) ∧
      t.dram = Mem.write 0 s.dram (s.jobBase + (s.rd (R.CMP_JOBj_OUT j)).toNat) (wordBytes (s.jobRun j).out) ∧ t = { s with jobs := t.jobs, dram := t.dram }) ∧
  (∀ (j : Nat) (s : State), j < 256 → (s.job j).state = 2 → (s.job j).win = none → (s.job j).waiting = false → (s.jobRun j).err ≠ 0 →
    (s.jobRun j).done.all (fun b => decide (b.k ≤ s.get F.CMP_CTRL_KMAX)) = true → s.queued = [] →
    ∃ t, exec (.cmpJobEnd j) s = .next t ∧ (t.job j).state = 4 ∧ (t.job j).err = (s.jobRun j).err ∧ (t.job j).blocks = (s.jobRun j).done.length ∧
      (t.job j).failCh = (s.jobRun j).failCh ∧ (t.job j).commit = 0 ∧ t.on F.CMP_ALERT_FAIL = true ∧ (∀ k, k ≠ j → t.job k = s.job k) ∧
      t.hist = s.hist ∧ t.part = s.part ∧ t.core = s.core) ∧
  (∀ (j : Nat) (s : State), j < 256 → s.liveMode = true → (s.job j).win = none → (s.job j).state = 1 → (s.job j).waiting = false → s.jobs.all (fun e => e.1 == j || e.2.state != 1) = true →
    ∃ t, exec (.cmpJobAbort j) s = .next t ∧ (t.job j).state = 4 ∧ (t.job j).err = 7 ∧ (t.job j).commit = 0 ∧ t.on F.CMP_ALERT_FAIL = true ∧
      t = { s with jobs := t.jobs, regs := t.regs, log := t.log }) ∧
  (∀ (j : Nat) (s : State), (s.job j).state = 2 → (s.job j).win = none → (s.job j).waiting = false → s.queued = [] →
    ∃ t, exec (.cmpParityError j) s = .next t ∧ (t.job j).state = 4 ∧ (t.job j).err = 6 ∧ (t.job j).commit = 0 ∧ t.on F.CMP_ALERT_PARITY = true ∧
      t.on F.CMP_ALERT_FAIL = true ∧ t.hist = s.hist ∧ t.part = s.part ∧ t.core = s.core)

/-- DATAGRAM_CLOSE, DATAGRAM_SEND and OVERWRITE_REPORT (R276, R279, R280, R283, R287, R288): a live datagram that is due takes its records
from the stream into the ring with the next SEQ; a port sends what waits, live before retransmitted before readout, each paid for by its
stream; a member's datagram goes out as it came; in MIRROR each port resends a range itself; an overwrite is reported once, after its
epoch. -/
def Obligations.DatagramsAreFormedAndSent : Prop :=
  (∀ (m : Nat) (r : Placed) (recs rest : List Placed) (s : State), s.streaming = true → s.streamLive m = true → s.red.bump = none → s.red.active.isSome = true →
    s.nextLive m = (r :: recs, rest) → s.closes m = true → s.epochIn (r.key.place / 250) = true → s.mergeMember = false →
    ∃ t, exec (.datagramClose m) s = .next t ∧ (t.stream m).placed = rest ∧ (t.stream m).seq = (s.stream m).seq + 1 ∧ (t.stream m).gapPend = [] ∧
      (t.stream m).ring.getLast? = some { seq := (s.stream m).seq, first := r.key.place, words := (s.stream m).gapPend.flatten ++ ((r :: recs).map (·.words)).flatten, pos := r.key.pos, no := s.net.formed, hubId := s.memberId r.key.pos, v6 := s.on (F.NSP_STRm_CFG_V6 m), dst := s.streamDst m, dstPort := s.get (F.NSP_STRm_CFG_DST_PORT m) } ∧
      (∀ k, k ≠ m → t.stream k = s.stream k) ∧ t = { s with net := t.net }) ∧
  (∀ (port m q : Nat) (d : Dgram) (s : State), s.portReady port = true → s.sys.mode ≠ .load → s.firstWaiting port .data = some (m, q) → m < 16 → s.dgram m q = some d →
    ∃ t, exec (.datagramSend port) s = .next t ∧ (port < 3 → t.net.out = s.dataTx port m .data d :: s.net.out) ∧
      (port = 3 → (s.stk.ports.val {} 0).up = true → d.words.length + 7 ≤ 1024 → (t.stk.ports.val {} 0).linkSeq = ((s.stk.ports.val {} 0).linkSeq + 1) % 65536) ∧
      (m, q) ∉ t.net.sendq.val [] port ∧ (s.get (F.NSP_STRm_RATE_MBPS m) ≠ 0 → (t.stream m).tokens = s.tokensNow m - d.cost) ∧
      t.net.retx = s.net.retx ∧ t = { s with net := t.net, stk := t.stk }) ∧
  (∀ (port q : Nat) (s : State), s.portReady port = true → s.sys.mode ≠ .load → s.firstWaiting port .data = some (16, q) →
    ∃ t, exec (.datagramSend port) s = .next t ∧ (16, q) ∉ t.net.sendq.val [] port ∧ t.net.streams = s.net.streams ∧
      t.net.out = { s.net.fwd.val {} q with
        port := port, udp := (s.net.fwd.val {} q).udp.map (fun u => { u with src := s.ipOf port u.v6 }), tag := s.vlanTag port } :: s.net.out ∧ t = { s with net := t.net }) ∧
  (∀ (port : Nat) (r : Range) (s : State), port < 2 → s.get F.NSP_CTRL_MODE ≠ 0 → s.portReady port = true → s.sys.mode ≠ .load → s.firstWaiting port .data = none →
    s.net.retx = [r] → r.next ≤ r.last → (s.portsFor r.stream).contains port = true → s.eligible r.stream r.next = true →
    ∃ t, exec (.datagramSend port) s = .next t ∧ (∃ d, s.dgram r.stream r.next = some d ∧ t.net.out = s.dataTx port r.stream .retransmit d :: s.net.out) ∧
      t.net.retx = (if r.last ≤ r.next then [] else [{ r with next := r.next + 1 }]) ∧ t = { s with net := t.net }) ∧
  (∀ (r : Range) (s : State), s.get F.NSP_CTRL_MODE = 0 → s.funnelled = false → s.linkUp 0 = true → s.linkUp 1 = true → s.sys.mode ≠ .load → s.firstWaiting 1 .data = none →
    s.net.retx = [r] → r.next ≤ r.last → r.next1 ≤ r.last → s.eligible r.stream r.next1 = true →
    ∃ t, exec (.datagramSend 1) s = .next t ∧ (∃ d, s.dgram r.stream r.next1 = some d ∧ t.net.out = s.dataTx 1 r.stream .retransmit d :: s.net.out) ∧
      t.net.retx = [{ r with next1 := r.next1 + 1 }] ∧ t = { s with net := t.net }) ∧
  (∀ (port m q : Nat) (d : Dgram) (s : State), s.portReady port = true → s.sys.mode ≠ .load → s.firstWaiting port .data = none → s.net.retx = [] →
    s.firstWaiting port .retransmit = none → s.firstWaiting port .readout = some (m, q) → m < 16 → s.dgram m q = some d →
    ∃ t, exec (.datagramSend port) s = .next t ∧ (port < 3 → t.net.out = s.dataTx port m .readout d :: s.net.out) ∧ (m, q) ∉ t.net.sendq.val [] port ∧
      t = { s with net := t.net, stk := t.stk }) ∧
  (∀ (m : Nat) (d : Dgram) (rest : List Dgram) (s : State), m < 16 → (s.stream m).lostNow = d :: rest → (s.stream m).lostAt / 250 < s.tick / 250 → s.logRoom 4 →
    ∃ t, exec (.overwriteReport m) s = .next t ∧ (t.stream m).lostNow = [] ∧ ((d :: rest).getLastD d).seq < (t.stream m).rel ∧ (s.stream m).rel ≤ (t.stream m).rel ∧
      (∃ g, (t.stream m).gapPend = (s.stream m).gapPend ++ [g]) ∧ t.on F.NSP_ALERT_OVERWRITE = true ∧
      (t.rd (R.NSP_STRm_LOST m)).toNat = min 4294967295 ((s.rd (R.NSP_STRm_LOST m)).toNat + (rest.length + 1)) ∧ Newest t Ev.NSP_OVERWRITE (evSource 9 m) ∧
      t = { s with net := t.net, regs := t.regs, log := t.log })

/-- LINK_UP, PORT_LOSS, LINK_LOOPBACK_TEST, LINK_RETRY and MAC_QUEUE_PARITY_ERROR (R270, R273, R290, R301): a port in use comes up at a speed
it tries; a lost port is down and its loss is logged; after 10 s the loopback test tells a far end that is absent from a failure of the
hub, which takes the port out of service for life. ICMP_ECHO_REQUEST, ARP_NDP_REQUEST and INVALID_DATAGRAM_RX (R270, R275): an echo
request on a port that runs is answered, at most 100 times a second; a request for the port's own address is answered with its MAC
address; an invalid datagram is counted and not answered. -/
def Obligations.LinksComeUpFailAndAnswer : Prop :=
  (∀ (port : Nat) (rate10 : Bool) (gt gr : Nat) (s : State), port < 2 → s.portUsed port = true → (s.link port).up = false → s.triesSpeed port rate10 = true → s.logRoom 4 →
    ∃ t, exec (.linkUp port rate10 gt gr) s = .next t ∧ (t.link port).up = true ∧ (∀ k, k ≠ port → t.link k = s.link k) ∧ t.get (F.NSP_UPx_STAT_LINK port) = 1 ∧
      t.get (F.NSP_UPx_STAT_SPEED port) = b2n (!rate10) ∧ t.rd (portCal (2 * port)) = wd ((nominalCal rate10).1 + gt) ∧
      t.rd (portCal (2 * port + 1)) = wd ((nominalCal rate10).2 + gr) ∧ Newest t Ev.LINK_UP (evSource 9 port) ∧
      t.get (F.NSP_UPx_STAT_FEC port) = s.fecFor port rate10 ∧ (s.get F.NSP_CTRL_MODE ≠ 0 → t.net.sendq = s.net.sendq) ∧
      t = { s with net := { s.net with links := t.net.links, sendq := t.net.sendq }, regs := t.regs, log := t.log }) ∧
  (∀ (port cause : Nat) (s : State), port < 2 → (s.link port).up = true →
    ∃ t, exec (.portLoss port cause) s = .next t ∧ (t.link port).up = false ∧ (t.link port).downAt = s.tick ∧ t.get (F.NSP_UPx_STAT_LINK port) = 0 ∧
      t.on F.NSP_ALERT_LINK_LOSS = true ∧ (∀ k, k ≠ port → t.link k = s.link k) ∧ t = { s with net := t.net, regs := t.regs, log := t.log }) ∧
  (∀ (port cause k : Nat) (s : State), port < 2 → (s.link port).up = false → s.portUsed port = true → s.live = true → s.get F.NSP_CTRL_MODE ≠ 0 →
    s.portUsed (1 - port) = true → k < 16 → (s.stream k).port = port → s.get (F.NSP_STRm_CFG_KIND k) ≠ 0 → s.get (F.NSP_STRm_SPACE_UNITS k) ≠ 0 →
    ∃ t, exec (.portLoss port cause) s = .next t ∧ (t.stream k).port = 1 - port ∧ t.net.sendq.val [] port = [] ∧ t.on F.NSP_ALERT_FAILOVER = true ∧
      (∀ j, t.link j = s.link j) ∧ t = { s with net := t.net, regs := t.regs, log := t.log }) ∧
  (∀ (port : Nat) (s : State), port < 2 → s.portUsed port = true → (s.link port).up = false → (s.link port).tested = false → (s.link port).downAt + 20000000 ≤ s.tick →
    (∃ t, exec (.linkLoopbackTest port true) s = .next t ∧ t.link port = { s.link port with tested := true } ∧ t = { s with net := { s.net with links := t.net.links } }) ∧
    (∃ t, exec (.linkLoopbackTest port false) s = .next t ∧ t.part.linkOos = port :: s.part.linkOos ∧ t.get (F.NSP_UPx_STAT_OOS port) = 1 ∧
      t.limpBits.testBit 3 = true ∧ (s.sys.mode = .run → t.sys.mode = .limp) ∧ t.linkUp port = false)) ∧
  (∀ (port : Nat) (s : State), exec (.linkRetry port) s = .next s) ∧
  (∀ (port : Nat) (s : State), port < 2 → s.part.linkOos.contains port = false →
    ∃ t, exec (.macQueueParityError port) s = .next t ∧ t.part.linkOos = port :: s.part.linkOos ∧ t.get (F.NSP_UPx_STAT_OOS port) = 1 ∧
      t.limpBits.testBit 3 = true ∧ (s.sys.mode = .run → t.sys.mode = .limp) ∧ t.linkUp port = false) ∧
  (∀ (port : Nat) (v6 : Bool) (src : Nat) (echo : List Word) (s : State), port < 2 → s.linkUp port = true → s.ipOf port v6 ≠ 0 → (s.link port).echoAt ≠ s.tick / 2000000 ∨ (s.link port).echoN < 100 →
    ∃ t, exec (.icmpEchoRequest port v6 src echo) s = .next t ∧ t.net.out = { port := port, kind := .echo, stream := 0, seq := src, words := echo, tag := s.vlanTag port } :: s.net.out ∧
      (t.link port).echoAt = s.tick / 2000000 ∧ (t.link port).echoN = (if (s.link port).echoAt = s.tick / 2000000 then (s.link port).echoN else 0) + 1 ∧
      t = { s with net := { s.net with links := t.net.links, out := t.net.out } }) ∧
  (∀ (port : Nat) (v6 : Bool) (addr : BitVec 128) (s : State), port < 2 → s.linkUp port = true → s.ipOf port v6 ≠ 0 → s.ipOf port v6 = addr.toNat →
    ∃ t, exec (.arpNdpRequest port v6 addr) s = .next t ∧
      t.net = { s.net with out := { port := port, kind := .echo, stream := 0, seq := 0, words := [wd (s.mac port).toNat, wd ((s.mac port).toNat / 2 ^ 32)], tag := s.vlanTag port } :: s.net.out } ∧
      t = { s with net := t.net }) ∧
  (∀ (port : Nat) (s : State), s.linkUp port = true →
    ∃ t, exec (.invalidDatagramRx (port, .header)) s = .next t ∧ t = { s with regs := t.regs } ∧
      t.get F.NSP_MGMT_CNT_DROPPED = min 65535 (s.get F.NSP_MGMT_CNT_DROPPED + 1) ∧ RegsBut s t [R.NSP_MGMT_CNT]) ∧
  (∀ (port : Nat) (s : State), port < 2 → s.linkUp port = true →
    ∃ t, exec (.invalidDatagramRx (port, .frame)) s = .next t ∧ t = { s with regs := t.regs } ∧
      t.get (F.NSP_UPx_STAT_RX_ERR port) = min 65535 (s.get (F.NSP_UPx_STAT_RX_ERR port) + 1) ∧ RegsBut s t [R.NSP_UPx_STAT port])

/-- READ, WRITE, REGISTER_WRITE, TIMED_WRITE_EFFECT, BLOCK_READ and UNKNOWN_REQUEST (R291 to R294, R426, R429): a request that the hub serves
is answered once, with the words or the status of its operation; a plain write stores its fields; a timed one is held until its tick. -/
def Obligations.RegistersAreReadAndWritten : Prop :=
  (∀ (r : Req) (a c : Word) (s : State), s.Serves 0x10 r true → r.words = [a, c] → 1 ≤ c.toNat % 512 → c.toNat % 512 ≤ 256 → badRange a.toNat (c.toNat % 512) = false →
    ∃ t, exec (.read r) s = .next t ∧ Answered t 0x10 r (0#32 :: (s.readRegs a.toNat (c.toNat % 512)).1) ∧ t = { s with net := t.net, stk := t.stk, latch := t.latch }) ∧
  (∀ (r : Req) (a c : Word) (s : State), s.Serves 0x10 r true → r.words = [a, c] → c.toNat % 512 = 0 ∨ 256 < c.toNat % 512 ∨ badRange a.toNat (c.toNat % 512) = true →
    ∃ t, exec (.read r) s = .next t ∧ Answered t 0x10 r [3#32]) ∧
  (∀ (r : Req) (k : Resp) (s : State), s.sys.porst = false → s.sys.mode ≠ .load → r.svc = false → s.portReady r.port = true → r.port < 2 → s.names r = true → s.sys.steward = true →
    s.kept 0x10 r = some k →
    ∃ t, exec (.read r) s = .next t ∧ t.net = { s.net with out := s.respTx { k with port := r.port } :: s.net.out } ∧ t = { s with net := t.net }) ∧
  (∀ (r : Req) (a v : Word) (w : Option Nat) (t0 : State) (s : State), s.Serves 0x11 r true → r.words = [a, 1#32, v] → r.firstTick = 0 → s.liveMode = true → badRange a.toNat 1 = false →
    setsPriv a.toNat v = false → s.writeReg false r.svc 0 a.toNat v = (w, t0) → t0.sys.unchecked = none →
    ∃ t, exec (.write r) s = .next t ∧ Answered t 0x11 r [match w with | none => 0#32 | some st => wd st] ∧
      t = { t0 with net := t.net, stk := t.stk, regs := t.regs } ∧ RegsBut t0 t [R.NSP_MGMT_CNT]) ∧
  (∀ (r : Req) (a v : Word) (s : State), s.Serves 0x11 r true → r.words = [a, 1#32, v] → s.liveMode = true → badRange a.toNat 1 = false → setsPriv a.toNat v = false →
    timedAddr a.toNat = true → s.tick + 2 < r.firstTick → bothOf (match rowAt a.toNat with | some row => row.base | none => a.toNat) v = false → s.net.timed.length < 64 →
    s.journalFull = false → s.sys.unchecked = none →
    ∃ t, exec (.write r) s = .next t ∧ Answered t 0x11 r [0#32] ∧ t.net.timed = s.net.timed ++ [(r.firstTick, a.toNat, v)] ∧ t = { s with net := t.net, stk := t.stk }) ∧
  (∀ (T q : Nat) (s : State), s.running = true → q < 16 → s.net.timed = [(T, R.TRG_SRCq_CTRL q, s.rd (R.TRG_SRCq_CTRL q) &&& ~~~3#32 ||| 1#32)] → T = s.tick → s.journalFull = false → s.core.pos < s.tick →
    s.sys.unchecked = none →
    ∃ t, exec .timedWriteEffect s = .next t ∧ t.net = { s.net with timed := [] } ∧ t.red.journal = s.red.journal ++ [(T, .srcArm q)] ∧
      t = { s with net := t.net, red := t.red }) ∧
  (∀ (T q : Nat) (s : State), s.running = true → q < 16 → s.net.timed = [(T, R.TRG_SRCq_CTRL q, s.rd (R.TRG_SRCq_CTRL q) &&& ~~~3#32 ||| 1#32)] → T ≤ s.tick → s.journalFull = false → s.core.pos = s.tick →
    s.red.bump = none → s.sys.unchecked = none →
    ∃ t, exec .timedWriteEffect s = .next t ∧ t.net = { s.net with timed := [] } ∧ t.red.journal = s.red.journal ++ [(s.tick + 1, .srcArm q)] ∧
      t = { s with net := t.net, red := t.red }) ∧
  (∀ (v : Word) (s : State), s.liveMode = true → s.sys.unchecked = none → 32768 ≤ v.toNat →
    ∃ t, exec (.registerWrite R.TIM_ASYM_THR v) s = .next t ∧ t.rd R.TIM_ASYM_THR = v ∧ t = { s with regs := t.regs, sys := { s.sys with wrote := t.sys.wrote } } ∧ RegsBut s t [R.TIM_ASYM_THR]) ∧
  (∀ (v : Word) (s : State), s.liveMode = true → s.sys.unchecked = none → v.toNat < 32768 →
    exec (.registerWrite R.TIM_ASYM_THR v) s = .next (s.flag F.TIM_ALERT_WR_REFUSED)) ∧
  (∀ (v : Word) (s : State), s.liveMode = true → s.sys.unchecked = none →
    ∃ t, exec (.registerWrite R.RED_ALERT v) s = .next t ∧ t.rd R.RED_ALERT = s.rd R.RED_ALERT &&& ~~~(v &&& 0x1FF#32) ∧ t = { s with regs := t.regs } ∧ RegsBut s t [R.RED_ALERT]) ∧
  (∀ (a : Nat) (v : Word) (s : State), s.liveMode = true → s.sys.unchecked = none → a % 4 = 0 → a < 0xF0000 → rowAt a = none →
    exec (.registerWrite a v) s = .next (s.flag (refusedFlag (ownerBlock a)))) ∧
  (∀ (a : Nat) (v : Word) (s : State), s.liveMode = false → exec (.registerWrite a v) s = .next s) ∧
  (∀ (r : Req) (o : Word) (n : Word) (s : State), s.Serves 0x12 r true → r.words = [0#32, o, 0#32, n] → n.toNat % 4 = 0 → n.toNat ≤ s.blockMax r → o.toNat + n.toNat ≤ s.rawBytes →
    ∃ t, exec (.blockRead r) s = .next t ∧ Answered t 0x12 r (0#32 :: bytesWords (Mem.bytes 0 s.dram o.toNat n.toNat)) ∧ t = { s with net := t.net, stk := t.stk }) ∧
  (∀ (type : BitVec 8) (r : Req) (s : State), opTypes.contains type.toNat = false → s.Serves type.toNat r true →
    ∃ t, exec (.unknownRequest type r) s = .next t ∧ Answered t type.toNat r [7#32] ∧ t = { s with net := t.net, stk := t.stk, regs := t.regs } ∧ RegsBut s t [R.NSP_MGMT_CNT])

/-- AUTH_CHALLENGE, AUTH_RESPONSE, SESSION_TIMEOUT and AUTH_LOCKOUT_END (R296, R298): a challenge for a valid key slot is answered with a
session ID and a nonce, whatever they are; the right tag opens the session, a wrong one is refused; a session unused for 60 s ends; a
lockout ends with its time. SVC_STATUS, SVC_REQUEST, SVC_RESPONSE and SVC_CLEAR (R300): the status is four bytes; in IDLE only a request
is taken, a malformed one sets ERROR and an executed one leaves its response; the response is read from its start, or on from where the
last read stopped, and a clear discards it. -/
def Obligations.SessionsAndTheServicePort : Prop :=
  (∀ (r : Req) (w0 a b c d : Word) (s : State), s.Serves 0x20 r true → r.words = [w0, a, b, c, d] → s.lockedOut r.svc = false → s.net.sessions.length + s.net.chals.length < 4 →
    s.hmacSlotOk (w0.toNat % 4) = true →
    ∃ t k, exec (.authChallenge r) s = .next t ∧ t.net.chals = k :: s.net.chals ∧ k.slot = w0.toNat % 4 ∧ k.nc = wordBytes [a, b, c, d] ∧ k.svc = r.svc ∧ k.last = s.tick ∧
      (∃ nh, Answered t 0x20 r (0#32 :: k.id :: nh ++ [wd s.part.serial.toNat, wd (s.part.serial.toNat / 2 ^ 32)]) ∧ k.nh = wordBytes nh ∧ nh.length = 4) ∧
      t.net.sessions = s.net.sessions) ∧
  (∀ (r : Req) (id : Word) (tc : List Word) (k : Chal) (s : State), s.Serves 0x21 r true → r.words = id :: tc → tc.length = 8 → s.net.chals.find? (fun k => k.id == id) = some k →
    s.hmacSlotOk k.slot = true → wordBytes tc = hmac256 (s.part.hk.getD k.slot []) (s.authText lwa1 id k.nc k.nh) →
    ∃ t, exec (.authResponse r) s = .next t ∧
      t.net.sessions = { id := id, slot := k.slot, sk := hmac256 (s.part.hk.getD k.slot []) (lws1 ++ leBytes 4 id.toNat ++ k.nc ++ k.nh), last := s.tick, svc := r.svc } :: s.net.sessions ∧
      t.net.chals = s.net.chals.filter (fun c => c.id != id) ∧
      Answered t 0x21 r (0#32 :: bytesWords (hmac256 (s.part.hk.getD k.slot []) (s.authText lwa2 id k.nc k.nh)))) ∧
  (∀ (r : Req) (id : Word) (tc : List Word) (k : Chal) (s : State), s.Serves 0x21 r true → r.words = id :: tc → tc.length = 8 → s.net.chals.find? (fun k => k.id == id) = some k →
    wordBytes tc ≠ hmac256 (s.part.hk.getD k.slot []) (s.authText lwa1 id k.nc k.nh) →
    ∃ t, exec (.authResponse r) s = .next t ∧ t.net.sessions = s.net.sessions ∧ t.net.chals = s.net.chals.filter (fun c => c.id != id) ∧
      t.on F.NSP_ALERT_AUTH_FAIL = true ∧ Answered t 0x21 r [4#32]) ∧
  (∀ (id : Word) (s : State), s.net.sessions.any (fun k => k.id == id && decide (k.last + 120000000 ≤ s.tick)) = true → s.upd.lock ≠ some id →
    ∃ t, exec (.sessionTimeout id) s = .next t ∧ t.net.sessions = s.net.sessions.filter (fun k => k.id != id) ∧ t = { s with net := t.net }) ∧
  (∀ (svc : Bool) (src e : Nat) (s : State), s.net.lockout = [(svc, e)] → 
    (e ≤ s.tick → exec (.authLockoutEnd svc src) s = .next { s with net := { s.net with lockout := [] } }) ∧ (s.tick < e → exec (.authLockoutEnd svc src) s = .next s)) ∧
  (∀ s : State, s.sys.porst = false →
    ∃ t, exec .svcStatus s = .next t ∧ t.net = { s.net with out := { port := 2, kind := .response, stream := 0, seq := 0, words := bytesWords ([BitVec.ofNat 8 s.net.svcState, 0] ++ leBytes 2 s.net.svcResp.length) } :: s.net.out } ∧
      t = { s with net := t.net }) ∧
  (∀ (bytes : List Byte) (s : State), s.net.svcState ≠ 0 → exec (.svcRequest bytes) s = .next s) ∧
  (∀ (bytes : List Byte) (s : State), s.sys.porst = false → s.net.svcState = 0 → s.svcParse bytes = none →
    exec (.svcRequest bytes) s = .next { s with net := { s.net with svcState := 3 } }) ∧
  (∀ (bytes : List Byte) (r : Req) (a c : Word) (s : State), s.net.svcState = 0 → s.svcParse bytes = some (0x10, r) → s.Serves 0x10 r true → s.sys.unchecked = none → r.words = [a, c] →
    1 ≤ c.toNat % 512 → c.toNat % 512 ≤ 256 → badRange a.toNat (c.toNat % 512) = false →
    ∃ t, exec (.svcRequest bytes) s = .next t ∧ Answered t 0x10 r (0#32 :: (s.readRegs a.toNat (c.toNat % 512)).1)) ∧
  (∀ (n : Nat) (s : State), s.sys.porst = false →
    (∃ t, exec (.svcResponse (false, n)) s = .next t ∧ t = { s with net := { s.net with svcPos := t.net.svcPos, out := t.net.out } } ∧
      t.net.svcPos = (s.net.svcResp.take n).length ∧ t.net.out = { port := 2, kind := .response, words := bytesWords (s.net.svcResp.take n) } :: s.net.out) ∧
    (∃ t, exec (.svcResponse (true, n)) s = .next t ∧ t = { s with net := { s.net with svcPos := t.net.svcPos, out := t.net.out } } ∧
      t.net.svcPos = s.net.svcPos + ((s.net.svcResp.drop s.net.svcPos).take n).length ∧
      t.net.out = { port := 2, kind := .response, words := bytesWords ((s.net.svcResp.drop s.net.svcPos).take n) } :: s.net.out)) ∧
  (∀ s : State, s.sys.porst = false → exec .svcClear s = .next { s with net := { s.net with svcState := 0, svcResp := [], svcPos := 0 } })

/-- UPDATE_BEGIN, UPDATE_CHUNK, UPDATE_END, LOG_READ and LOG_CLEAR (R297, R399, R401, R402, R420, R421, R422): without an open session a
privileged request is refused with ERR_AUTH and changes no update; with its trailer in order the header opens the lock, a part of the body
is taken in order, and an abort releases it; the log is read in areas, and cleared under the next SEQ. -/
def Obligations.UpdatesAndLogsAreServed : Prop :=
  (∀ (r : Req) (s : State), s.liveMode = true → s.net.sessions = [] →
    (s.Serves 0x30 r true → ∃ t, exec (.updateBegin r) s = .next t ∧ Answered t 0x30 r [4#32] ∧ t.upd = s.upd ∧ t.nvmq = s.nvmq ∧ t.on F.NSP_ALERT_AUTH_FAIL = true) ∧
    (s.Serves 0x31 r true → ∃ t, exec (.updateChunk r) s = .next t ∧ Answered t 0x31 r [4#32] ∧ t.upd = s.upd ∧ t.nvmq = s.nvmq ∧ t.on F.NSP_ALERT_AUTH_FAIL = true) ∧
    (s.Serves 0x32 r true → ∃ t, exec (.updateEnd r) s = .next t ∧ Answered t 0x32 r [4#32] ∧ t.upd = s.upd ∧ t.nvmq = s.nvmq ∧ t.on F.NSP_ALERT_AUTH_FAIL = true) ∧
    (s.Serves 0x41 r true → ∃ t, exec (.logClear r) s = .next t ∧ Answered t 0x41 r [4#32] ∧ t.upd = s.upd ∧ t.nvmq = s.nvmq ∧ t.on F.NSP_ALERT_AUTH_FAIL = true)) ∧
  (∀ (r : Req) (t0 s : State), s.Serves 0x30 r true → s.updMode = true → r.words.length = 134 → s.authTrailer 0x30 128 r = .inl t0 →
    t0.upd.lock = none → t0.upd.trial = false → t0.flashes ≠ [] →
    ∃ t, exec (.updateBegin r) s = .next t ∧ t.part = s.part ∧
      (t0.headerBad (wordBytes (r.words.take 128)) = none → ∃ n, Answered t 0x30 r [0#32, wd n] ∧ t.upd.lock = some (trailerId 128 r) ∧
        t.upd.hdr = wordBytes (r.words.take 128) ∧ t.upd.next = n ∧ t.upd.stage = 1 ∧ t.upd.idleFrom = s.tick) ∧
      (∀ e, t0.headerBad (wordBytes (r.words.take 128)) = some e → Answered t 0x30 r [wd e] ∧ t.upd = s.upd ∧ t.nvmq = s.nvmq ∧ t.on F.UPD_ALERT_REFUSED = true)) ∧
  (∀ (r : Req) (off len : Word) (data : List Word) (t0 s : State), s.Serves 0x31 r true → s.updMode = true → s.authTrailer 0x31 (r.words.length - 6) r = .inl t0 →
    r.words.take (r.words.length - 6) = off :: len :: data → 4 ≤ len.toNat → len.toNat ≤ 1024 → data.length * 4 = len.toNat → len.toNat % 4 = 0 →
    t0.upd.lock = some (trailerId (r.words.length - 6) r) → t0.upd.stage = 1 → t0.pwr.bracing = none → t0.flashes ≠ [] → off.toNat = t0.upd.next →
    off.toNat + len.toNat < 0x200 + hdrTable t0.upd.hdr → t0.upd.table.length + 0x200 = off.toNat → 0x200 + hdrTable t0.upd.hdr ≤ 0x10000 →
    ∃ t, exec (.updateChunk r) s = .next t ∧ Answered t 0x31 r [0#32, wd (off.toNat + len.toNat)] ∧
      t.upd = { t0.upd with idleFrom := s.tick, table := t0.upd.table ++ wordBytes data, next := off.toNat + len.toNat } ∧ t.nvmq = s.nvmq) ∧
  (∀ (r : Req) (t0 s : State), s.Serves 0x32 r true → s.updMode = true → r.words.length = 7 → s.authTrailer 0x32 1 r = .inl t0 → r.words.head? = some 2#32 →
    t0.upd.lock = some (trailerId 1 r) → t0.upd.stage = 1 →
    ∃ t, exec (.updateEnd r) s = .next t ∧ Answered t 0x32 r [0#32, 0#32] ∧ t.upd.lock = none ∧ t.upd.stage = 0 ∧ t.on F.UPD_ALERT_ABORT = true) ∧
  (∀ (r : Req) (t0 s : State), s.Serves 0x32 r true → s.updMode = true → r.words.length = 7 → s.authTrailer 0x32 1 r = .inl t0 → r.words.head? = some 1#32 →
    t0.upd.lock = some (trailerId 1 r) → t0.upd.stage = 1 → t0.flashes ≠ [] → hdrChunks t0.upd.hdr ≤ t0.upd.done → t0.upd.inflight = 0 →
    ∃ t, exec (.updateEnd r) s = .next t ∧ t.upd.stage = 2 ∧ t.upd.endReset = true ∧ t.upd.endReq = some { src := srcKey r, typ := 0x32, seq := r.seq, port := if r.svc then 2 else r.port, v6 := r.v6 } ∧
      t.net.resps = s.net.resps) ∧
  (∀ (r : Req) (first n : Word) (s : State), s.Serves 0x40 r true → r.words = [3#32, first, n] → 1 ≤ n.toNat % 64 → n.toNat % 64 ≤ 44 →
    ∃ t f l, exec (.logRead r) s = .next t ∧
      Answered t 0x40 r (0#32 :: wd ((s.part.tombs.drop first.toNat).take (n.toNat % 64)).length :: f :: l ::
        ((s.part.tombs.drop first.toNat).take (n.toNat % 64)).flatMap (fun x => numWords 4 x.toNat)) ∧ t = { s with net := t.net, stk := t.stk }) ∧
  (∀ (r : Req) (t0 s : State), s.Serves 0x41 r true → r.words.length = 9 → s.authTrailer 0x41 3 r = .inl t0 → r.words.head? = some 0x434C5241#32 →
    t0.logTakes 0 = true → t0.log.clear = none →
    ∃ t c, exec (.logClear r) s = .next t ∧ Answered t 0x41 r [0#32, wd s.log.next] ∧ t.log.clear = some c ∧ c.seq = s.log.next ∧ c.record.code = Ev.LOG_CLEARED ∧
      c.record.data = wordBytes ((r.words.take 3).drop 1) ∧ t.log.next = (s.log.next + 1) % 2 ^ 32 ∧ t.part.clearSeq = s.log.next)

/-- TRIGGER, SYNC, NACK and ACK (R182, R226, R282, R285, R286, R295): a trigger whose stamp is past acts at the next tick, one to come is
held, a copy changes nothing; a sync that is early enough waits for its tick; datagrams that the ring holds are queued again, others are
listed; an acknowledgement moves the release point and is not answered. -/
def Obligations.TriggersSyncsAndAcknowledgements : Prop :=
  (∀ (r : Req) (w : Word) (s : State), s.Serves 0x50 r false → r.words = [w] → s.running = true → r.firstTick < s.tick → s.journalFull = false → s.hist.dedup = [] → s.core.pos ≤ s.tick →
    ∃ t, exec (.trigger r) s = .next t ∧ Answered t 0x50 r [0#32] ∧ t.red.journal = s.red.journal ++ [(s.tick + 1, .trigger (w.toNat % 256) r.firstTick)] ∧
      t.hist = { s.hist with dedup := [(w.toNat % 256, r.firstTick, s.tick)] } ∧ t = { s with net := t.net, stk := t.stk, hist := t.hist, red := t.red }) ∧
  (∀ (r : Req) (w : Word) (s : State), s.Serves 0x50 r false → r.words = [w] → s.running = true → s.tick ≤ r.firstTick → r.firstTick ≤ s.tick + 7200000000 → s.hist.dedup = [] → s.hist.held.length < 16 → s.journalFull = false →
    ∃ t, exec (.trigger r) s = .next t ∧ Answered t 0x50 r [0#32] ∧ t.hist = { s.hist with held := s.hist.held ++ [(w.toNat % 256, r.firstTick)], dedup := [(w.toNat % 256, r.firstTick, s.tick)] } ∧
      t = { s with net := t.net, stk := t.stk, hist := t.hist }) ∧
  (∀ (r : Req) (w : Word) (e : Nat) (s : State), s.Serves 0x50 r false → r.words = [w] → s.running = true → r.firstTick ≤ s.tick → s.hist.dedup = [(w.toNat % 256, r.firstTick, e)] → s.tick ≤ e + 2000000 →
    ∃ t, exec (.trigger r) s = .next t ∧ Answered t 0x50 r [0#32] ∧ t = { s with net := t.net, stk := t.stk }) ∧
  (∀ (r : Req) (s : State), s.Serves 0x51 r false → r.words = [] → s.liveMode = true → s.tick + 2 < r.firstTick → s.journalFull = false →
    ∃ t, exec (.sync r) s = .next t ∧ Answered t 0x51 r [0#32] ∧ t.hist = { s.hist with syncs := s.hist.syncs ++ [(r.firstTick, 18)] } ∧
      t.stk.ctrlQ = s.stk.ctrlQ ++ (if s.leads && s.on F.STK_CTRL_SYNC_OUT then [(2, r.firstTick)] else []) ∧
      t = { s with net := t.net, stk := t.stk, hist := t.hist }) ∧
  (∀ (r : Req) (s : State), s.Serves 0x51 r false → r.words = [] → s.liveMode = true → r.firstTick ≤ s.tick + 2 →
    ∃ t, exec (.sync r) s = .next t ∧ Answered t 0x51 r [3#32] ∧ t.on F.FLT_ALERT_SYNC_LATE = true ∧ t.hist = s.hist) ∧
  (∀ (r : Req) (m : Nat) (a b : Word) (s : State), s.Serves 0x60 r false → m < 16 → r.words = [wd (m + 256), a, b] → s.live = true → s.get (F.NSP_STRm_CFG_KIND m) ≠ 0 → s.net.retx = [] →
    1 ≤ b.toNat / 65536 → (s.stream m).oldest ≤ a.toNat + b.toNat % 65536 * 2 ^ 32 → a.toNat + b.toNat % 65536 * 2 ^ 32 + b.toNat / 65536 ≤ (s.stream m).seq →
    ∃ t, exec (.nack r) s = .next t ∧ Answered t 0x60 r [0#32, 1#32] ∧
      t.net.retx = [{ stream := m, next := a.toNat + b.toNat % 65536 * 2 ^ 32, last := a.toNat + b.toNat % 65536 * 2 ^ 32 + b.toNat / 65536 - 1, next1 := a.toNat + b.toNat % 65536 * 2 ^ 32 }] ∧
      t = { s with net := t.net, stk := t.stk }) ∧
  (∀ (r : Req) (m : Nat) (a b : Word) (s : State), s.Serves 0x61 r false → r.svc = false → m < 16 → r.words = [wd m, a, b] → s.live = true → s.get (F.NSP_STRm_CFG_KIND m) = 1 → s.ackSet m = true →
    a.toNat + b.toNat % 65536 * 2 ^ 32 < (s.stream m).seq →
    ∃ t, exec (.ack r) s = .next t ∧ t.stream m = { s.stream m with rel := max (s.stream m).rel (a.toNat + b.toNat % 65536 * 2 ^ 32 + 1) } ∧
      (∀ k, k ≠ m → t.stream k = s.stream k) ∧ t.net.out = s.net.out ∧ t = { s with net := t.net })

/-- STACK_LINK_TRAINING, STACK_LANE_SPARE, STACK_LINK_LOSS and LANE_EYE_SCAN (R18, R305, R306, R378): a port whose neighbour fits comes up,
another is held down and reported; the first lane that fails moves to the spare, a second one puts the hub in LIMP; a lost port is down;
an eye is shown, and a stack lane whose eye has been low for 1 s leaves service. STACK_PACKET_RX, MERGE_ACK_RX, CREDIT_GRANT,
FORWARD_DATAGRAM and STACK_MGMT_PACKET (R307, R308, R323, R325): a packet that fails its CRC is counted and acknowledged negatively; one
so acknowledged is sent again and counted; a good one acknowledges; an acknowledged epoch is released; the ringmaster puts a member's
datagram unchanged among its own, grants one credit at a time, and a member serves what is passed on to it. -/
def Obligations.StackPortsTrainAndFail : Prop :=
  (∀ (x : Nat) (p : BitVec 4) (neigh : BitVec 12) (id : BitVec 16) (s : State), s.sys.porst = false → x < 2 → s.stk.deputy = false → s.posFits x p.toNat = true →
    id.toNat = s.get F.STK_CTRL_TROUPE_ID → s.logRoom 4 →
    ∃ t, exec (.stackLinkTraining x 31#5 (p, neigh) id) s = .next t ∧ t.portQuiet x ∧ (t.stkPort x).linkSeq = 0 ∧
      t.get (F.STK_PORTx_STAT_NEIGH_POS x) = p.toNat ∧ t.get (F.STK_PORTx_NEIGH_HUB_ID x) = neigh.toNat ∧ t.get (F.STK_PORTx_NEIGH_TROUPE_ID x) = id.toNat ∧ Newest t Ev.STK_LINK (evSource 10 x) ∧ t.part = s.part ∧ t = { s with stk := t.stk, regs := t.regs, log := t.log }) ∧
  (∀ (x : Nat) (p : BitVec 4) (neigh : BitVec 12) (id : BitVec 16) (s : State), s.sys.porst = false → x < 2 → s.stk.deputy = false →
    s.posFits x p.toNat = false ∨ id.toNat ≠ s.get F.STK_CTRL_TROUPE_ID → s.logRoom 8 →
    ∃ t, exec (.stackLinkTraining x 31#5 (p, neigh) id) s = .next t ∧ (t.stkPort x).up = false ∧ t.on F.STK_ALERT_TOPOLOGY = true ∧ Newest t Ev.STK_TOPOLOGY (evSource 10 x) ∧
      t.part = s.part ∧ t = { s with stk := t.stk, regs := t.regs, log := t.log }) ∧
  (∀ (x l : Nat) (s : State), s.sys.porst = false → x < 2 → l < 4 → s.badLanes x = [] →
    ∃ t, exec (.stackLaneSpare x l) s = .next t ∧ t.part = { s.part with lanes := s.part.lanes ++ [(x, l)] } ∧ (t.stkPort x).spare = some l ∧ t.on F.STK_ALERT_LANE_SPARE = true ∧
      t.sys = s.sys ∧ t = { s with part := t.part, stk := t.stk, regs := t.regs, log := t.log }) ∧
  (∀ (x l : Nat) (s : State), s.sys.porst = false → x < 2 → l < 5 → s.badLanes x ≠ [] → (s.badLanes x).contains l = false →
    ∃ t, exec (.stackLaneSpare x l) s = .next t ∧ t.part.lanes = s.part.lanes ++ [(x, l)] ∧ t.limpBits.testBit 4 = true ∧ (s.sys.mode = .run → t.sys.mode = .limp)) ∧
  (∀ (x : Nat) (s : State), x < 2 → (s.stkPort x).up = true → s.logRoom 4 →
    ∃ t, exec (.stackLinkLoss x) s = .next t ∧ (t.stkPort x).up = false ∧ Newest t Ev.STK_LINK (evSource 10 x) ∧ t.stk.lock = s.stk.lock ∧
      t = { s with stk := t.stk, regs := t.regs, log := t.log }) ∧
  (∀ (lane w h c : Nat) (a : Bool) (s : State), s.sys.porst = false → lane < 12 → 20 ≤ w → w < 128 → 25 ≤ h → h < 1024 → 
    ∃ t, exec (.laneEyeScan lane w h c a) s = .next t ∧ t.get (F.CAL_LANEl_EYE_WIDTH lane) = w ∧ t.get (F.CAL_LANEl_EYE_HEIGHT lane) = h ∧ t.get (F.CAL_LANEl_EYE_LOW lane) = 0 ∧
      t.part = s.part ∧ t.sys = s.sys ∧ t.core = s.core) ∧
  (∀ (x l b w h c : Nat) (a : Bool) (s : State), s.sys.porst = false → x < 2 → l < 5 → w < 20 ∨ h < 25 → (s.stkPort x).lowFrom.look l = some b → b + 2000000 ≤ s.tick → (s.badLanes x).contains l = false →
    ∃ t, exec (.laneEyeScan (2 + 5 * x + l) w h c a) s = .next t ∧ t.get (F.CAL_LANEl_EYE_LOW (2 + 5 * x + l)) = 1 ∧ t.part.lanes = s.part.lanes ++ [(x, l)]) ∧
  (∀ (x : Nat) (ws : List Word) (s : State), s.sys.porst = false → x < 2 → (s.stkPort x).up = true →
    ∃ t, exec (.stackPacketRx x ws .bad) s = .next t ∧ t.get (F.STK_PORTx_STAT_RETRY x) = min 65535 (s.get (F.STK_PORTx_STAT_RETRY x) + 1) ∧
      t.net.out = { port := 3 + x, kind := .nack, seq := ((s.stkPort x).ackSeq + 1) % 65536 } :: s.net.out ∧ t = { s with net := t.net, regs := t.regs } ∧
      RegsBut s t [R.STK_PORTx_STAT x]) ∧
  (∀ (x : Nat) (ws : List Word) (q : BitVec 16) (p : Tx) (s : State), s.sys.porst = false → x < 2 → (s.stkPort x).up = true → (s.stkPort x).replay = [p] →
    (s.stkPort x).waiting = [] → (s.stkPort x).linkSeq = (q.toNat + 1) % 65536 →
    ∃ t, exec (.stackPacketRx x ws (.nack q)) s = .next t ∧ t.get (F.STK_PORTx_STAT_RETRY x) = min 65535 (s.get (F.STK_PORTx_STAT_RETRY x) + 1) ∧
      t.net.out = p :: s.net.out ∧ t = { s with net := t.net, regs := t.regs } ∧ RegsBut s t [R.STK_PORTx_STAT x]) ∧
  (∀ (x : Nat) (w0 w1 : Word) (payload : List Word) (s : State), s.sys.porst = false → x < 2 → (s.stkPort x).up = true → (s.stkPort x).waiting = [] →
    w0.toNat % 16 = 0 → w0.toNat < 2 ^ 27 → payload.length ≤ 1024 → w0.toNat / 65536 % 2048 = payload.length → w0.toNat / 4096 % 16 = s.sys.pos → s.sys.pos < 15 → w0.toNat / 256 % 16 < s.get F.STK_STAT_SIZE →
    w1.toNat % 65536 = ((s.stkPort x).ackSeq + 1) % 65536 →
    ∃ t, exec (.stackPacketRx x (w0 :: w1 :: payload) .good) s = .next t ∧ (t.stkPort x).ackSeq = w1.toNat % 65536 ∧ (t.stkPort x).replay.length ≤ (s.stkPort x).replay.length ∧
      t = { s with stk := t.stk }) ∧
  (∀ (e : Nat) (s : State), exec (.mergeAckRx e) s = .next { s with stk := { s.stk with unacked := s.stk.unacked.filter (fun k => k.1 != e) } }) ∧
  (∀ (p : Nat) (s : State), s.sys.porst = false → s.merges = true → s.creditPos = some p →
    ∃ t, exec .creditGrant s = .next t ∧ t.stk.credit = some p ∧ p ∈ s.mergePositions ∧ t = { s with stk := t.stk, net := t.net } ∧
      (s.portQuiet 1 → t.net.out = s.packet 1 0 6 p [] :: s.net.out)) ∧
  (∀ (pos : Nat) (live again : Bool) (d : Fwd) (s : State), s.sys.porst = false → s.sys.mode ≠ .load → s.leads = true → s.get F.STK_CTRL_FUNNEL ≠ 0 → (s.stkPort 1).up = true → pos < 16 →
    ∃ t, exec (.forwardDatagram pos live again d) s = .next t ∧ t.net.formed = s.net.formed + 1 ∧ (∀ p, p ∈ s.portsFor d.stream → (16, s.net.formed) ∈ t.net.sendq.val [] p) ∧
      (t.net.fwd.val {} s.net.formed).kind = (if live then .data else if again then .retransmit else .readout) ∧
      (t.net.fwd.val {} s.net.formed).words = d.words ∧ (t.net.fwd.val {} s.net.formed).seq = d.seq ∧ (t.net.fwd.val {} s.net.formed).stream = d.stream ∧
      (t.net.fwd.val {} s.net.formed).nsp = some { typ := 1, hubId := d.hubId, stream := d.stream, seq := d.seq, first := d.first, boot := d.boot } ∧
      (t.net.fwd.val {} s.net.formed).udp = some { v6 := d.v6, dst := d.dst, srcPort := 47318, dstPort := d.dstPort, df := !d.v6 } ∧
      t.net.out = s.net.out ∧
      t = { s with net := t.net, regs := t.regs } ∧ RegsBut s t [R.STK_STAT]) ∧
  (∀ (r : Req) (s : State), s.leads = false → s.sys.unchecked = none → s.Serves 0x40 { r with svc := false, port := 3 } true → r.words.length ≠ 3 →
    ∃ t, exec (.stackMgmtPacket 0x40#8 r) s = .next t ∧ Answered t 0x40 { r with svc := false, port := 3 } [6#32])

/-- FRAME_PACKET, RTT_PACKET, HOP_TAP_STEP, CLOCK_BUS_LOSS, STK_RESUME and DEPUTY_HANDBACK (R308, R310 to R312, R326): a member joins the
clock bus with a round trip in range and a FRAME near enough to its own time; its tap moves one step of 10 ps a frame; the loss of the bus
makes the deputy the ringmaster and leaves any other member alone; the deputy hands back at a frame boundary. -/
def Obligations.MembersFollowTheClockBus : Prop :=
  (∀ (rt : Nat) (s : State), s.sys.porst = false → s.leads = false → (s.stkPort 0).up = true → 0 ≤ s.hopDelay rt → s.hopDelay rt ≤ 5600 * 131072 →
    ∃ t, exec (.rttPacket (false, rt)) s = .next t ∧ t.stk = { s.stk with hop := some true } ∧ t = { s with stk := t.stk, regs := t.regs } ∧ RegsBut s t [R.STK_TAP]) ∧
  (∀ (rt : Nat) (s : State), s.sys.porst = false → s.leads = false → (s.stkPort 0).up = true → s.hopDelay rt < 0 ∨ 5600 * 131072 < s.hopDelay rt → s.stk.hop ≠ some false → s.onBus = false → s.logRoom 4 →
    ∃ t, exec (.rttPacket (false, rt)) s = .next t ∧ t.stk.hop = some false ∧ t.on F.STK_ALERT_HOP_RANGE = true ∧ Newest t Ev.STK_TOPOLOGY (evSource 10 0)) ∧
  (∀ (rt : Nat) (s : State), s.sys.porst = false → (s.stkPort 1).up = true → rt < 2 ^ 32 → s.stk.rttFrame ≠ some (s.tick / 2000) →
    ∃ t, exec (.rttPacket (true, rt)) s = .next t ∧ (t.rd R.STK_HOP_RT).toNat = rt ∧ t.stk.rttFrame = some (s.tick / 2000) ∧
      (s.portQuiet 1 → t.net.out = s.packet 1 0 0 (s.sys.pos + 1) [2#32, wd rt, wd s.sys.pos] :: s.net.out) ∧
      t = { s with stk := t.stk, net := t.net, regs := t.regs } ∧ RegsBut s t [R.STK_HOP_RT]) ∧
  (∀ (rt : Nat) (s : State), s.sys.porst = false → (s.stkPort 1).up = true → rt < 2 ^ 32 → s.stk.rttFrame = some (s.tick / 2000) →
    ∃ t, exec (.rttPacket (true, rt)) s = .next t ∧ (t.rd R.STK_HOP_RT).toNat = rt ∧ t = { s with regs := t.regs } ∧ RegsBut s t [R.STK_HOP_RT]) ∧
  (∀ s : State, s.sys.porst = false → s.leads = false → s.stk.hop = some true → s.stk.tapFrame ≠ some (s.tick / 2000) →
    ∃ t, exec .hopTapStep s = .next t ∧ t = { s with stk := { s.stk with tapFrame := some (s.tick / 2000) }, regs := t.regs } ∧ RegsBut s t [R.STK_TAP] ∧
      (-1000 ≤ s.getI F.STK_TAP_TAP → s.getI F.STK_TAP_TAP ≤ 1000 → (t.getI F.STK_TAP_TAP - s.getI F.STK_TAP_TAP).natAbs ≤ 1) ∧ (t.getI F.STK_TAP_TAP).natAbs ≤ 1000) ∧
  (∀ (w1 w2 w3 : Word) (s : State), s.sys.porst = false → s.leads = false → (s.stkPort 0).up = true → (s.stkPort 1).up = false → s.stk.lock = false → s.stk.hop = some true → s.stk.far = false →
    s.live = true → s.joinable (s.busDiff (w1.toNat + w2.toNat * 2 ^ 32)) = true →
    ∃ t, exec (.framePacket [1#32, w1, w2, w3]) s = .next t ∧ t.stk.lock = true ∧ t.stk.busResid = s.busDiff (w1.toNat + w2.toNat * 2 ^ 32) ∧ t.stk.frameTick = some (w1.toNat + w2.toNat * 2 ^ 32) ∧
      t.stk.frameSrc = w3.toNat % 4 ∧ t.tim.follow = none ∧ t.tim.atVal = s.tim.atVal ∧ t.core = s.core ∧ t.part = s.part) ∧
  (∀ (w1 w2 w3 : Word) (s : State), s.sys.porst = false → s.leads = false → (s.stkPort 0).up = true → (s.stkPort 1).up = false → s.stk.lock = false → s.stk.hop = some true → s.stk.far = false →
    s.live = true → s.joinable (s.busDiff (w1.toNat + w2.toNat * 2 ^ 32)) = false → s.logRoom 3 →
    ∃ t, exec (.framePacket [1#32, w1, w2, w3]) s = .next t ∧ t.stk.lock = false ∧ t.stk.far = true ∧ t.on F.TIM_ALERT_AT_FAR = true ∧ Newest t Ev.AT_FAR (evSource 1 0) ∧ t.tim = s.tim) ∧
  (∀ (ws : List Word) (s : State), s.sys.porst = false → s.leads = true → s.stk.deputy = false → s.live = true → s.tick % 2000 = 1000 → s.portQuiet 1 →
    ∃ t, exec (.framePacket ws) s = .next t ∧
      t.net.out = s.packet 1 0 0 15 ([1#32] ++ tickWords (nextFrame s.tick) ++ [wd (s.tim.atSrc % 4)]) :: s.net.out ∧ t = { s with stk := t.stk, net := t.net }) ∧
  (∀ s : State, s.sys.porst = false → s.onBus = true → s.sys.pos ≠ 1 →
    ∃ t, exec .clockBusLoss s = .next t ∧ t.stk.lock = false ∧ t.stk.busLost = true ∧ t.stk.deputy = false ∧ t.leads = s.leads ∧ t.tick = s.tick ∧ t.core = s.core) ∧
  (∀ s : State, s.sys.porst = false → s.onBus = true → s.sys.pos = 1 → s.on F.STK_CTRL_DEPUTY = true → s.joined = true → s.live = true →
    ∃ t, exec .clockBusLoss s = .next t ∧ t.stk.deputy = true ∧ t.leads = true ∧ (t.stkPort 0).up = false ∧ t.on F.STK_ALERT_TAKEOVER = true ∧ t.tick = s.tick ∧ t.core = s.core) ∧
  (∀ s : State, s.stk.deputy = true → s.liveMode = true → exec .stkResume s = .next { s with stk := { s.stk with resume := true } }) ∧
  (∀ (f : Nat) (s : State), s.stk.frameTick = some f → s.live = true → s.stk.deputy = true → s.stk.resume = true → s.tick % 2000 = 0 → s.joinable (((s.tick : Int) - (f : Int)) * 500 * 2 ^ 64) = true →
    ∃ t, exec .deputyHandback s = .next t ∧ t.stk.deputy = false ∧ t.stk.resume = false ∧ t.stk.lock = true ∧ (t.stkPort 0).up = true ∧
      t.stk.busResid = ((s.tick : Int) - (f : Int)) * 500 * 2 ^ 64 ∧ t.tim.atVal = s.tim.atVal ∧ t.core = s.core)

/-- BUS_INWARD_FRAME, BUS_OUTWARD_FRAME and ARM_ANY_REARM (R241, R242, R314 to R317): the inward frame carries the earliest stamp on; an
outward one raises its lines at stamp + BUS_LAT in every joined hub; in ARM_ANY the first event disarms the bus sources; the ringmaster
re-arms them, TRG_REARM ticks later, by a control item of a tick that leaves room. POOL_LOST, MERGE_RECORDS_RX, MERGE_DROP and
TEST_PORT_INSTRUCTION (R320, R323, R324, R454): a pooled write that waits 64 ticks ends the pool and the ticks it held; a member's records
enter the merged streams once for each epoch, and are acknowledged; a position that has not delivered is dropped, and changes to FORWARD
itself; the test port selects its instruction. -/
def Obligations.TheTroupeSharesTriggersPoolAndStreams : Prop :=
  (∀ (T : Nat) (l : BitVec 8) (s : State), s.live = true → s.joined = true → s.stk.busQ = [] →
    ∃ t, exec (.busInwardFrame (some T) l) s = .next t ∧ t.stk = { s.stk with merged := some ⟨T, l⟩, mergedSrc := false } ∧ t = { s with stk := t.stk }) ∧
  (∀ (T : Nat) (l : BitVec 8) (e : BusEv) (s : State), s.live = true → s.joined = true → s.stk.busQ = [e] → s.tick ≤ e.stamp + 33554431 →
    ∃ t, exec (.busInwardFrame (some T) l) s = .next t ∧ t = { s with stk := t.stk } ∧ t.stk.busQ = s.stk.busQ ∧
      (T < e.stamp → t.stk.merged = some ⟨T, l⟩ ∧ t.stk.mergedSrc = false) ∧ (e.stamp < T → t.stk.merged = some e ∧ t.stk.mergedSrc = true) ∧
      (e.stamp = T → t.stk.merged = some ⟨T, l ||| e.lines⟩ ∧ t.stk.mergedSrc = true)) ∧
  (∀ (T : Nat) (l : BitVec 8) (s : State), s.running = true → s.joined = true → s.leads = false → s.stk.busQ = [] → s.tick < T + s.get F.TRG_CTRL_BUS_LAT → s.core.pos ≤ s.tick → s.get F.TRG_CTRL_MODE ≠ 2 →
    ∃ t, exec (.busOutwardFrame (some T) l 0 0) s = .next t ∧ t.red.journal = s.red.journal ++ [(T + s.get F.TRG_CTRL_BUS_LAT, .bus l T)] ∧ t.stk.merged = none ∧ t.stk.outward = s.tick ∧
      t = { s with stk := t.stk, red := t.red }) ∧
  (∀ (T a : Nat) (l : BitVec 8) (s : State), s.running = true → s.joined = true → s.leads = false → s.stk.busQ = [] → s.tick < T + s.get F.TRG_CTRL_BUS_LAT → s.core.pos ≤ s.tick →
    s.get F.TRG_CTRL_MODE = 2 → s.stk.armedAny = some a → a ≤ T + s.get F.TRG_CTRL_BUS_LAT →
    ∃ t, exec (.busOutwardFrame (some T) l 0 0) s = .next t ∧
      t.red.journal = s.red.journal ++ (T + s.get F.TRG_CTRL_BUS_LAT, .bus l T) :: s.busSources.map (fun q => (T + s.get F.TRG_CTRL_BUS_LAT, .srcDisarm q)) ∧
      t.stk.armedAny = none ∧ t = { s with stk := t.stk, red := t.red }) ∧
  (∀ (T : Nat) (s : State), s.live = true → s.joined = true → s.leads = false → s.tick + 2 ≤ T → T ≤ s.tick + 524287 → s.journalFull = false →
    ∃ t, exec (.busOutwardFrame none 0 2 T) s = .next t ∧ t.hist = { s.hist with syncs := s.hist.syncs ++ [(T, 1)] } ∧ t = { s with stk := t.stk, hist := t.hist }) ∧
  (∀ (T : Nat) (s : State), s.live = true → s.leads = true → s.stk.merged = none → s.stk.ctrlQ = [(2, T)] → s.tick + 2 ≤ T → T ≤ s.tick + 524287 → s.journalFull = false →
    ∃ t, exec (.busOutwardFrame none 0 0 0) s = .next t ∧ t.stk.ctrlQ = [] ∧ t.hist = { s.hist with syncs := s.hist.syncs ++ [(T, 1)] } ∧ t = { s with stk := t.stk, hist := t.hist }) ∧
  (∀ s : State, s.live = true → s.leads = true → s.get F.TRG_CTRL_MODE = 2 → s.stk.armedAny = none → s.stk.rearmAt.getD 0 ≤ s.tick + 3 →
    exec .armAnyRearm s = .next { s with stk := { s.stk with rearmAt := none, ctrlQ := s.stk.ctrlQ ++ [(1, s.tick + 3)] } }) ∧
  (∀ s : State, s.stk.poolOn = true → 500 ≤ s.ownBytes → s.stk.poolBuf.any (fun e => decide (e.2.1 + 64 ≤ s.tick)) = true →
    ∃ t, exec .poolLost s = .next t ∧ t.stk.poolBuf = [] ∧ t.get F.STK_POOL_STAT_BORROWED = 0 ∧ t.on F.STK_ALERT_POOL_LOST = true ∧ t.part = s.part ∧ t.tick = s.tick ∧ t.sys.mode = s.sys.mode) ∧
  (∀ (p e : Nat) (recs : List (Nat × Nat × List Word)) (fin : Bool) (s : State), s.sys.porst = false → s.leads = true → s.get F.STK_CTRL_FUNNEL = 2 → p < 16 →
    s.stk.dropped.toNat.testBit p = false → s.sys.pos < p → (s.stkPort 1).up = true → s.stk.delivered.contains (p, e) = false →
    ∃ t, exec (.mergeRecordsRx p e (recs, fin)) s = .next t ∧ t.stk.delivered.contains (p, e) = true ∧ (s.portQuiet 1 → t.net.out.head? = some (s.packet 1 e 7 p [])) ∧
      (∀ d, fin = true → ((s.seePos p).mergeAll p recs).draining p = some d → ∀ k, k ∈ t.stk.drains → ¬ (k.cut = d.cut ∧ k.desc = d.desc ∧ k.pos = p)) ∧
      t.part = s.part ∧ t.core = s.core ∧ t.tick = s.tick) ∧
  (∀ (p e : Nat) (recs : List (Nat × Nat × List Word)) (fin : Bool) (s : State), s.sys.porst = false → s.leads = true → s.get F.STK_CTRL_FUNNEL = 2 → p < 16 →
    s.stk.dropped.toNat.testBit p = false → s.sys.pos < p → (s.stkPort 1).up = true → s.stk.delivered.contains (p, e) = true →
    ∃ t, exec (.mergeRecordsRx p e (recs, fin)) s = .next t ∧ t.net.streams = s.net.streams ∧ (s.portQuiet 1 → t.net.out = s.packet 1 e 7 p [] :: s.net.out)) ∧
  (∀ (p : Nat) (s : State), s.sys.porst = false → p < 16 → s.get F.STK_CTRL_FUNNEL = 2 → s.leads = true → p ∈ s.mergePositions → 4250 ≤ s.tick →
    s.stk.delivered = [] → s.logRoom 3 →
    ∃ t, exec (.mergeDrop p) s = .next t ∧ t.stk = { s.stk with dropped := s.stk.dropped ||| BitVec.ofNat 16 (2 ^ p) } ∧ t.on F.STK_ALERT_MERGE_DROP = true ∧
      Newest t Ev.MERGE_DROP (evSource 10 0) ∧ t = { s with stk := t.stk, regs := t.regs, log := t.log }) ∧
  (∀ (p : Nat) (s : State), s.sys.porst = false → p < 16 → s.leads = false → p = s.sys.pos → s.mergeMember = true →
    ∃ t, exec (.mergeDrop p) s = .next t ∧ t.stk.forward = true ∧ t.stk.unacked = [] ∧ t = { s with stk := t.stk, net := t.net }) ∧
  (∀ (i : TestInstr) (s : State), exec (.testPortInstruction i) s = .next { s with sys := { s.sys with jtag := if i = .reset then .bypass else i } })
end

