-- ==== Sys2Proof/Decode.lean ====
section
/-! DEFINITION. Decode.lean: the opcode table gives its rows no bits (log 9), so no word spells a command. -/
namespace Sys2Proof

/-- The command that a word spells by the table's bits: the table gives bits to no row, so none (log 9). -/
def decodeTableWord (_nbits _w : Nat) : Option Instr := none

end Sys2Proof
end

