-- ==== Sys2Proof/Laws/Memory.lean ====
section
/-! SUPPORT. Laws/Memory.lean: byte memories and the register file: reading after writing, and that every operation keeps the
canonical form. -/
namespace Sys2Proof.Machine

/-! The canonical form, said as a sorted list. -/

theorem canonZip_iff {α : Type} (m : List (Nat × α)) :
    (m.zip m.tail).all (fun p => decide (p.1.1 < p.2.1)) = true ↔ m.Pairwise (fun x y => x.1 < y.1) := by
  induction m with
  | nil => simp
  | cons c t ih =>
    cases t with
    | nil => simp
    | cons e t =>
      simp only [List.tail_cons, List.zip_cons_cons, List.all_cons, Bool.and_eq_true, decide_eq_true_eq] at ih ⊢
      rw [ih]
      constructor
      · rintro ⟨h, hp⟩
        refine List.Pairwise.cons ?_ hp
        intro y hy
        rcases List.mem_cons.mp hy with rfl | hy
        · exact h
        · exact Nat.lt_trans h (List.rel_of_pairwise_cons hp hy)
      · intro hp
        exact ⟨List.rel_of_pairwise_cons hp (List.mem_cons_self ..), hp.of_cons⟩

theorem Mem.canon_iff (d : Byte) (m : List Host.Cell) :
    Mem.canon d m = true ↔ m.Pairwise (fun x y => x.1 < y.1) ∧ ∀ c ∈ m, c.2 ≠ d := by
  rw [Mem.canon, Bool.and_eq_true, canonZip_iff]
  simp

theorem Regs.canon_iff (m : List (Nat × Word)) :
    Regs.canon m = true ↔ m.Pairwise (fun x y => x.1 < y.1) ∧ ∀ c ∈ m, c.2 ≠ resetWord c.1 := by
  rw [Regs.canon, Bool.and_eq_true, canonZip_iff]
  simp

/-! The register file. -/

theorem Regs.find_append (m n : List (Nat × Word)) (a : Nat) :
    (m ++ n).find? (fun c => c.1 == a) = (m.find? (fun c => c.1 == a)).or (n.find? (fun c => c.1 == a)) := by
  simp [List.find?_append]

theorem Regs.find_filter (m : List (Nat × Word)) (a : Nat) (p : Nat → Bool) :
    (m.filter (fun c => p c.1)).find? (fun c => c.1 == a) = if p a then m.find? (fun c => c.1 == a) else none := by
  induction m with
  | nil => simp
  | cons c t ih =>
    by_cases hp : p c.1 <;> by_cases ha : c.1 = a
    · subst ha; simp [hp]
    · simp [hp, ha, ih]
    · subst ha; simp [hp, ih]
    · simp [hp, ha, ih]

/-- A register reads what was last written to it. -/
@[simp] theorem Regs.read_write_same (m : List (Nat × Word)) (a : Nat) (v : Word) : Regs.read (Regs.write m a v) a = v := by
  unfold Regs.read Regs.write
  rw [Regs.find_append, Regs.find_append, Regs.find_filter m a (fun x => decide (x < a)), Regs.find_filter m a (fun x => decide (a < x))]
  by_cases h : v = resetWord a <;> simp [h]

/-- A write leaves every other register. -/
theorem Regs.read_write_other (m : List (Nat × Word)) {a b : Nat} (v : Word) (h : b ≠ a) :
    Regs.read (Regs.write m a v) b = Regs.read m b := by
  unfold Regs.read Regs.write
  rw [Regs.find_append, Regs.find_append, Regs.find_filter m b (fun x => decide (x < a)), Regs.find_filter m b (fun x => decide (a < x))]
  have h1 : ((if v = resetWord a then [] else [(a, v)]) : List (Nat × Word)).find? (fun c => c.1 == b) = none := by
    split <;> simp [Ne.symm h]
  rw [h1]
  rcases Nat.lt_or_gt_of_ne h with hl | hg
  · have : ¬ a < b := by omega
    simp [hl, this]
  · have : ¬ b < a := by omega
    simp [hg, this]

/-- A write keeps the canonical form of the register file. -/
theorem Regs.write_canon {m : List (Nat × Word)} (h : Regs.canon m = true) (a : Nat) (v : Word) : Regs.canon (Regs.write m a v) = true := by
  rw [Regs.canon_iff] at h ⊢
  obtain ⟨hs, hn⟩ := h
  unfold Regs.write
  constructor
  · refine List.pairwise_append.mpr ⟨List.pairwise_append.mpr ⟨hs.filter _, ?_, ?_⟩, hs.filter _, ?_⟩
    · split <;> simp
    · intro x hx y hy
      split at hy <;> simp_all
    · intro x hx y hy
      have hy' : a < y.1 := by simpa using (List.mem_filter.mp hy).2
      rcases List.mem_append.mp hx with hx | hx
      · have : x.1 < a := by simpa using (List.mem_filter.mp hx).2
        omega
      · split at hx <;> simp_all
  · intro c hc
    rcases List.mem_append.mp hc with hc | hc
    · rcases List.mem_append.mp hc with hc | hc
      · exact hn c (List.mem_filter.mp hc).1
      · split at hc <;> simp_all
    · exact hn c (List.mem_filter.mp hc).1

/-! Byte memories. -/

theorem Mem.read_find (d : Byte) (m : List Host.Cell) (a : Nat) :
    Mem.read d m a = ((m.find? (fun c => c.1 == a)).map (·.2)).getD d := by
  induction m with
  | nil => rfl
  | cons c t ih =>
    obtain ⟨k, v⟩ := c
    by_cases h : k = a
    · simp [Mem.read, h]
    · simp [Mem.read, h, ih]

theorem Mem.find_filter (m : List Host.Cell) (a : Nat) (p : Nat → Bool) :
    (m.filter (fun c => p c.1)).find? (fun c => c.1 == a) = if p a then m.find? (fun c => c.1 == a) else none := by
  induction m with
  | nil => simp
  | cons c t ih =>
    by_cases hp : p c.1 <;> by_cases ha : c.1 = a
    · subst ha; simp [hp]
    · simp [hp, ha, ih]
    · subst ha; simp [hp, ih]
    · simp [hp, ha, ih]

theorem Mem.cells_low (d : Byte) (a : Nat) (bs : List Byte) : ∀ c ∈ Mem.cells d a bs, a ≤ c.1 ∧ c.1 < a + bs.length ∧ c.2 ≠ d := by
  induction bs generalizing a with
  | nil => simp [Mem.cells]
  | cons b bs ih =>
    intro c hc
    simp only [Mem.cells] at hc
    split at hc
    · have := ih (a + 1) c hc
      simp only [List.length_cons]
      exact ⟨by omega, by omega, this.2.2⟩
    · rcases List.mem_cons.mp hc with rfl | hc
      · simp only [List.length_cons]
        refine ⟨Nat.le_refl _, by omega, by assumption⟩
      · have := ih (a + 1) c hc
        simp only [List.length_cons]
        exact ⟨by omega, by omega, this.2.2⟩

theorem Mem.cells_sorted (d : Byte) (a : Nat) (bs : List Byte) : (Mem.cells d a bs).Pairwise (fun x y => x.1 < y.1) := by
  induction bs generalizing a with
  | nil => simp [Mem.cells]
  | cons b bs ih =>
    simp only [Mem.cells]
    split
    · exact ih _
    · refine List.Pairwise.cons ?_ (ih _)
      intro y hy
      have := (Mem.cells_low d (a + 1) bs y hy).1
      omega

theorem Mem.cells_find_out (d : Byte) (a : Nat) (bs : List Byte) {b : Nat} (h : b < a ∨ a + bs.length ≤ b) :
    (Mem.cells d a bs).find? (fun c => c.1 == b) = none := by
  rw [List.find?_eq_none]
  intro c hc
  have := Mem.cells_low d a bs c hc
  simp only [beq_iff_eq]
  omega

theorem Mem.cells_find_in (d : Byte) (a : Nat) (bs : List Byte) (i : Nat) (h : i < bs.length) :
    (((Mem.cells d a bs).find? (fun c => c.1 == a + i)).map (·.2)).getD d = bs.getD i d := by
  induction bs generalizing a i with
  | nil => simp at h
  | cons b bs ih =>
    cases i with
    | zero =>
      simp only [Mem.cells]
      split
      · rename_i hb
        rw [Nat.add_zero, Mem.cells_find_out d (a + 1) bs (Or.inl (Nat.lt_succ_self a))]
        simp [hb]
      · simp
    | succ i =>
      have hi : i < bs.length := by simpa using h
      have := ih (a + 1) i hi
      have e : a + (i + 1) = a + 1 + i := by omega
      simp only [Mem.cells]
      split
      · rw [e]; simpa using this
      · have ne : (a == a + 1 + i) = false := by simp; omega
        rw [e, List.find?_cons]
        simp only [ne]
        simpa using this

/-- A byte within a write reads as written. -/
theorem Mem.read_write_in (d : Byte) (m : List Host.Cell) (a : Nat) (bs : List Byte) (i : Nat) (h : i < bs.length) :
    Mem.read d (Mem.write d m a bs) (a + i) = bs.getD i d := by
  rw [Mem.read_find]
  unfold Mem.write
  rw [List.find?_append, List.find?_append, Mem.find_filter m (a + i) (fun x => decide (x < a)),
    Mem.find_filter m (a + i) (fun x => decide (a + bs.length ≤ x))]
  have h1 : ¬ a + i < a := by omega
  have h2 : ¬ a + bs.length ≤ a + i := by omega
  simp only [h1, h2, decide_false, Bool.false_eq_true, if_false, Option.none_or, Option.or_none]
  exact Mem.cells_find_in d a bs i h

/-- A byte outside a write keeps its value. -/
theorem Mem.read_write_out (d : Byte) (m : List Host.Cell) (a : Nat) (bs : List Byte) {b : Nat} (h : b < a ∨ a + bs.length ≤ b) :
    Mem.read d (Mem.write d m a bs) b = Mem.read d m b := by
  rw [Mem.read_find, Mem.read_find]
  unfold Mem.write
  rw [List.find?_append, List.find?_append, Mem.find_filter m b (fun x => decide (x < a)),
    Mem.find_filter m b (fun x => decide (a + bs.length ≤ x)), Mem.cells_find_out d a bs h]
  rcases h with h | h
  · have : ¬ a + bs.length ≤ b := by omega
    simp [h, this]
  · have : ¬ b < a := by omega
    simp [h, this]

/-- A write keeps the canonical form. -/
theorem Mem.write_canon {d : Byte} {m : List Host.Cell} (h : Mem.canon d m = true) (a : Nat) (bs : List Byte) :
    Mem.canon d (Mem.write d m a bs) = true := by
  rw [Mem.canon_iff] at h ⊢
  obtain ⟨hs, hn⟩ := h
  unfold Mem.write
  constructor
  · refine List.pairwise_append.mpr ⟨List.pairwise_append.mpr ⟨hs.filter _, Mem.cells_sorted d a bs, ?_⟩, hs.filter _, ?_⟩
    · intro x hx y hy
      have h1 : x.1 < a := by simpa using (List.mem_filter.mp hx).2
      have h2 := (Mem.cells_low d a bs y hy).1
      omega
    · intro x hx y hy
      have h3 : a + bs.length ≤ y.1 := by simpa using (List.mem_filter.mp hy).2
      rcases List.mem_append.mp hx with hx | hx
      · have h1 : x.1 < a := by simpa using (List.mem_filter.mp hx).2
        omega
      · have h2 := (Mem.cells_low d a bs x hx).2.1
        omega
  · intro c hc
    rcases List.mem_append.mp hc with hc | hc
    · rcases List.mem_append.mp hc with hc | hc
      · exact hn c (List.mem_filter.mp hc).1
      · exact (Mem.cells_low d a bs c hc).2.2
    · exact hn c (List.mem_filter.mp hc).1

/-- An erase keeps the canonical form. -/
theorem Mem.clear_canon {d : Byte} {m : List Host.Cell} (h : Mem.canon d m = true) (a n : Nat) : Mem.canon d (Mem.clear m a n) = true := by
  rw [Mem.canon_iff] at h ⊢
  exact ⟨h.1.filter _, fun c hc => h.2 c (List.mem_filter.mp hc).1⟩

/-- After an erase its bytes read as unlisted ones, and every other byte keeps its value. -/
theorem Mem.read_clear (d : Byte) (m : List Host.Cell) (a n b : Nat) :
    Mem.read d (Mem.clear m a n) b = if a ≤ b ∧ b < a + n then d else Mem.read d m b := by
  rw [Mem.read_find, Mem.read_find]
  unfold Mem.clear
  rw [Mem.find_filter m b (fun x => decide (x < a) || decide (a + n ≤ x))]
  by_cases h1 : b < a
  · have : ¬ (a ≤ b ∧ b < a + n) := by omega
    simp [h1, this]
  · by_cases h2 : a + n ≤ b
    · have : ¬ (a ≤ b ∧ b < a + n) := by omega
      simp [h2, this]
    · have : a ≤ b ∧ b < a + n := by omega
      simp [h1, h2, this]

/-- A register that nothing has written reads its reset word. -/
theorem Regs.read_reset (a : Nat) : Regs.read [] a = resetWord a := rfl

end Sys2Proof.Machine
end

