-- ==== Sys2Proof/Laws/State.lean ====
section
/-! SUPPORT. Laws/State.lean: what each named update of the state leaves, one lemma for each group of the state. -/
namespace Sys2Proof.Machine

/-! wr changes regs only. -/

@[simp] theorem State.wr_pending (s : State) (a : Nat) (v : Word) : (s.wr a v).pending = s.pending := rfl
@[simp] theorem State.wr_tick (s : State) (a : Nat) (v : Word) : (s.wr a v).tick = s.tick := rfl
@[simp] theorem State.wr_latch (s : State) (a : Nat) (v : Word) : (s.wr a v).latch = s.latch := rfl
@[simp] theorem State.wr_held (s : State) (a : Nat) (v : Word) : (s.wr a v).held = s.held := rfl
@[simp] theorem State.wr_sys (s : State) (a : Nat) (v : Word) : (s.wr a v).sys = s.sys := rfl
@[simp] theorem State.wr_pwr (s : State) (a : Nat) (v : Word) : (s.wr a v).pwr = s.pwr := rfl
@[simp] theorem State.wr_tim (s : State) (a : Nat) (v : Word) : (s.wr a v).tim = s.tim := rfl
@[simp] theorem State.wr_fe (s : State) (a : Nat) (v : Word) : (s.wr a v).fe = s.fe := rfl
@[simp] theorem State.wr_slow (s : State) (a : Nat) (v : Word) : (s.wr a v).slow = s.slow := rfl
@[simp] theorem State.wr_sid (s : State) (a : Nat) (v : Word) : (s.wr a v).sid = s.sid := rfl
@[simp] theorem State.wr_core (s : State) (a : Nat) (v : Word) : (s.wr a v).core = s.core := rfl
@[simp] theorem State.wr_red (s : State) (a : Nat) (v : Word) : (s.wr a v).red = s.red := rfl
@[simp] theorem State.wr_cal (s : State) (a : Nat) (v : Word) : (s.wr a v).cal = s.cal := rfl
@[simp] theorem State.wr_hist (s : State) (a : Nat) (v : Word) : (s.wr a v).hist = s.hist := rfl
@[simp] theorem State.wr_jobs (s : State) (a : Nat) (v : Word) : (s.wr a v).jobs = s.jobs := rfl
@[simp] theorem State.wr_net (s : State) (a : Nat) (v : Word) : (s.wr a v).net = s.net := rfl
@[simp] theorem State.wr_stk (s : State) (a : Nat) (v : Word) : (s.wr a v).stk = s.stk := rfl
@[simp] theorem State.wr_log (s : State) (a : Nat) (v : Word) : (s.wr a v).log = s.log := rfl
@[simp] theorem State.wr_upd (s : State) (a : Nat) (v : Word) : (s.wr a v).upd = s.upd := rfl
@[simp] theorem State.wr_nvmq (s : State) (a : Nat) (v : Word) : (s.wr a v).nvmq = s.nvmq := rfl
@[simp] theorem State.wr_dram (s : State) (a : Nat) (v : Word) : (s.wr a v).dram = s.dram := rfl
@[simp] theorem State.wr_net8 (s : State) (a : Nat) (v : Word) : (s.wr a v).net8 = s.net8 := rfl
@[simp] theorem State.wr_netTick (s : State) (a : Nat) (v : Word) : (s.wr a v).netTick = s.netTick := rfl
@[simp] theorem State.wr_part (s : State) (a : Nat) (v : Word) : (s.wr a v).part = s.part := rfl

/-! put changes regs only. -/

@[simp] theorem State.put_pending (s : State) (f : Fld) (v : Nat) : (s.put f v).pending = s.pending := rfl
@[simp] theorem State.put_tick (s : State) (f : Fld) (v : Nat) : (s.put f v).tick = s.tick := rfl
@[simp] theorem State.put_latch (s : State) (f : Fld) (v : Nat) : (s.put f v).latch = s.latch := rfl
@[simp] theorem State.put_held (s : State) (f : Fld) (v : Nat) : (s.put f v).held = s.held := rfl
@[simp] theorem State.put_sys (s : State) (f : Fld) (v : Nat) : (s.put f v).sys = s.sys := rfl
@[simp] theorem State.put_pwr (s : State) (f : Fld) (v : Nat) : (s.put f v).pwr = s.pwr := rfl
@[simp] theorem State.put_tim (s : State) (f : Fld) (v : Nat) : (s.put f v).tim = s.tim := rfl
@[simp] theorem State.put_fe (s : State) (f : Fld) (v : Nat) : (s.put f v).fe = s.fe := rfl
@[simp] theorem State.put_slow (s : State) (f : Fld) (v : Nat) : (s.put f v).slow = s.slow := rfl
@[simp] theorem State.put_sid (s : State) (f : Fld) (v : Nat) : (s.put f v).sid = s.sid := rfl
@[simp] theorem State.put_core (s : State) (f : Fld) (v : Nat) : (s.put f v).core = s.core := rfl
@[simp] theorem State.put_red (s : State) (f : Fld) (v : Nat) : (s.put f v).red = s.red := rfl
@[simp] theorem State.put_cal (s : State) (f : Fld) (v : Nat) : (s.put f v).cal = s.cal := rfl
@[simp] theorem State.put_hist (s : State) (f : Fld) (v : Nat) : (s.put f v).hist = s.hist := rfl
@[simp] theorem State.put_jobs (s : State) (f : Fld) (v : Nat) : (s.put f v).jobs = s.jobs := rfl
@[simp] theorem State.put_net (s : State) (f : Fld) (v : Nat) : (s.put f v).net = s.net := rfl
@[simp] theorem State.put_stk (s : State) (f : Fld) (v : Nat) : (s.put f v).stk = s.stk := rfl
@[simp] theorem State.put_log (s : State) (f : Fld) (v : Nat) : (s.put f v).log = s.log := rfl
@[simp] theorem State.put_upd (s : State) (f : Fld) (v : Nat) : (s.put f v).upd = s.upd := rfl
@[simp] theorem State.put_nvmq (s : State) (f : Fld) (v : Nat) : (s.put f v).nvmq = s.nvmq := rfl
@[simp] theorem State.put_dram (s : State) (f : Fld) (v : Nat) : (s.put f v).dram = s.dram := rfl
@[simp] theorem State.put_net8 (s : State) (f : Fld) (v : Nat) : (s.put f v).net8 = s.net8 := rfl
@[simp] theorem State.put_netTick (s : State) (f : Fld) (v : Nat) : (s.put f v).netTick = s.netTick := rfl
@[simp] theorem State.put_part (s : State) (f : Fld) (v : Nat) : (s.put f v).part = s.part := rfl

/-! flag changes regs only. -/

@[simp] theorem State.flag_pending (s : State) (f : Fld) : (s.flag f).pending = s.pending := rfl
@[simp] theorem State.flag_tick (s : State) (f : Fld) : (s.flag f).tick = s.tick := rfl
@[simp] theorem State.flag_latch (s : State) (f : Fld) : (s.flag f).latch = s.latch := rfl
@[simp] theorem State.flag_held (s : State) (f : Fld) : (s.flag f).held = s.held := rfl
@[simp] theorem State.flag_sys (s : State) (f : Fld) : (s.flag f).sys = s.sys := rfl
@[simp] theorem State.flag_pwr (s : State) (f : Fld) : (s.flag f).pwr = s.pwr := rfl
@[simp] theorem State.flag_tim (s : State) (f : Fld) : (s.flag f).tim = s.tim := rfl
@[simp] theorem State.flag_fe (s : State) (f : Fld) : (s.flag f).fe = s.fe := rfl
@[simp] theorem State.flag_slow (s : State) (f : Fld) : (s.flag f).slow = s.slow := rfl
@[simp] theorem State.flag_sid (s : State) (f : Fld) : (s.flag f).sid = s.sid := rfl
@[simp] theorem State.flag_core (s : State) (f : Fld) : (s.flag f).core = s.core := rfl
@[simp] theorem State.flag_red (s : State) (f : Fld) : (s.flag f).red = s.red := rfl
@[simp] theorem State.flag_cal (s : State) (f : Fld) : (s.flag f).cal = s.cal := rfl
@[simp] theorem State.flag_hist (s : State) (f : Fld) : (s.flag f).hist = s.hist := rfl
@[simp] theorem State.flag_jobs (s : State) (f : Fld) : (s.flag f).jobs = s.jobs := rfl
@[simp] theorem State.flag_net (s : State) (f : Fld) : (s.flag f).net = s.net := rfl
@[simp] theorem State.flag_stk (s : State) (f : Fld) : (s.flag f).stk = s.stk := rfl
@[simp] theorem State.flag_log (s : State) (f : Fld) : (s.flag f).log = s.log := rfl
@[simp] theorem State.flag_upd (s : State) (f : Fld) : (s.flag f).upd = s.upd := rfl
@[simp] theorem State.flag_nvmq (s : State) (f : Fld) : (s.flag f).nvmq = s.nvmq := rfl
@[simp] theorem State.flag_dram (s : State) (f : Fld) : (s.flag f).dram = s.dram := rfl
@[simp] theorem State.flag_net8 (s : State) (f : Fld) : (s.flag f).net8 = s.net8 := rfl
@[simp] theorem State.flag_netTick (s : State) (f : Fld) : (s.flag f).netTick = s.netTick := rfl
@[simp] theorem State.flag_part (s : State) (f : Fld) : (s.flag f).part = s.part := rfl

/-! countUp changes regs only. -/

@[simp] theorem State.countUp_pending (s : State) (f : Fld) (n : Nat) : (s.countUp f n).pending = s.pending := rfl
@[simp] theorem State.countUp_tick (s : State) (f : Fld) (n : Nat) : (s.countUp f n).tick = s.tick := rfl
@[simp] theorem State.countUp_latch (s : State) (f : Fld) (n : Nat) : (s.countUp f n).latch = s.latch := rfl
@[simp] theorem State.countUp_held (s : State) (f : Fld) (n : Nat) : (s.countUp f n).held = s.held := rfl
@[simp] theorem State.countUp_sys (s : State) (f : Fld) (n : Nat) : (s.countUp f n).sys = s.sys := rfl
@[simp] theorem State.countUp_pwr (s : State) (f : Fld) (n : Nat) : (s.countUp f n).pwr = s.pwr := rfl
@[simp] theorem State.countUp_tim (s : State) (f : Fld) (n : Nat) : (s.countUp f n).tim = s.tim := rfl
@[simp] theorem State.countUp_fe (s : State) (f : Fld) (n : Nat) : (s.countUp f n).fe = s.fe := rfl
@[simp] theorem State.countUp_slow (s : State) (f : Fld) (n : Nat) : (s.countUp f n).slow = s.slow := rfl
@[simp] theorem State.countUp_sid (s : State) (f : Fld) (n : Nat) : (s.countUp f n).sid = s.sid := rfl
@[simp] theorem State.countUp_core (s : State) (f : Fld) (n : Nat) : (s.countUp f n).core = s.core := rfl
@[simp] theorem State.countUp_red (s : State) (f : Fld) (n : Nat) : (s.countUp f n).red = s.red := rfl
@[simp] theorem State.countUp_cal (s : State) (f : Fld) (n : Nat) : (s.countUp f n).cal = s.cal := rfl
@[simp] theorem State.countUp_hist (s : State) (f : Fld) (n : Nat) : (s.countUp f n).hist = s.hist := rfl
@[simp] theorem State.countUp_jobs (s : State) (f : Fld) (n : Nat) : (s.countUp f n).jobs = s.jobs := rfl
@[simp] theorem State.countUp_net (s : State) (f : Fld) (n : Nat) : (s.countUp f n).net = s.net := rfl
@[simp] theorem State.countUp_stk (s : State) (f : Fld) (n : Nat) : (s.countUp f n).stk = s.stk := rfl
@[simp] theorem State.countUp_log (s : State) (f : Fld) (n : Nat) : (s.countUp f n).log = s.log := rfl
@[simp] theorem State.countUp_upd (s : State) (f : Fld) (n : Nat) : (s.countUp f n).upd = s.upd := rfl
@[simp] theorem State.countUp_nvmq (s : State) (f : Fld) (n : Nat) : (s.countUp f n).nvmq = s.nvmq := rfl
@[simp] theorem State.countUp_dram (s : State) (f : Fld) (n : Nat) : (s.countUp f n).dram = s.dram := rfl
@[simp] theorem State.countUp_net8 (s : State) (f : Fld) (n : Nat) : (s.countUp f n).net8 = s.net8 := rfl
@[simp] theorem State.countUp_netTick (s : State) (f : Fld) (n : Nat) : (s.countUp f n).netTick = s.netTick := rfl
@[simp] theorem State.countUp_part (s : State) (f : Fld) (n : Nat) : (s.countUp f n).part = s.part := rfl

/-! wr64 changes regs only. -/

@[simp] theorem State.wr64_pending (s : State) (a v : Nat) : (s.wr64 a v).pending = s.pending := rfl
@[simp] theorem State.wr64_tick (s : State) (a v : Nat) : (s.wr64 a v).tick = s.tick := rfl
@[simp] theorem State.wr64_latch (s : State) (a v : Nat) : (s.wr64 a v).latch = s.latch := rfl
@[simp] theorem State.wr64_held (s : State) (a v : Nat) : (s.wr64 a v).held = s.held := rfl
@[simp] theorem State.wr64_sys (s : State) (a v : Nat) : (s.wr64 a v).sys = s.sys := rfl
@[simp] theorem State.wr64_pwr (s : State) (a v : Nat) : (s.wr64 a v).pwr = s.pwr := rfl
@[simp] theorem State.wr64_tim (s : State) (a v : Nat) : (s.wr64 a v).tim = s.tim := rfl
@[simp] theorem State.wr64_fe (s : State) (a v : Nat) : (s.wr64 a v).fe = s.fe := rfl
@[simp] theorem State.wr64_slow (s : State) (a v : Nat) : (s.wr64 a v).slow = s.slow := rfl
@[simp] theorem State.wr64_sid (s : State) (a v : Nat) : (s.wr64 a v).sid = s.sid := rfl
@[simp] theorem State.wr64_core (s : State) (a v : Nat) : (s.wr64 a v).core = s.core := rfl
@[simp] theorem State.wr64_red (s : State) (a v : Nat) : (s.wr64 a v).red = s.red := rfl
@[simp] theorem State.wr64_cal (s : State) (a v : Nat) : (s.wr64 a v).cal = s.cal := rfl
@[simp] theorem State.wr64_hist (s : State) (a v : Nat) : (s.wr64 a v).hist = s.hist := rfl
@[simp] theorem State.wr64_jobs (s : State) (a v : Nat) : (s.wr64 a v).jobs = s.jobs := rfl
@[simp] theorem State.wr64_net (s : State) (a v : Nat) : (s.wr64 a v).net = s.net := rfl
@[simp] theorem State.wr64_stk (s : State) (a v : Nat) : (s.wr64 a v).stk = s.stk := rfl
@[simp] theorem State.wr64_log (s : State) (a v : Nat) : (s.wr64 a v).log = s.log := rfl
@[simp] theorem State.wr64_upd (s : State) (a v : Nat) : (s.wr64 a v).upd = s.upd := rfl
@[simp] theorem State.wr64_nvmq (s : State) (a v : Nat) : (s.wr64 a v).nvmq = s.nvmq := rfl
@[simp] theorem State.wr64_dram (s : State) (a v : Nat) : (s.wr64 a v).dram = s.dram := rfl
@[simp] theorem State.wr64_net8 (s : State) (a v : Nat) : (s.wr64 a v).net8 = s.net8 := rfl
@[simp] theorem State.wr64_netTick (s : State) (a v : Nat) : (s.wr64 a v).netTick = s.netTick := rfl
@[simp] theorem State.wr64_part (s : State) (a v : Nat) : (s.wr64 a v).part = s.part := rfl

/-! wr96 changes regs only. -/

@[simp] theorem State.wr96_pending (s : State) (a v : Nat) : (s.wr96 a v).pending = s.pending := rfl
@[simp] theorem State.wr96_tick (s : State) (a v : Nat) : (s.wr96 a v).tick = s.tick := rfl
@[simp] theorem State.wr96_latch (s : State) (a v : Nat) : (s.wr96 a v).latch = s.latch := rfl
@[simp] theorem State.wr96_held (s : State) (a v : Nat) : (s.wr96 a v).held = s.held := rfl
@[simp] theorem State.wr96_sys (s : State) (a v : Nat) : (s.wr96 a v).sys = s.sys := rfl
@[simp] theorem State.wr96_pwr (s : State) (a v : Nat) : (s.wr96 a v).pwr = s.pwr := rfl
@[simp] theorem State.wr96_tim (s : State) (a v : Nat) : (s.wr96 a v).tim = s.tim := rfl
@[simp] theorem State.wr96_fe (s : State) (a v : Nat) : (s.wr96 a v).fe = s.fe := rfl
@[simp] theorem State.wr96_slow (s : State) (a v : Nat) : (s.wr96 a v).slow = s.slow := rfl
@[simp] theorem State.wr96_sid (s : State) (a v : Nat) : (s.wr96 a v).sid = s.sid := rfl
@[simp] theorem State.wr96_core (s : State) (a v : Nat) : (s.wr96 a v).core = s.core := rfl
@[simp] theorem State.wr96_red (s : State) (a v : Nat) : (s.wr96 a v).red = s.red := rfl
@[simp] theorem State.wr96_cal (s : State) (a v : Nat) : (s.wr96 a v).cal = s.cal := rfl
@[simp] theorem State.wr96_hist (s : State) (a v : Nat) : (s.wr96 a v).hist = s.hist := rfl
@[simp] theorem State.wr96_jobs (s : State) (a v : Nat) : (s.wr96 a v).jobs = s.jobs := rfl
@[simp] theorem State.wr96_net (s : State) (a v : Nat) : (s.wr96 a v).net = s.net := rfl
@[simp] theorem State.wr96_stk (s : State) (a v : Nat) : (s.wr96 a v).stk = s.stk := rfl
@[simp] theorem State.wr96_log (s : State) (a v : Nat) : (s.wr96 a v).log = s.log := rfl
@[simp] theorem State.wr96_upd (s : State) (a v : Nat) : (s.wr96 a v).upd = s.upd := rfl
@[simp] theorem State.wr96_nvmq (s : State) (a v : Nat) : (s.wr96 a v).nvmq = s.nvmq := rfl
@[simp] theorem State.wr96_dram (s : State) (a v : Nat) : (s.wr96 a v).dram = s.dram := rfl
@[simp] theorem State.wr96_net8 (s : State) (a v : Nat) : (s.wr96 a v).net8 = s.net8 := rfl
@[simp] theorem State.wr96_netTick (s : State) (a v : Nat) : (s.wr96 a v).netTick = s.netTick := rfl
@[simp] theorem State.wr96_part (s : State) (a v : Nat) : (s.wr96 a v).part = s.part := rfl

/-! useSpare changes regs only. -/

@[simp] theorem State.useSpare_pending (s : State) (c : Nat) : (s.useSpare c).pending = s.pending := rfl
@[simp] theorem State.useSpare_tick (s : State) (c : Nat) : (s.useSpare c).tick = s.tick := rfl
@[simp] theorem State.useSpare_latch (s : State) (c : Nat) : (s.useSpare c).latch = s.latch := rfl
@[simp] theorem State.useSpare_held (s : State) (c : Nat) : (s.useSpare c).held = s.held := rfl
@[simp] theorem State.useSpare_sys (s : State) (c : Nat) : (s.useSpare c).sys = s.sys := rfl
@[simp] theorem State.useSpare_pwr (s : State) (c : Nat) : (s.useSpare c).pwr = s.pwr := rfl
@[simp] theorem State.useSpare_tim (s : State) (c : Nat) : (s.useSpare c).tim = s.tim := rfl
@[simp] theorem State.useSpare_fe (s : State) (c : Nat) : (s.useSpare c).fe = s.fe := rfl
@[simp] theorem State.useSpare_slow (s : State) (c : Nat) : (s.useSpare c).slow = s.slow := rfl
@[simp] theorem State.useSpare_sid (s : State) (c : Nat) : (s.useSpare c).sid = s.sid := rfl
@[simp] theorem State.useSpare_core (s : State) (c : Nat) : (s.useSpare c).core = s.core := rfl
@[simp] theorem State.useSpare_red (s : State) (c : Nat) : (s.useSpare c).red = s.red := rfl
@[simp] theorem State.useSpare_cal (s : State) (c : Nat) : (s.useSpare c).cal = s.cal := rfl
@[simp] theorem State.useSpare_hist (s : State) (c : Nat) : (s.useSpare c).hist = s.hist := rfl
@[simp] theorem State.useSpare_jobs (s : State) (c : Nat) : (s.useSpare c).jobs = s.jobs := rfl
@[simp] theorem State.useSpare_net (s : State) (c : Nat) : (s.useSpare c).net = s.net := rfl
@[simp] theorem State.useSpare_stk (s : State) (c : Nat) : (s.useSpare c).stk = s.stk := rfl
@[simp] theorem State.useSpare_log (s : State) (c : Nat) : (s.useSpare c).log = s.log := rfl
@[simp] theorem State.useSpare_upd (s : State) (c : Nat) : (s.useSpare c).upd = s.upd := rfl
@[simp] theorem State.useSpare_nvmq (s : State) (c : Nat) : (s.useSpare c).nvmq = s.nvmq := rfl
@[simp] theorem State.useSpare_dram (s : State) (c : Nat) : (s.useSpare c).dram = s.dram := rfl
@[simp] theorem State.useSpare_net8 (s : State) (c : Nat) : (s.useSpare c).net8 = s.net8 := rfl
@[simp] theorem State.useSpare_netTick (s : State) (c : Nat) : (s.useSpare c).netTick = s.netTick := rfl
@[simp] theorem State.useSpare_part (s : State) (c : Nat) : (s.useSpare c).part = s.part := rfl

/-! stageRec changes regs, log only. -/

@[simp] theorem State.stageRec_pending (s : State) (r : LogRec) (o : Bool) : (s.stageRec r o).pending = s.pending := rfl
@[simp] theorem State.stageRec_tick (s : State) (r : LogRec) (o : Bool) : (s.stageRec r o).tick = s.tick := rfl
@[simp] theorem State.stageRec_latch (s : State) (r : LogRec) (o : Bool) : (s.stageRec r o).latch = s.latch := rfl
@[simp] theorem State.stageRec_held (s : State) (r : LogRec) (o : Bool) : (s.stageRec r o).held = s.held := rfl
@[simp] theorem State.stageRec_sys (s : State) (r : LogRec) (o : Bool) : (s.stageRec r o).sys = s.sys := rfl
@[simp] theorem State.stageRec_pwr (s : State) (r : LogRec) (o : Bool) : (s.stageRec r o).pwr = s.pwr := rfl
@[simp] theorem State.stageRec_tim (s : State) (r : LogRec) (o : Bool) : (s.stageRec r o).tim = s.tim := rfl
@[simp] theorem State.stageRec_fe (s : State) (r : LogRec) (o : Bool) : (s.stageRec r o).fe = s.fe := rfl
@[simp] theorem State.stageRec_slow (s : State) (r : LogRec) (o : Bool) : (s.stageRec r o).slow = s.slow := rfl
@[simp] theorem State.stageRec_sid (s : State) (r : LogRec) (o : Bool) : (s.stageRec r o).sid = s.sid := rfl
@[simp] theorem State.stageRec_core (s : State) (r : LogRec) (o : Bool) : (s.stageRec r o).core = s.core := rfl
@[simp] theorem State.stageRec_red (s : State) (r : LogRec) (o : Bool) : (s.stageRec r o).red = s.red := rfl
@[simp] theorem State.stageRec_cal (s : State) (r : LogRec) (o : Bool) : (s.stageRec r o).cal = s.cal := rfl
@[simp] theorem State.stageRec_hist (s : State) (r : LogRec) (o : Bool) : (s.stageRec r o).hist = s.hist := rfl
@[simp] theorem State.stageRec_jobs (s : State) (r : LogRec) (o : Bool) : (s.stageRec r o).jobs = s.jobs := rfl
@[simp] theorem State.stageRec_net (s : State) (r : LogRec) (o : Bool) : (s.stageRec r o).net = s.net := rfl
@[simp] theorem State.stageRec_stk (s : State) (r : LogRec) (o : Bool) : (s.stageRec r o).stk = s.stk := rfl
@[simp] theorem State.stageRec_upd (s : State) (r : LogRec) (o : Bool) : (s.stageRec r o).upd = s.upd := rfl
@[simp] theorem State.stageRec_nvmq (s : State) (r : LogRec) (o : Bool) : (s.stageRec r o).nvmq = s.nvmq := rfl
@[simp] theorem State.stageRec_dram (s : State) (r : LogRec) (o : Bool) : (s.stageRec r o).dram = s.dram := rfl
@[simp] theorem State.stageRec_net8 (s : State) (r : LogRec) (o : Bool) : (s.stageRec r o).net8 = s.net8 := rfl
@[simp] theorem State.stageRec_netTick (s : State) (r : LogRec) (o : Bool) : (s.stageRec r o).netTick = s.netTick := rfl
@[simp] theorem State.stageRec_part (s : State) (r : LogRec) (o : Bool) : (s.stageRec r o).part = s.part := rfl

/-! loseEvent changes regs, log only. -/

@[simp] theorem State.loseEvent_pending (s : State) (c : Nat) : (s.loseEvent c).pending = s.pending := rfl
@[simp] theorem State.loseEvent_tick (s : State) (c : Nat) : (s.loseEvent c).tick = s.tick := rfl
@[simp] theorem State.loseEvent_latch (s : State) (c : Nat) : (s.loseEvent c).latch = s.latch := rfl
@[simp] theorem State.loseEvent_held (s : State) (c : Nat) : (s.loseEvent c).held = s.held := rfl
@[simp] theorem State.loseEvent_sys (s : State) (c : Nat) : (s.loseEvent c).sys = s.sys := rfl
@[simp] theorem State.loseEvent_pwr (s : State) (c : Nat) : (s.loseEvent c).pwr = s.pwr := rfl
@[simp] theorem State.loseEvent_tim (s : State) (c : Nat) : (s.loseEvent c).tim = s.tim := rfl
@[simp] theorem State.loseEvent_fe (s : State) (c : Nat) : (s.loseEvent c).fe = s.fe := rfl
@[simp] theorem State.loseEvent_slow (s : State) (c : Nat) : (s.loseEvent c).slow = s.slow := rfl
@[simp] theorem State.loseEvent_sid (s : State) (c : Nat) : (s.loseEvent c).sid = s.sid := rfl
@[simp] theorem State.loseEvent_core (s : State) (c : Nat) : (s.loseEvent c).core = s.core := rfl
@[simp] theorem State.loseEvent_red (s : State) (c : Nat) : (s.loseEvent c).red = s.red := rfl
@[simp] theorem State.loseEvent_cal (s : State) (c : Nat) : (s.loseEvent c).cal = s.cal := rfl
@[simp] theorem State.loseEvent_hist (s : State) (c : Nat) : (s.loseEvent c).hist = s.hist := rfl
@[simp] theorem State.loseEvent_jobs (s : State) (c : Nat) : (s.loseEvent c).jobs = s.jobs := rfl
@[simp] theorem State.loseEvent_net (s : State) (c : Nat) : (s.loseEvent c).net = s.net := rfl
@[simp] theorem State.loseEvent_stk (s : State) (c : Nat) : (s.loseEvent c).stk = s.stk := rfl
@[simp] theorem State.loseEvent_upd (s : State) (c : Nat) : (s.loseEvent c).upd = s.upd := rfl
@[simp] theorem State.loseEvent_nvmq (s : State) (c : Nat) : (s.loseEvent c).nvmq = s.nvmq := rfl
@[simp] theorem State.loseEvent_dram (s : State) (c : Nat) : (s.loseEvent c).dram = s.dram := rfl
@[simp] theorem State.loseEvent_net8 (s : State) (c : Nat) : (s.loseEvent c).net8 = s.net8 := rfl
@[simp] theorem State.loseEvent_netTick (s : State) (c : Nat) : (s.loseEvent c).netTick = s.netTick := rfl
@[simp] theorem State.loseEvent_part (s : State) (c : Nat) : (s.loseEvent c).part = s.part := rfl

/-! unchecked changes sys only. -/

@[simp] theorem State.unchecked_pending (s : State) (n : Nat) : (s.unchecked n).pending = s.pending := rfl
@[simp] theorem State.unchecked_tick (s : State) (n : Nat) : (s.unchecked n).tick = s.tick := rfl
@[simp] theorem State.unchecked_regs (s : State) (n : Nat) : (s.unchecked n).regs = s.regs := rfl
@[simp] theorem State.unchecked_latch (s : State) (n : Nat) : (s.unchecked n).latch = s.latch := rfl
@[simp] theorem State.unchecked_held (s : State) (n : Nat) : (s.unchecked n).held = s.held := rfl
@[simp] theorem State.unchecked_pwr (s : State) (n : Nat) : (s.unchecked n).pwr = s.pwr := rfl
@[simp] theorem State.unchecked_tim (s : State) (n : Nat) : (s.unchecked n).tim = s.tim := rfl
@[simp] theorem State.unchecked_fe (s : State) (n : Nat) : (s.unchecked n).fe = s.fe := rfl
@[simp] theorem State.unchecked_slow (s : State) (n : Nat) : (s.unchecked n).slow = s.slow := rfl
@[simp] theorem State.unchecked_sid (s : State) (n : Nat) : (s.unchecked n).sid = s.sid := rfl
@[simp] theorem State.unchecked_core (s : State) (n : Nat) : (s.unchecked n).core = s.core := rfl
@[simp] theorem State.unchecked_red (s : State) (n : Nat) : (s.unchecked n).red = s.red := rfl
@[simp] theorem State.unchecked_cal (s : State) (n : Nat) : (s.unchecked n).cal = s.cal := rfl
@[simp] theorem State.unchecked_hist (s : State) (n : Nat) : (s.unchecked n).hist = s.hist := rfl
@[simp] theorem State.unchecked_jobs (s : State) (n : Nat) : (s.unchecked n).jobs = s.jobs := rfl
@[simp] theorem State.unchecked_net (s : State) (n : Nat) : (s.unchecked n).net = s.net := rfl
@[simp] theorem State.unchecked_stk (s : State) (n : Nat) : (s.unchecked n).stk = s.stk := rfl
@[simp] theorem State.unchecked_log (s : State) (n : Nat) : (s.unchecked n).log = s.log := rfl
@[simp] theorem State.unchecked_upd (s : State) (n : Nat) : (s.unchecked n).upd = s.upd := rfl
@[simp] theorem State.unchecked_nvmq (s : State) (n : Nat) : (s.unchecked n).nvmq = s.nvmq := rfl
@[simp] theorem State.unchecked_dram (s : State) (n : Nat) : (s.unchecked n).dram = s.dram := rfl
@[simp] theorem State.unchecked_net8 (s : State) (n : Nat) : (s.unchecked n).net8 = s.net8 := rfl
@[simp] theorem State.unchecked_netTick (s : State) (n : Nat) : (s.unchecked n).netTick = s.netTick := rfl
@[simp] theorem State.unchecked_part (s : State) (n : Nat) : (s.unchecked n).part = s.part := rfl

@[simp] theorem State.draw_pending (s : State) : s.draw.2.pending = s.pending := rfl
@[simp] theorem State.draw_tick (s : State) : s.draw.2.tick = s.tick := rfl
@[simp] theorem State.draw_regs (s : State) : s.draw.2.regs = s.regs := rfl
@[simp] theorem State.draw_latch (s : State) : s.draw.2.latch = s.latch := rfl
@[simp] theorem State.draw_held (s : State) : s.draw.2.held = s.held := rfl
@[simp] theorem State.draw_pwr (s : State) : s.draw.2.pwr = s.pwr := rfl
@[simp] theorem State.draw_tim (s : State) : s.draw.2.tim = s.tim := rfl
@[simp] theorem State.draw_fe (s : State) : s.draw.2.fe = s.fe := rfl
@[simp] theorem State.draw_slow (s : State) : s.draw.2.slow = s.slow := rfl
@[simp] theorem State.draw_sid (s : State) : s.draw.2.sid = s.sid := rfl
@[simp] theorem State.draw_core (s : State) : s.draw.2.core = s.core := rfl
@[simp] theorem State.draw_red (s : State) : s.draw.2.red = s.red := rfl
@[simp] theorem State.draw_cal (s : State) : s.draw.2.cal = s.cal := rfl
@[simp] theorem State.draw_hist (s : State) : s.draw.2.hist = s.hist := rfl
@[simp] theorem State.draw_jobs (s : State) : s.draw.2.jobs = s.jobs := rfl
@[simp] theorem State.draw_net (s : State) : s.draw.2.net = s.net := rfl
@[simp] theorem State.draw_stk (s : State) : s.draw.2.stk = s.stk := rfl
@[simp] theorem State.draw_log (s : State) : s.draw.2.log = s.log := rfl
@[simp] theorem State.draw_upd (s : State) : s.draw.2.upd = s.upd := rfl
@[simp] theorem State.draw_nvmq (s : State) : s.draw.2.nvmq = s.nvmq := rfl
@[simp] theorem State.draw_dram (s : State) : s.draw.2.dram = s.dram := rfl
@[simp] theorem State.draw_net8 (s : State) : s.draw.2.net8 = s.net8 := rfl
@[simp] theorem State.draw_netTick (s : State) : s.draw.2.netTick = s.netTick := rfl
@[simp] theorem State.draw_part (s : State) : s.draw.2.part = s.part := rfl

@[simp] theorem State.wr_regs (s : State) (a : Nat) (v : Word) : (s.wr a v).regs = Regs.write s.regs a v := rfl

end Sys2Proof.Machine
end

