-- ==== Sys2Proof/Laws/Word.lean ====
section
/-! SUPPORT. Laws/Word.lean: reading a numbered part after one was written. -/
namespace Sys2Proof

@[simp] theorem Tab.look_nil {α : Type} (i : Nat) : Tab.look ([] : Tab α) i = none := rfl

@[simp] theorem Tab.val_nil {α : Type} (d : α) (i : Nat) : Tab.val ([] : Tab α) d i = d := rfl

@[simp] theorem Tab.look_set_same {α : Type} (t : Tab α) (i : Nat) (v : α) : (t.set i v).look i = some v := by
  induction t with
  | nil => simp [Tab.set, Tab.look]
  | cons e t ih =>
    obtain ⟨k, w⟩ := e
    simp only [Tab.set]
    split
    · simp [Tab.look]
    · split
      · simp [Tab.look]
      · rename_i h
        simp [Tab.look, Ne.symm h, ih]

theorem Tab.look_set_other {α : Type} (t : Tab α) {i j : Nat} (v : α) (h : j ≠ i) : (t.set i v).look j = t.look j := by
  induction t with
  | nil => simp [Tab.set, Tab.look, Ne.symm h]
  | cons e t ih =>
    obtain ⟨k, w⟩ := e
    simp only [Tab.set]
    split
    · simp [Tab.look, Ne.symm h]
    · split
      · rename_i hk
        subst hk
        simp [Tab.look, Ne.symm h]
      · simp [Tab.look, ih]

@[simp] theorem Tab.val_set_same {α : Type} (t : Tab α) (d : α) (i : Nat) (v : α) : (t.set i v).val d i = v := by
  simp [Tab.val]

theorem Tab.val_set_other {α : Type} (t : Tab α) (d : α) {i j : Nat} (v : α) (h : j ≠ i) : (t.set i v).val d j = t.val d j := by
  simp [Tab.val, Tab.look_set_other t v h]

@[simp] theorem Tab.val_upd_same {α : Type} (t : Tab α) (d : α) (i : Nat) (f : α → α) : (t.upd d i f).val d i = f (t.val d i) := by
  simp [Tab.upd]

theorem Tab.val_upd_other {α : Type} (t : Tab α) (d : α) {i j : Nat} (f : α → α) (h : j ≠ i) : (t.upd d i f).val d j = t.val d j := by
  simp [Tab.upd, Tab.val_set_other t d _ h]

end Sys2Proof
end

