-- ==== Sys2Proof/Laws/Ops.lean ====
section
/-! SUPPORT. Laws/Ops.lean: for each shared operation, what it can do. -/
namespace Sys2Proof.Machine

/-! Registers and their fields. -/

/-- Two states that hold the same register file read every register alike. -/
theorem State.rd_of_regs {s t : State} (h : t.regs = s.regs) (a : Nat) : t.rd a = s.rd a := by simp [State.rd, h]

theorem State.get_of_regs {s t : State} (h : t.regs = s.regs) (f : Fld) : t.get f = s.get f := by simp [State.get, State.rd, h]

@[simp] theorem State.rd_wr_same (s : State) (a : Nat) (v : Word) : (s.wr a v).rd a = v := by simp [State.rd]

theorem State.rd_wr_other (s : State) {a b : Nat} (v : Word) (h : b ≠ a) : (s.wr a v).rd b = s.rd b := by
  simp [State.rd, Regs.read_write_other s.regs v h]

/-- A field put into a word reads as put, cut to its width. -/
theorem Fld.ofWord_into (f : Fld) (w : Word) (v : Nat) (h : f.lo + f.len ≤ 32) : f.ofWord (f.into w v) = v % 2 ^ f.len := by
  have hw := w.isLt
  unfold Fld.ofWord Fld.into wd Fld.ofWord
  rw [BitVec.toNat_ofNat]
  generalize w.toNat = n at hw ⊢
  have hp : 0 < 2 ^ f.lo := Nat.two_pow_pos _
  have hl : 0 < 2 ^ f.len := Nat.two_pow_pos _
  have e32 : 2 ^ 32 = 2 ^ f.lo * 2 ^ f.len * 2 ^ (32 - (f.lo + f.len)) := by rw [← Nat.pow_add, ← Nat.pow_add]; congr 1; omega
  have hsplit : n = n % 2 ^ f.lo + 2 ^ f.lo * (n / 2 ^ f.lo % 2 ^ f.len) + 2 ^ f.lo * 2 ^ f.len * (n / 2 ^ f.lo / 2 ^ f.len) := by
    have h1 := Nat.mod_add_div n (2 ^ f.lo)
    have h2 := Nat.mod_add_div (n / 2 ^ f.lo) (2 ^ f.len)
    rw [Nat.mul_assoc, Nat.add_assoc, ← Nat.mul_add, h2]
    exact h1.symm
  have hsub : n - n / 2 ^ f.lo % 2 ^ f.len * 2 ^ f.lo = n % 2 ^ f.lo + 2 ^ f.lo * 2 ^ f.len * (n / 2 ^ f.lo / 2 ^ f.len) := by
    have := hsplit
    rw [Nat.mul_comm (n / 2 ^ f.lo % 2 ^ f.len)]
    omega
  rw [hsub]
  have hb : n / 2 ^ f.lo / 2 ^ f.len < 2 ^ (32 - (f.lo + f.len)) := by
    rw [Nat.div_div_eq_div_mul, Nat.div_lt_iff_lt_mul (Nat.mul_pos hp hl), Nat.mul_comm]
    rw [← e32]; exact hw
  generalize n / 2 ^ f.lo / 2 ^ f.len = q at hb ⊢
  have hr : n % 2 ^ f.lo < 2 ^ f.lo := Nat.mod_lt _ hp
  generalize n % 2 ^ f.lo = r at hr ⊢
  have hv : v % 2 ^ f.len < 2 ^ f.len := Nat.mod_lt _ hl
  generalize v % 2 ^ f.len = x at hv ⊢
  have ht : r + 2 ^ f.lo * 2 ^ f.len * q + x * 2 ^ f.lo = r + 2 ^ f.lo * (x + 2 ^ f.len * q) := by
    rw [Nat.mul_add, Nat.mul_comm x, ← Nat.mul_assoc]; omega
  rw [ht]
  have hin : x + 2 ^ f.len * q < 2 ^ f.len * 2 ^ (32 - (f.lo + f.len)) := by
    have h1 : 2 ^ f.len * (q + 1) ≤ 2 ^ f.len * 2 ^ (32 - (f.lo + f.len)) := Nat.mul_le_mul_left _ hb
    rw [Nat.mul_add, Nat.mul_one] at h1
    omega
  have hlt : r + 2 ^ f.lo * (x + 2 ^ f.len * q) < 2 ^ 32 := by
    rw [e32, Nat.mul_assoc]
    have h1 : 2 ^ f.lo * (x + 2 ^ f.len * q + 1) ≤ 2 ^ f.lo * (2 ^ f.len * 2 ^ (32 - (f.lo + f.len))) := Nat.mul_le_mul_left _ hin
    rw [Nat.mul_add, Nat.mul_one] at h1
    omega
  rw [Nat.mod_eq_of_lt hlt, Nat.add_mul_div_left _ _ hp, Nat.div_eq_of_lt hr, Nat.zero_add, Nat.add_mul_mod_self_left,
    Nat.mod_eq_of_lt hv]

/-- Another field of the same word keeps its value. -/
theorem Fld.ofWord_into_other (f g : Fld) (w : Word) (v : Nat) (hf : f.lo + f.len ≤ 32)
    (h : g.lo + g.len ≤ f.lo ∨ f.lo + f.len ≤ g.lo) : g.ofWord (f.into w v) = g.ofWord w := by
  have hw := w.isLt
  unfold Fld.ofWord Fld.into wd Fld.ofWord
  rw [BitVec.toNat_ofNat]
  generalize w.toNat = n at hw ⊢
  have hp : 0 < 2 ^ f.lo := Nat.two_pow_pos _
  have hl : 0 < 2 ^ f.len := Nat.two_pow_pos _
  have e32 : 2 ^ 32 = 2 ^ f.lo * 2 ^ f.len * 2 ^ (32 - (f.lo + f.len)) := by rw [← Nat.pow_add, ← Nat.pow_add]; congr 1; omega
  have hsplit : n = n % 2 ^ f.lo + 2 ^ f.lo * (n / 2 ^ f.lo % 2 ^ f.len) + 2 ^ f.lo * 2 ^ f.len * (n / 2 ^ f.lo / 2 ^ f.len) := by
    have h1 := Nat.mod_add_div n (2 ^ f.lo)
    have h2 := Nat.mod_add_div (n / 2 ^ f.lo) (2 ^ f.len)
    rw [Nat.mul_assoc, Nat.add_assoc, ← Nat.mul_add, h2]
    exact h1.symm
  have hsub : n - n / 2 ^ f.lo % 2 ^ f.len * 2 ^ f.lo = n % 2 ^ f.lo + 2 ^ f.lo * 2 ^ f.len * (n / 2 ^ f.lo / 2 ^ f.len) := by
    have := hsplit
    rw [Nat.mul_comm (n / 2 ^ f.lo % 2 ^ f.len)]
    omega
  rw [hsub]
  have hb : n / 2 ^ f.lo / 2 ^ f.len < 2 ^ (32 - (f.lo + f.len)) := by
    rw [Nat.div_div_eq_div_mul, Nat.div_lt_iff_lt_mul (Nat.mul_pos hp hl), Nat.mul_comm]
    rw [← e32]; exact hw
  have hm : n / 2 ^ f.lo % 2 ^ f.len < 2 ^ f.len := Nat.mod_lt _ hl
  have hr : n % 2 ^ f.lo < 2 ^ f.lo := Nat.mod_lt _ hp
  generalize n / 2 ^ f.lo / 2 ^ f.len = q at hb hsplit ⊢
  generalize n / 2 ^ f.lo % 2 ^ f.len = y at hm hsplit
  generalize n % 2 ^ f.lo = r at hr hsplit ⊢
  have hv : v % 2 ^ f.len < 2 ^ f.len := Nat.mod_lt _ hl
  generalize v % 2 ^ f.len = x at hv ⊢
  have ht (z : Nat) : r + 2 ^ f.lo * 2 ^ f.len * q + z * 2 ^ f.lo = r + 2 ^ f.lo * (z + 2 ^ f.len * q) := by
    rw [Nat.mul_add, Nat.mul_comm z, ← Nat.mul_assoc]; omega
  have hn : n = r + 2 ^ f.lo * (y + 2 ^ f.len * q) := by
    rw [← ht, hsplit, Nat.mul_comm y]; omega
  rw [ht, hn]
  have hlt (z : Nat) (hz : z < 2 ^ f.len) : r + 2 ^ f.lo * (z + 2 ^ f.len * q) < 2 ^ 32 := by
    have hin : z + 2 ^ f.len * q < 2 ^ f.len * 2 ^ (32 - (f.lo + f.len)) := by
      have h1 : 2 ^ f.len * (q + 1) ≤ 2 ^ f.len * 2 ^ (32 - (f.lo + f.len)) := Nat.mul_le_mul_left _ hb
      rw [Nat.mul_add, Nat.mul_one] at h1
      omega
    rw [e32, Nat.mul_assoc]
    have h1 : 2 ^ f.lo * (z + 2 ^ f.len * q + 1) ≤ 2 ^ f.lo * (2 ^ f.len * 2 ^ (32 - (f.lo + f.len))) := Nat.mul_le_mul_left _ hin
    rw [Nat.mul_add, Nat.mul_one] at h1
    omega
  rw [Nat.mod_eq_of_lt (hlt x hv)]
  rcases h with h | h
  · have key (z : Nat) : (r + 2 ^ f.lo * (z + 2 ^ f.len * q)) / 2 ^ g.lo % 2 ^ g.len = r / 2 ^ g.lo % 2 ^ g.len := by
      have e : 2 ^ f.lo = 2 ^ g.lo * (2 ^ g.len * 2 ^ (f.lo - (g.lo + g.len))) := by
        rw [← Nat.pow_add, ← Nat.pow_add]; congr 1; omega
      rw [e, Nat.mul_assoc, Nat.add_mul_div_left _ _ (Nat.two_pow_pos _), Nat.mul_assoc, Nat.add_mul_mod_self_left]
    rw [key, key]
  · have key (z : Nat) (hz : z < 2 ^ f.len) : (r + 2 ^ f.lo * (z + 2 ^ f.len * q)) / 2 ^ g.lo = q / 2 ^ (g.lo - (f.lo + f.len)) := by
      have e : 2 ^ g.lo = 2 ^ f.lo * 2 ^ f.len * 2 ^ (g.lo - (f.lo + f.len)) := by
        rw [← Nat.pow_add, ← Nat.pow_add]; congr 1; omega
      rw [e, ← Nat.div_div_eq_div_mul, ← Nat.div_div_eq_div_mul, Nat.add_mul_div_left _ _ hp, Nat.div_eq_of_lt hr, Nat.zero_add,
        Nat.add_mul_div_left _ _ hl, Nat.div_eq_of_lt hz, Nat.zero_add]
    rw [key x hv, key y hm]

/-- A field reads as it was put, cut to its width. -/
theorem State.get_put_same (s : State) (f : Fld) (v : Nat) (h : f.lo + f.len ≤ 32) : (s.put f v).get f = v % 2 ^ f.len := by
  simp [State.put, State.get, Fld.ofWord_into f _ v h]

/-- A put leaves every register but its own. -/
theorem State.rd_put_other (s : State) (f : Fld) (v : Nat) {a : Nat} (h : a ≠ f.addr) : (s.put f v).rd a = s.rd a := by
  simp [State.put, State.rd_wr_other s _ h]

/-- A put leaves every field of another register. -/
theorem State.get_put_other (s : State) (f g : Fld) (v : Nat) (h : g.addr ≠ f.addr) : (s.put f v).get g = s.get g := by
  simp [State.get, State.rd_put_other s f v h]

/-- A put leaves every other field of its register. -/
theorem State.get_put_beside (s : State) (f g : Fld) (v : Nat) (ha : g.addr = f.addr) (hf : f.lo + f.len ≤ 32)
    (h : g.lo + g.len ≤ f.lo ∨ f.lo + f.len ≤ g.lo) : (s.put f v).get g = s.get g := by
  simp [State.put, State.get, ha, Fld.ofWord_into_other f g _ v hf h]

/-- A set status bit reads as set. -/
theorem State.on_flag (s : State) (f : Fld) (h : f.lo + f.len ≤ 32) (hl : f.len = 1) : (s.flag f).on f = true := by
  simp [State.flag, State.on, State.get_put_same s f 1 h, hl]

/-! Events. -/

theorem State.rd_stageRec (s : State) (r : LogRec) (o : Bool) {a : Nat} (h : a ≠ R.LOG_SEQ) : (s.stageRec r o).rd a = s.rd a := by
  simp only [State.stageRec, State.rd_wr_other _ _ h]; rfl

theorem State.rd_loseEvent (s : State) (c : Nat) {a : Nat} (h1 : a ≠ R.LOG_ALERT) (h2 : a ≠ R.LOG_LOST) : (s.loseEvent c).rd a = s.rd a := by
  have e1 : a ≠ F.LOG_LOST_COUNT.addr := h2
  have e2 : a ≠ F.LOG_ALERT_LOST.addr := h1
  simp only [State.loseEvent, State.countUp, State.flag, State.rd_put_other _ _ _ e1, State.rd_put_other _ _ _ e2]; rfl

/-- What staging records can change: the log's staging and the registers LOG_SEQ, LOG_ALERT and LOG_LOST. -/
structure LogOnly (s t : State) : Prop where
  rest : t = { s with regs := t.regs, log := t.log }
  regs : ∀ a, a ∉ eventRegs → t.rd a = s.rd a
  canon : Regs.canon s.regs = true → Regs.canon t.regs = true

theorem LogOnly.refl (s : State) : LogOnly s s := ⟨rfl, fun _ _ => rfl, id⟩

theorem LogOnly.trans {s t u : State} (h : LogOnly s t) (k : LogOnly t u) : LogOnly s u := by
  refine ⟨?_, fun a ha => (k.regs a ha).trans (h.regs a ha), fun c => k.canon (h.canon c)⟩
  rw [k.rest, h.rest]

theorem State.wr_canon {s : State} (h : Regs.canon s.regs = true) (a : Nat) (v : Word) : Regs.canon (s.wr a v).regs = true :=
  Regs.write_canon h a v

theorem State.put_canon {s : State} (h : Regs.canon s.regs = true) (f : Fld) (v : Nat) : Regs.canon (s.put f v).regs = true :=
  Regs.write_canon h _ _

theorem State.stageRec_only (s : State) (r : LogRec) (o : Bool) : LogOnly s (s.stageRec r o) := by
  refine ⟨rfl, fun a ha => s.rd_stageRec r o ?_, fun h => Regs.write_canon h _ _⟩
  intro e; subst e; simp [eventRegs] at ha

theorem State.loseEvent_only (s : State) (c : Nat) : LogOnly s (s.loseEvent c) := by
  refine ⟨rfl, fun a ha => s.rd_loseEvent c ?_ ?_, fun h => Regs.write_canon (Regs.write_canon h _ _) _ _⟩
  · intro e; subst e; simp [eventRegs] at ha
  · intro e; subst e; simp [eventRegs] at ha

theorem State.stageAll_only (g : State → List Byte → State) (hg : ∀ s p, LogOnly s (g s p)) (ps : List (List Byte)) (s : State) :
    LogOnly s (ps.foldl g s) := by
  induction ps generalizing s with
  | nil => exact LogOnly.refl s
  | cons p ps ih => exact (hg s p).trans (ih _)

/-- An event changes staging, LOG_SEQ and, where staging is full, LOG_ALERT and LOG_LOST (R410, R412). -/
theorem State.event_only (s : State) (code source : Nat) (fs : List LogF) : LogOnly s (s.event code source fs) := by
  unfold State.event
  dsimp only
  split
  · split
    · exact ⟨rfl, fun _ _ => rfl, id⟩
    · split
      · exact (s.stageRec_only _ true).trans (State.stageAll_only _ (fun t p => t.stageRec_only _ _) _ _)
      · exact s.loseEvent_only code
  · split
    · exact (s.stageRec_only _ true).trans (State.stageAll_only _ (fun t p => t.stageRec_only _ _) _ _)
    · exact s.loseEvent_only code

theorem State.event_regs (s : State) (code source : Nat) (fs : List LogF) {a : Nat} (h : a ∉ eventRegs) :
    (s.event code source fs).rd a = s.rd a := (s.event_only code source fs).regs a h

theorem State.event_get (s : State) (code source : Nat) (fs : List LogF) (f : Fld) (h : f.addr ∉ eventRegs) :
    (s.event code source fs).get f = s.get f := by simp [State.get, s.event_regs code source fs h]

theorem State.event_canon {s : State} (h : Regs.canon s.regs = true) (code source : Nat) (fs : List LogF) :
    Regs.canon (s.event code source fs).regs = true := (s.event_only code source fs).canon h

@[simp] theorem State.event_pending (s : State) (code source : Nat) (fs : List LogF) : (s.event code source fs).pending = s.pending := by
  rw [(s.event_only code source fs).rest]
@[simp] theorem State.event_tick (s : State) (code source : Nat) (fs : List LogF) : (s.event code source fs).tick = s.tick := by
  rw [(s.event_only code source fs).rest]
@[simp] theorem State.event_latch (s : State) (code source : Nat) (fs : List LogF) : (s.event code source fs).latch = s.latch := by
  rw [(s.event_only code source fs).rest]
@[simp] theorem State.event_held (s : State) (code source : Nat) (fs : List LogF) : (s.event code source fs).held = s.held := by
  rw [(s.event_only code source fs).rest]
@[simp] theorem State.event_sys (s : State) (code source : Nat) (fs : List LogF) : (s.event code source fs).sys = s.sys := by
  rw [(s.event_only code source fs).rest]
@[simp] theorem State.event_pwr (s : State) (code source : Nat) (fs : List LogF) : (s.event code source fs).pwr = s.pwr := by
  rw [(s.event_only code source fs).rest]
@[simp] theorem State.event_tim (s : State) (code source : Nat) (fs : List LogF) : (s.event code source fs).tim = s.tim := by
  rw [(s.event_only code source fs).rest]
@[simp] theorem State.event_fe (s : State) (code source : Nat) (fs : List LogF) : (s.event code source fs).fe = s.fe := by
  rw [(s.event_only code source fs).rest]
@[simp] theorem State.event_slow (s : State) (code source : Nat) (fs : List LogF) : (s.event code source fs).slow = s.slow := by
  rw [(s.event_only code source fs).rest]
@[simp] theorem State.event_sid (s : State) (code source : Nat) (fs : List LogF) : (s.event code source fs).sid = s.sid := by
  rw [(s.event_only code source fs).rest]
@[simp] theorem State.event_core (s : State) (code source : Nat) (fs : List LogF) : (s.event code source fs).core = s.core := by
  rw [(s.event_only code source fs).rest]
@[simp] theorem State.event_red (s : State) (code source : Nat) (fs : List LogF) : (s.event code source fs).red = s.red := by
  rw [(s.event_only code source fs).rest]
@[simp] theorem State.event_cal (s : State) (code source : Nat) (fs : List LogF) : (s.event code source fs).cal = s.cal := by
  rw [(s.event_only code source fs).rest]
@[simp] theorem State.event_hist (s : State) (code source : Nat) (fs : List LogF) : (s.event code source fs).hist = s.hist := by
  rw [(s.event_only code source fs).rest]
@[simp] theorem State.event_jobs (s : State) (code source : Nat) (fs : List LogF) : (s.event code source fs).jobs = s.jobs := by
  rw [(s.event_only code source fs).rest]
@[simp] theorem State.event_net (s : State) (code source : Nat) (fs : List LogF) : (s.event code source fs).net = s.net := by
  rw [(s.event_only code source fs).rest]
@[simp] theorem State.event_stk (s : State) (code source : Nat) (fs : List LogF) : (s.event code source fs).stk = s.stk := by
  rw [(s.event_only code source fs).rest]
@[simp] theorem State.event_upd (s : State) (code source : Nat) (fs : List LogF) : (s.event code source fs).upd = s.upd := by
  rw [(s.event_only code source fs).rest]
@[simp] theorem State.event_nvmq (s : State) (code source : Nat) (fs : List LogF) : (s.event code source fs).nvmq = s.nvmq := by
  rw [(s.event_only code source fs).rest]
@[simp] theorem State.event_dram (s : State) (code source : Nat) (fs : List LogF) : (s.event code source fs).dram = s.dram := by
  rw [(s.event_only code source fs).rest]
@[simp] theorem State.event_net8 (s : State) (code source : Nat) (fs : List LogF) : (s.event code source fs).net8 = s.net8 := by
  rw [(s.event_only code source fs).rest]
@[simp] theorem State.event_netTick (s : State) (code source : Nat) (fs : List LogF) : (s.event code source fs).netTick = s.netTick := by
  rw [(s.event_only code source fs).rest]
@[simp] theorem State.event_part (s : State) (code source : Nat) (fs : List LogF) : (s.event code source fs).part = s.part := by
  rw [(s.event_only code source fs).rest]

/-! The newest record. -/

theorem closeOpen_length (l : LogSt) (t : Nat) : (closeOpen l t).length = l.staged.length := by
  unfold closeOpen
  split <;> simp_all

theorem State.stageRec_length (s : State) (r : LogRec) (o : Bool) : (s.stageRec r o).log.staged.length = s.log.staged.length + 1 := by
  simp [State.stageRec, closeOpen_length]

theorem State.stageRec_newest (s : State) (r : LogRec) (o : Bool) : Newest (s.stageRec r o) r.code r.source :=
  ⟨_, _, rfl, rfl, rfl⟩

theorem State.stageAll_newest (r : LogRec) (ps : List (List Byte)) (s : State) (h : Newest s r.code r.source) :
    Newest (ps.foldl (fun s p => s.stageRec { r with rep := 0, data := p } false) s) r.code r.source := by
  induction ps generalizing s with
  | nil => exact h
  | cons p ps ih => exact ih _ (s.stageRec_newest { r with rep := 0, data := p } false)

theorem State.stageAll_length (r : LogRec) (ps : List (List Byte)) (s : State) :
    (ps.foldl (fun s p => s.stageRec { r with rep := 0, data := p } false) s).log.staged.length = s.log.staged.length + ps.length := by
  induction ps generalizing s with
  | nil => simp
  | cons p ps ih => simp only [List.foldl_cons, ih, State.stageRec_length, List.length_cons]; omega

theorem packLog_length (fs : List (List Byte)) (cur : List Byte) : (packLog fs cur).length ≤ fs.length + 1 := by
  induction fs generalizing cur with
  | nil => simp [packLog]
  | cons f fs ih =>
    simp only [packLog]
    split
    · have := ih (cur ++ f); simp only [List.length_cons]; omega
    · have := ih f; simp only [List.length_cons]; omega

theorem packLog_pos (fs : List (List Byte)) (cur : List Byte) : 0 < (packLog fs cur).length := by
  induction fs generalizing cur with
  | nil => simp [packLog]
  | cons f fs ih =>
    simp only [packLog]
    split
    · exact ih _
    · simp

/-- An event that staging has room for is the newest record after it (R410). -/
theorem State.event_newest (s : State) (code source : Nat) (fs : List LogF)
    (h : s.log.staged.length + fs.length + 1 ≤ Config.stagingSlots) : Newest (s.event code source fs) code source := by
  have hp := packLog_length (fs.map (LogF.bytes s.tick)) []
  have hs : s.log.staged.length + (packLog (fs.map (LogF.bytes s.tick)) []).length ≤ Config.stagingSlots := by
    simp only [List.length_map] at hp; omega
  unfold State.event
  dsimp only
  split
  · rename_i r rs hst
    split
    · rename_i hc
      exact ⟨_, _, rfl, hc.2.2.1, hc.2.2.2.1⟩
    · exact State.stageAll_newest { time := s.logTime, code := code, source := source, rep := 1, data := [] } _ _ (s.stageRec_newest _ true)
  · rename_i hst
    rw [if_pos (by simpa [hst] using hs)]
    exact State.stageAll_newest { time := s.logTime, code := code, source := source, rep := 1, data := [] } _ _ (s.stageRec_newest _ true)

/-- An event adds at most one record for each of its fields and one more. -/
theorem State.event_length (s : State) (code source : Nat) (fs : List LogF) :
    (s.event code source fs).log.staged.length ≤ s.log.staged.length + fs.length + 1 := by
  have hp := packLog_length (fs.map (LogF.bytes s.tick)) []
  have hq := packLog_pos (fs.map (LogF.bytes s.tick)) []
  simp only [List.length_map] at hp
  unfold State.event
  dsimp only
  split
  · split
    · rename_i r rs hst _
      simp [hst]; omega
    · split
      · rw [State.stageAll_length { time := s.logTime, code := code, source := source, rep := 1, data := [] }, State.stageRec_length,
          List.length_tail]
        omega
      · simp [State.loseEvent]; omega
  · split
    · rw [State.stageAll_length { time := s.logTime, code := code, source := source, rep := 1, data := [] }, State.stageRec_length,
        List.length_tail]
      omega
    · simp [State.loseEvent]; omega

/-! Modes and causes. -/

@[simp] theorem State.setMode_sys (s : State) (m : Mode) (c : Nat) : (s.setMode m c).sys =
    { s.sys with mode := m, prev := s.sys.mode, chg := some ⟨s.tick, s.sys.mode, s.sys.prev, c, s.log.next⟩ } := by
  simp [State.setMode]

@[simp] theorem State.setMode_upd (s : State) (m : Mode) (c : Nat) :
    (s.setMode m c).upd = { s.upd with runFrom := if m = Mode.run then some s.tick else none } := by
  simp [State.setMode]

theorem State.setMode_regs (s : State) (m : Mode) (c : Nat) {a : Nat} (h : a ∉ eventRegs) : (s.setMode m c).rd a = s.rd a := by
  simp only [State.setMode, State.event_regs _ _ _ _ h]; rfl

theorem State.setMode_canon {s : State} (h : Regs.canon s.regs = true) (m : Mode) (c : Nat) : Regs.canon (s.setMode m c).regs = true :=
  State.event_canon (by exact h) _ _ _

theorem State.setMode_newest (s : State) (m : Mode) (c : Nat) (h : s.log.staged.length + 4 ≤ Config.stagingSlots) :
    Newest (s.setMode m c) Ev.MODE_CHANGE (evSource 0 0) :=
  State.event_newest _ _ _ _ h

@[simp] theorem State.setMode_pending (s : State) (m : Mode) (c : Nat) : (s.setMode m c).pending = s.pending := by simp [State.setMode]
@[simp] theorem State.setMode_tick (s : State) (m : Mode) (c : Nat) : (s.setMode m c).tick = s.tick := by simp [State.setMode]
@[simp] theorem State.setMode_latch (s : State) (m : Mode) (c : Nat) : (s.setMode m c).latch = s.latch := by simp [State.setMode]
@[simp] theorem State.setMode_held (s : State) (m : Mode) (c : Nat) : (s.setMode m c).held = s.held := by simp [State.setMode]
@[simp] theorem State.setMode_pwr (s : State) (m : Mode) (c : Nat) : (s.setMode m c).pwr = s.pwr := by simp [State.setMode]
@[simp] theorem State.setMode_tim (s : State) (m : Mode) (c : Nat) : (s.setMode m c).tim = s.tim := by simp [State.setMode]
@[simp] theorem State.setMode_fe (s : State) (m : Mode) (c : Nat) : (s.setMode m c).fe = s.fe := by simp [State.setMode]
@[simp] theorem State.setMode_slow (s : State) (m : Mode) (c : Nat) : (s.setMode m c).slow = s.slow := by simp [State.setMode]
@[simp] theorem State.setMode_sid (s : State) (m : Mode) (c : Nat) : (s.setMode m c).sid = s.sid := by simp [State.setMode]
@[simp] theorem State.setMode_core (s : State) (m : Mode) (c : Nat) : (s.setMode m c).core = s.core := by simp [State.setMode]
@[simp] theorem State.setMode_red (s : State) (m : Mode) (c : Nat) : (s.setMode m c).red = s.red := by simp [State.setMode]
@[simp] theorem State.setMode_cal (s : State) (m : Mode) (c : Nat) : (s.setMode m c).cal = s.cal := by simp [State.setMode]
@[simp] theorem State.setMode_hist (s : State) (m : Mode) (c : Nat) : (s.setMode m c).hist = s.hist := by simp [State.setMode]
@[simp] theorem State.setMode_jobs (s : State) (m : Mode) (c : Nat) : (s.setMode m c).jobs = s.jobs := by simp [State.setMode]
@[simp] theorem State.setMode_net (s : State) (m : Mode) (c : Nat) : (s.setMode m c).net = s.net := by simp [State.setMode]
@[simp] theorem State.setMode_stk (s : State) (m : Mode) (c : Nat) : (s.setMode m c).stk = s.stk := by simp [State.setMode]
@[simp] theorem State.setMode_nvmq (s : State) (m : Mode) (c : Nat) : (s.setMode m c).nvmq = s.nvmq := by simp [State.setMode]
@[simp] theorem State.setMode_dram (s : State) (m : Mode) (c : Nat) : (s.setMode m c).dram = s.dram := by simp [State.setMode]
@[simp] theorem State.setMode_net8 (s : State) (m : Mode) (c : Nat) : (s.setMode m c).net8 = s.net8 := by simp [State.setMode]
@[simp] theorem State.setMode_netTick (s : State) (m : Mode) (c : Nat) : (s.setMode m c).netTick = s.netTick := by simp [State.setMode]
@[simp] theorem State.setMode_part (s : State) (m : Mode) (c : Nat) : (s.setMode m c).part = s.part := by simp [State.setMode]


/-- What a change of mode taken back leaves. -/
theorem State.takeBack_rest (s : State) (c : ModeChg) :
    s.takeBack c = { s with regs := (s.takeBack c).regs, sys := (s.takeBack c).sys, upd := (s.takeBack c).upd, log := (s.takeBack c).log } := by
  unfold State.takeBack
  dsimp only
  split <;> rfl

theorem State.takeBack_mode (s : State) (c : ModeChg) : (s.takeBack c).sys.mode = c.mode := by
  unfold State.takeBack
  dsimp only
  split <;> rfl

/-- It changes no register but LOG_SEQ. -/
theorem State.takeBack_regs (s : State) (c : ModeChg) {a : Nat} (h : a ∉ eventRegs) : (s.takeBack c).rd a = s.rd a := by
  have e : a ≠ R.LOG_SEQ := by intro e; subst e; simp [eventRegs] at h
  unfold State.takeBack
  dsimp only
  split
  · rfl
  · rw [State.rd_wr_other _ _ e]; rfl

theorem State.takeBack_canon {s : State} (h : Regs.canon s.regs = true) (c : ModeChg) : Regs.canon (s.takeBack c).regs = true := by
  unfold State.takeBack
  dsimp only
  split
  · exact h
  · exact Regs.write_canon h _ _

/-- Everything that raising a LIMP cause can do (R18, R42, R43, R49): the cause is noted, and a hub in RUN enters LIMP, or stays in it where it
returned to RUN in this very tick; in LIMP the record of the change may come to name a lower bit. -/
theorem State.raiseLimp_cases (s : State) (i : Nat) :
    (s.sys.mode ≠ Mode.run ∧ s.raiseLimp i = s.noteLimp i) ∨
      ((s.sys.mode = Mode.run ∨ s.sys.mode = Mode.limp) ∧ ∃ k, s.raiseLimp i = (s.noteLimp i).setMode .limp k ∨
        ∃ c, s.raiseLimp i = ((s.noteLimp i).takeBack c).setMode .limp k ∨ s.raiseLimp i = (s.noteLimp i).takeBack c ∧ c.mode = .limp) := by
  unfold State.raiseLimp
  by_cases h : s.sys.mode = Mode.run
  · refine .inr ⟨.inl h, ?_⟩
    simp only [h, if_true]
    split
    · split
      · exact ⟨0, .inr ⟨_, .inr ⟨rfl, rfl⟩⟩⟩
      · split
        · exact ⟨_, .inr ⟨_, .inl rfl⟩⟩
        · exact ⟨_, .inl rfl⟩
    · exact ⟨_, .inl rfl⟩
  · simp only [h, if_false]
    by_cases hl : s.sys.mode = Mode.limp
    · simp only [hl, if_true]
      split
      · split
        · exact .inr ⟨.inr trivial, _, .inr ⟨_, .inl rfl⟩⟩
        · exact .inl ⟨by simp, rfl⟩
      · exact .inl ⟨by simp, rfl⟩
    · exact .inl ⟨h, by simp only [hl, if_false]⟩

/-- What raising a LIMP cause leaves. -/
theorem State.raiseLimp_rest (s : State) (i : Nat) :
    s.raiseLimp i = { s with regs := (s.raiseLimp i).regs, part := (s.raiseLimp i).part, sys := (s.raiseLimp i).sys
                             upd := (s.raiseLimp i).upd, log := (s.raiseLimp i).log } := by
  obtain ⟨-, h⟩ | ⟨-, k, h | ⟨c, h | ⟨h, -⟩⟩⟩ := s.raiseLimp_cases i
  · rw [h]; rfl
  · rw [h]; unfold State.setMode; rw [(State.event_only _ _ _ _).rest]; rfl
  · rw [h]; unfold State.setMode; rw [(State.event_only _ _ _ _).rest, State.takeBack_rest]; rfl
  · rw [h, State.takeBack_rest]; rfl

/-- A hub in RUN enters LIMP as a cause arises; in another mode the mode stays (R18, R42). -/
theorem State.raiseLimp_mode (s : State) (i : Nat) :
    (s.raiseLimp i).sys.mode = if s.sys.mode = Mode.run then Mode.limp else s.sys.mode := by
  obtain ⟨hm, h⟩ | ⟨hm, k, h⟩ := s.raiseLimp_cases i
  · rw [h, if_neg hm]; rfl
  · have e : (if s.sys.mode = Mode.run then Mode.limp else s.sys.mode) = Mode.limp := by
      obtain hm | hm := hm <;> simp [hm]
    rw [e]
    obtain h | ⟨c, h | ⟨h, hc⟩⟩ := h
    · rw [h]; simp
    · rw [h]; simp
    · rw [h, State.takeBack_mode, hc]

/-- The cause shows in SYS_LIMP, beside those that are in force (R431). -/
theorem State.raiseLimp_bits (s : State) (i : Nat) : (s.raiseLimp i).rd R.SYS_LIMP = s.rd R.SYS_LIMP ||| wd (2 ^ i) := by
  obtain ⟨-, h⟩ | ⟨-, k, h | ⟨c, h | ⟨h, -⟩⟩⟩ := s.raiseLimp_cases i
  · rw [h]; simp [State.noteLimp, State.rd]
  · rw [h, State.setMode_regs _ _ _ (by decide)]; simp [State.noteLimp, State.rd]
  · rw [h, State.setMode_regs _ _ _ (by decide), State.takeBack_regs _ _ (by decide)]; simp [State.noteLimp, State.rd]
  · rw [h, State.takeBack_regs _ _ (by decide)]; simp [State.noteLimp, State.rd]

theorem State.raiseLimp_regs (s : State) (i : Nat) {a : Nat} (h : a ∉ eventRegs) (h' : a ≠ R.SYS_LIMP) : (s.raiseLimp i).rd a = s.rd a := by
  have k : (s.noteLimp i).rd a = s.rd a := by simp [State.noteLimp, State.rd, Regs.read_write_other s.regs _ h']
  obtain ⟨-, e⟩ | ⟨-, n, e | ⟨c, e | ⟨e, -⟩⟩⟩ := s.raiseLimp_cases i
  · rw [e, k]
  · rw [e, State.setMode_regs _ _ _ h, k]
  · rw [e, State.setMode_regs _ _ _ h, State.takeBack_regs _ _ h, k]
  · rw [e, State.takeBack_regs _ _ h, k]

theorem State.raiseLimp_canon {s : State} (h : Regs.canon s.regs = true) (i : Nat) : Regs.canon (s.raiseLimp i).regs = true := by
  have k : Regs.canon (s.noteLimp i).regs = true := Regs.write_canon h _ _
  obtain ⟨-, e⟩ | ⟨-, n, e | ⟨c, e | ⟨e, -⟩⟩⟩ := s.raiseLimp_cases i
  · rw [e]; exact k
  · rw [e]; exact State.setMode_canon k _ _
  · rw [e]; exact State.setMode_canon (State.takeBack_canon k _) _ _
  · rw [e]; exact State.takeBack_canon k _

@[simp] theorem State.raiseLimp_pending (s : State) (i : Nat) : (s.raiseLimp i).pending = s.pending := by
  rw [s.raiseLimp_rest i]
@[simp] theorem State.raiseLimp_tick (s : State) (i : Nat) : (s.raiseLimp i).tick = s.tick := by
  rw [s.raiseLimp_rest i]
@[simp] theorem State.raiseLimp_latch (s : State) (i : Nat) : (s.raiseLimp i).latch = s.latch := by
  rw [s.raiseLimp_rest i]
@[simp] theorem State.raiseLimp_held (s : State) (i : Nat) : (s.raiseLimp i).held = s.held := by
  rw [s.raiseLimp_rest i]
@[simp] theorem State.raiseLimp_pwr (s : State) (i : Nat) : (s.raiseLimp i).pwr = s.pwr := by
  rw [s.raiseLimp_rest i]
@[simp] theorem State.raiseLimp_tim (s : State) (i : Nat) : (s.raiseLimp i).tim = s.tim := by
  rw [s.raiseLimp_rest i]
@[simp] theorem State.raiseLimp_fe (s : State) (i : Nat) : (s.raiseLimp i).fe = s.fe := by
  rw [s.raiseLimp_rest i]
@[simp] theorem State.raiseLimp_slow (s : State) (i : Nat) : (s.raiseLimp i).slow = s.slow := by
  rw [s.raiseLimp_rest i]
@[simp] theorem State.raiseLimp_sid (s : State) (i : Nat) : (s.raiseLimp i).sid = s.sid := by
  rw [s.raiseLimp_rest i]
@[simp] theorem State.raiseLimp_core (s : State) (i : Nat) : (s.raiseLimp i).core = s.core := by
  rw [s.raiseLimp_rest i]
@[simp] theorem State.raiseLimp_red (s : State) (i : Nat) : (s.raiseLimp i).red = s.red := by
  rw [s.raiseLimp_rest i]
@[simp] theorem State.raiseLimp_cal (s : State) (i : Nat) : (s.raiseLimp i).cal = s.cal := by
  rw [s.raiseLimp_rest i]
@[simp] theorem State.raiseLimp_hist (s : State) (i : Nat) : (s.raiseLimp i).hist = s.hist := by
  rw [s.raiseLimp_rest i]
@[simp] theorem State.raiseLimp_jobs (s : State) (i : Nat) : (s.raiseLimp i).jobs = s.jobs := by
  rw [s.raiseLimp_rest i]
@[simp] theorem State.raiseLimp_net (s : State) (i : Nat) : (s.raiseLimp i).net = s.net := by
  rw [s.raiseLimp_rest i]
@[simp] theorem State.raiseLimp_stk (s : State) (i : Nat) : (s.raiseLimp i).stk = s.stk := by
  rw [s.raiseLimp_rest i]
@[simp] theorem State.raiseLimp_nvmq (s : State) (i : Nat) : (s.raiseLimp i).nvmq = s.nvmq := by
  rw [s.raiseLimp_rest i]
@[simp] theorem State.raiseLimp_dram (s : State) (i : Nat) : (s.raiseLimp i).dram = s.dram := by
  rw [s.raiseLimp_rest i]
@[simp] theorem State.raiseLimp_net8 (s : State) (i : Nat) : (s.raiseLimp i).net8 = s.net8 := by
  rw [s.raiseLimp_rest i]
@[simp] theorem State.raiseLimp_netTick (s : State) (i : Nat) : (s.raiseLimp i).netTick = s.netTick := by
  rw [s.raiseLimp_rest i]
@[simp] theorem State.exhaust_pending (s : State) (c : Nat) : (s.exhaust c).pending = s.pending := by simp [State.exhaust]
@[simp] theorem State.exhaust_tick (s : State) (c : Nat) : (s.exhaust c).tick = s.tick := by simp [State.exhaust]
@[simp] theorem State.exhaust_latch (s : State) (c : Nat) : (s.exhaust c).latch = s.latch := by simp [State.exhaust]
@[simp] theorem State.exhaust_held (s : State) (c : Nat) : (s.exhaust c).held = s.held := by simp [State.exhaust]
@[simp] theorem State.exhaust_pwr (s : State) (c : Nat) : (s.exhaust c).pwr = s.pwr := by simp [State.exhaust]
@[simp] theorem State.exhaust_tim (s : State) (c : Nat) : (s.exhaust c).tim = s.tim := by simp [State.exhaust]
@[simp] theorem State.exhaust_fe (s : State) (c : Nat) : (s.exhaust c).fe = s.fe := by simp [State.exhaust]
@[simp] theorem State.exhaust_slow (s : State) (c : Nat) : (s.exhaust c).slow = s.slow := by simp [State.exhaust]
@[simp] theorem State.exhaust_sid (s : State) (c : Nat) : (s.exhaust c).sid = s.sid := by simp [State.exhaust]
@[simp] theorem State.exhaust_core (s : State) (c : Nat) : (s.exhaust c).core = s.core := by simp [State.exhaust]
@[simp] theorem State.exhaust_red (s : State) (c : Nat) : (s.exhaust c).red = s.red := by simp [State.exhaust]
@[simp] theorem State.exhaust_cal (s : State) (c : Nat) : (s.exhaust c).cal = s.cal := by simp [State.exhaust]
@[simp] theorem State.exhaust_hist (s : State) (c : Nat) : (s.exhaust c).hist = s.hist := by simp [State.exhaust]
@[simp] theorem State.exhaust_jobs (s : State) (c : Nat) : (s.exhaust c).jobs = s.jobs := by simp [State.exhaust]
@[simp] theorem State.exhaust_net (s : State) (c : Nat) : (s.exhaust c).net = s.net := by simp [State.exhaust]
@[simp] theorem State.exhaust_stk (s : State) (c : Nat) : (s.exhaust c).stk = s.stk := by simp [State.exhaust]
@[simp] theorem State.exhaust_nvmq (s : State) (c : Nat) : (s.exhaust c).nvmq = s.nvmq := by simp [State.exhaust]
@[simp] theorem State.exhaust_dram (s : State) (c : Nat) : (s.exhaust c).dram = s.dram := by simp [State.exhaust]
@[simp] theorem State.exhaust_net8 (s : State) (c : Nat) : (s.exhaust c).net8 = s.net8 := by simp [State.exhaust]
@[simp] theorem State.exhaust_netTick (s : State) (c : Nat) : (s.exhaust c).netTick = s.netTick := by simp [State.exhaust]
@[simp] theorem State.clearLimp_pending (s : State) (i : Nat) : (s.clearLimp i).pending = s.pending := by
  unfold State.clearLimp
  dsimp only
  split <;> rfl
@[simp] theorem State.clearLimp_tick (s : State) (i : Nat) : (s.clearLimp i).tick = s.tick := by
  unfold State.clearLimp
  dsimp only
  split <;> rfl
@[simp] theorem State.clearLimp_latch (s : State) (i : Nat) : (s.clearLimp i).latch = s.latch := by
  unfold State.clearLimp
  dsimp only
  split <;> rfl
@[simp] theorem State.clearLimp_held (s : State) (i : Nat) : (s.clearLimp i).held = s.held := by
  unfold State.clearLimp
  dsimp only
  split <;> rfl
@[simp] theorem State.clearLimp_pwr (s : State) (i : Nat) : (s.clearLimp i).pwr = s.pwr := by
  unfold State.clearLimp
  dsimp only
  split <;> rfl
@[simp] theorem State.clearLimp_tim (s : State) (i : Nat) : (s.clearLimp i).tim = s.tim := by
  unfold State.clearLimp
  dsimp only
  split <;> rfl
@[simp] theorem State.clearLimp_fe (s : State) (i : Nat) : (s.clearLimp i).fe = s.fe := by
  unfold State.clearLimp
  dsimp only
  split <;> rfl
@[simp] theorem State.clearLimp_slow (s : State) (i : Nat) : (s.clearLimp i).slow = s.slow := by
  unfold State.clearLimp
  dsimp only
  split <;> rfl
@[simp] theorem State.clearLimp_sid (s : State) (i : Nat) : (s.clearLimp i).sid = s.sid := by
  unfold State.clearLimp
  dsimp only
  split <;> rfl
@[simp] theorem State.clearLimp_core (s : State) (i : Nat) : (s.clearLimp i).core = s.core := by
  unfold State.clearLimp
  dsimp only
  split <;> rfl
@[simp] theorem State.clearLimp_red (s : State) (i : Nat) : (s.clearLimp i).red = s.red := by
  unfold State.clearLimp
  dsimp only
  split <;> rfl
@[simp] theorem State.clearLimp_cal (s : State) (i : Nat) : (s.clearLimp i).cal = s.cal := by
  unfold State.clearLimp
  dsimp only
  split <;> rfl
@[simp] theorem State.clearLimp_hist (s : State) (i : Nat) : (s.clearLimp i).hist = s.hist := by
  unfold State.clearLimp
  dsimp only
  split <;> rfl
@[simp] theorem State.clearLimp_jobs (s : State) (i : Nat) : (s.clearLimp i).jobs = s.jobs := by
  unfold State.clearLimp
  dsimp only
  split <;> rfl
@[simp] theorem State.clearLimp_net (s : State) (i : Nat) : (s.clearLimp i).net = s.net := by
  unfold State.clearLimp
  dsimp only
  split <;> rfl
@[simp] theorem State.clearLimp_stk (s : State) (i : Nat) : (s.clearLimp i).stk = s.stk := by
  unfold State.clearLimp
  dsimp only
  split <;> rfl
@[simp] theorem State.clearLimp_log (s : State) (i : Nat) : (s.clearLimp i).log = s.log := by
  unfold State.clearLimp
  dsimp only
  split <;> rfl
@[simp] theorem State.clearLimp_upd (s : State) (i : Nat) : (s.clearLimp i).upd = s.upd := by
  unfold State.clearLimp
  dsimp only
  split <;> rfl
@[simp] theorem State.clearLimp_nvmq (s : State) (i : Nat) : (s.clearLimp i).nvmq = s.nvmq := by
  unfold State.clearLimp
  dsimp only
  split <;> rfl
@[simp] theorem State.clearLimp_dram (s : State) (i : Nat) : (s.clearLimp i).dram = s.dram := by
  unfold State.clearLimp
  dsimp only
  split <;> rfl
@[simp] theorem State.clearLimp_net8 (s : State) (i : Nat) : (s.clearLimp i).net8 = s.net8 := by
  unfold State.clearLimp
  dsimp only
  split <;> rfl
@[simp] theorem State.clearLimp_netTick (s : State) (i : Nat) : (s.clearLimp i).netTick = s.netTick := by
  unfold State.clearLimp
  dsimp only
  split <;> rfl
@[simp] theorem State.clearLimp_part (s : State) (i : Nat) : (s.clearLimp i).part = s.part := by
  unfold State.clearLimp
  dsimp only
  split <;> rfl
@[simp] theorem State.send_pending (s : State) (x : Tx) : (s.send x).pending = s.pending := rfl
@[simp] theorem State.send_tick (s : State) (x : Tx) : (s.send x).tick = s.tick := rfl
@[simp] theorem State.send_regs (s : State) (x : Tx) : (s.send x).regs = s.regs := rfl
@[simp] theorem State.send_latch (s : State) (x : Tx) : (s.send x).latch = s.latch := rfl
@[simp] theorem State.send_held (s : State) (x : Tx) : (s.send x).held = s.held := rfl
@[simp] theorem State.send_sys (s : State) (x : Tx) : (s.send x).sys = s.sys := rfl
@[simp] theorem State.send_pwr (s : State) (x : Tx) : (s.send x).pwr = s.pwr := rfl
@[simp] theorem State.send_tim (s : State) (x : Tx) : (s.send x).tim = s.tim := rfl
@[simp] theorem State.send_fe (s : State) (x : Tx) : (s.send x).fe = s.fe := rfl
@[simp] theorem State.send_slow (s : State) (x : Tx) : (s.send x).slow = s.slow := rfl
@[simp] theorem State.send_sid (s : State) (x : Tx) : (s.send x).sid = s.sid := rfl
@[simp] theorem State.send_core (s : State) (x : Tx) : (s.send x).core = s.core := rfl
@[simp] theorem State.send_red (s : State) (x : Tx) : (s.send x).red = s.red := rfl
@[simp] theorem State.send_cal (s : State) (x : Tx) : (s.send x).cal = s.cal := rfl
@[simp] theorem State.send_hist (s : State) (x : Tx) : (s.send x).hist = s.hist := rfl
@[simp] theorem State.send_jobs (s : State) (x : Tx) : (s.send x).jobs = s.jobs := rfl
@[simp] theorem State.send_stk (s : State) (x : Tx) : (s.send x).stk = s.stk := rfl
@[simp] theorem State.send_log (s : State) (x : Tx) : (s.send x).log = s.log := rfl
@[simp] theorem State.send_upd (s : State) (x : Tx) : (s.send x).upd = s.upd := rfl
@[simp] theorem State.send_nvmq (s : State) (x : Tx) : (s.send x).nvmq = s.nvmq := rfl
@[simp] theorem State.send_dram (s : State) (x : Tx) : (s.send x).dram = s.dram := rfl
@[simp] theorem State.send_net8 (s : State) (x : Tx) : (s.send x).net8 = s.net8 := rfl
@[simp] theorem State.send_netTick (s : State) (x : Tx) : (s.send x).netTick = s.netTick := rfl
@[simp] theorem State.send_part (s : State) (x : Tx) : (s.send x).part = s.part := rfl
@[simp] theorem State.send_net (s : State) (x : Tx) : (s.send x).net = { s.net with out := x :: s.net.out } := rfl

end Sys2Proof.Machine
end

