-- ==== Sys2Proof/Laws/Queues.lean ====
section
/-! SUPPORT. Laws/Queues.lean: what the operations on the hub's own queues can do. -/
namespace Sys2Proof.Machine

/-- Work is queued behind what waits, and only for a flash that takes it. -/
theorem State.mem_nvmQueue (s : State) (ops : List NvmOp) (o : NvmOp) :
    o ∈ (s.nvmQueue ops).nvmq ↔ o ∈ s.nvmq ∨ o ∈ ops ∧ (if o.onLog then s.logTakes o.flash else s.flashOk o.flash) = true := by
  simp [State.nvmQueue]

/-- Queueing work for the flashes touches nothing else. -/
theorem State.nvmQueue_rest (s : State) (ops : List NvmOp) : s.nvmQueue ops = { s with nvmq := (s.nvmQueue ops).nvmq } := rfl

/-- A window noted to be drained joins those there are, and none of them goes. -/
theorem mem_insertDrain (d e : Drain) (l : List Drain) : (e ∈ l → e ∈ insertDrain d l) ∧ (e ∈ insertDrain d l → e = d ∨ e ∈ l) := by
  induction l with
  | nil => simp [insertDrain]
  | cons a r ih =>
    unfold insertDrain
    split
    · simp +contextual
    · split
      · constructor
        · intro h
          cases List.mem_cons.mp h with
          | inl h => simp [h]
          | inr h => exact List.mem_cons_of_mem _ (ih.1 h)
        · intro h
          cases List.mem_cons.mp h with
          | inl h => simp [h]
          | inr h => exact (ih.2 h).imp_right (List.mem_cons_of_mem _)
      · simp +contextual

/-- Noting a window touches the windows to be drained alone. -/
theorem State.noteDrain_rest (s : State) (d : Drain) :
    s.noteDrain d = { s with stk := { s.stk with drains := insertDrain d s.stk.drains } } := rfl

/-- The word that a source gave as it fired is the one a replay finds for that tick. -/
theorem State.firedWord_noteFired (s : State) (t q : Nat) (w : Word) : (s.noteFired t q w).firedWord t q = w := by
  simp [State.noteFired, State.firedWord]

/-- The words of other ticks and sources that a replay can still need stay as they are. -/
theorem State.firedWord_other (s : State) (t q t' q' : Nat) (w : Word) (h : t' ≠ t ∨ q' ≠ q) (k : t < t' + 1024) :
    (s.noteFired t q w).firedWord t' q' = s.firedWord t' q' := by
  have ne : (t == t' && q == q') = false := by
    rcases h with h | h <;> simp [Ne.symm h]
  have same : ∀ l : List (Nat × Nat × Word),
      (l.filter (fun e => decide (t < e.1 + 1024))).find? (fun e => e.1 == t' && e.2.1 == q') = l.find? (fun e => e.1 == t' && e.2.1 == q') := by
    intro l
    induction l with
    | nil => rfl
    | cons a r ih =>
      by_cases ha : (a.1 == t' && a.2.1 == q') = true
      · have : a.1 = t' := by simpa using (Bool.and_eq_true_iff.mp ha).1
        rw [List.filter_cons_of_pos (by simp [this, k])]
        simp only [List.find?_cons, ha]
      · by_cases hb : t < a.1 + 1024 <;> simp_all
  unfold State.firedWord State.noteFired
  simp only [List.find?_cons, ne, same]

end Sys2Proof.Machine
end

