-- ==== Sys2Proof/WellFormed.lean ====
section
/-! DEFINITION. WellFormed.lean: which commands name parts that the hub has. The meanings are total and
answer any term; a term that is not well-formed stands for nothing that can happen to the hub. -/
namespace Sys2Proof

/-- A fast channel, 0 to 191 (R89). -/
def fastCh (ch : Nat) : Bool := decide (ch < 192)

/-- A slow channel, 256 to 511 (R123). -/
def slowCh (ch : Nat) : Bool := decide (256 ≤ ch) && decide (ch < 512)

/-- The request types that R291 names. -/
def knownTypes : List Nat := [0x10, 0x11, 0x12, 0x20, 0x21, 0x30, 0x31, 0x32, 0x40, 0x41, 0x50, 0x51, 0x60, 0x61]

/-- A request as it can arrive: from an uplink, the service port or the stack, its header fields within their widths (R274). -/
def Req.wf (r : Req) : Bool :=
  decide (r.port < 5) && decide (r.hubId < 4096) && decide (r.stream < 16) && decide (r.seq < 2 ^ 48) && decide (r.firstTick < 2 ^ 64)

/-- A member's datagram, its header fields within their widths (R274). -/
def Fwd.wf (d : Fwd) : Bool :=
  decide (d.hubId < 4096) && decide (d.stream < 16) && decide (d.seq < 2 ^ 48) && decide (d.first < 2 ^ 64) && decide (d.boot < 2 ^ 16)
    && decide (d.dstPort < 2 ^ 16)

/-- What misses its deadline is a part that the hub has (R8, R37). -/
def Deadline.wf : Deadline → Bool
  | .sharedUnit (.uplink x) => decide (x < 2)
  | .sharedUnit (.compression j) => decide (j < 256)
  | .sharedUnit _ => true
  | .tmrLane b => decide (b < 16)
  | .tmrMajority b => decide (b < 16)
  | .activeCore => true
  | .standbyCore => true

/-- A flash that exists. -/
def NvmEnd.wf : NvmEnd → Bool
  | .readLost f _ => decide (f < 2)
  | .noSfdp f => decide (f < 2)
  | _ => true

/-- The codes of a trim are of a converter that exists, two at each point of its eight ranges (R361). -/
def ConvCodes.wf (e : ConvCodes) : Bool := decide (e.conv < 18) && e.zero.length == 8 && e.ref.length == 8

/-- Whether a command names parts that the hub has. -/
def Instr.wf : Instr → Bool
  | .porstAssert => true
  | .porstRelease _ _ => true
  | .loadEnd => true
  | .lockWaitEnd => true
  | .brownoutReset _ => true
  | .coreSupplyReset _ => true
  | .supplyWarning row _ => decide (row < 9)
  | .bracingEnd => true
  | .sysWarmReset _ keySlot => decide (keySlot < 4)
  | .warmResetExecute => true
  | .updateReset => true
  | .sysTrimReq => true
  | .trimStart badSlices badConvs => badSlices.all (fun i => decide (i < 200)) && badConvs.all (fun q => decide (q < 18))
  | .trimEnd codes => codes.all ConvCodes.wf && codes.map (·.conv) == List.range 18
  | .limpReturnToRun => true
  | .deadlineMiss miss => miss.wf
  | .stewardWatchdogExpiry => true
  | .stewardResume => true
  | .eccCorrectableError _ _ => true
  | .avsAdjust _ _ => true
  | .avsMarginLow _ => true
  | .avsPmbusFail _ _ => true
  | .dramRefreshChange _ => true
  | .dramRowRepair _ => true
  | .sliceConversion codes => codes.length == 200
  | .sampleCollect => true
  | .btuEvaluate => true
  | .btuAutoPermit p => decide (p < 16)
  | .coreTickProcess => true
  | .frameStatus _ _ => true
  | .coefSetActivation => true
  | .coefRepeat => true
  | .recTimeSecondMark => true
  | .ptpMeasurement d _ _ _ _ _ => decide (d < 2)
  | .asymEstComplete d => decide (d < 2)
  | .soloHoldExpiry d => decide (d < 2)
  | .domainLossTimeout d => decide (d < 2)
  | .asymApply d => decide (d < 2)
  | .stepAccept d => decide (d < 2)
  | .atSourceChange => true
  | .atRevert => true
  | .slewEnd => true
  | .frcSourceChange _ _ => true
  | .synceLoss port _ => decide (port < 2)
  | .mclkMarker _ => true
  | .mclkLoss => true
  | .ppsInEdge _ => true
  | .tdOffsetWrite d _ => decide (d < 4)
  | .td3RateWrite _ => true
  | .snapLatch => true
  | .tcmpArm u => decide (u < 16)
  | .tcmpDisarm u => decide (u < 16)
  | .tcmpFire u => decide (u < 16)
  | .toutStart t => decide (t < 4)
  | .toutStop t => decide (t < 4)
  | .sliceAbruptFailure slice => decide (slice < 200)
  | .sliceSubstitution bank => decide (bank < 8)
  | .sliceGradualFailure bank input => decide (bank < 8) && decide (input < 24)
  | .gradualSubstitution bank => decide (bank < 8)
  | .spareFail bank => decide (bank < 8)
  | .spareManPark bank _ => decide (bank < 8)
  | .ilkRearm _ => true
  | .ilkReadbackFail pin => decide (pin < 16)
  | .channelEnable ch => fastCh ch
  | .channelDisable ch => fastCh ch
  | .channelEnableEffect ch => fastCh ch
  | .channelDisableEffect ch => fastCh ch
  | .groupEnable g => decide (g < 16)
  | .scanStart g => decide (g < 16)
  | .slowSlot g _ _ _ => decide (g < 16)
  | .slowSampleRelease g => decide (g < 16)
  | .slowChannelEnable ch => slowCh ch
  | .slowChannelDisable ch => slowCh ch
  | .excFault g source => decide (g < 16) && decide (source < 3)
  | .excFaultEnd g source => decide (g < 16) && decide (source < 3)
  | .converterFail conv => decide (conv < 18)
  | .converterTakeover g => decide (g < 16)
  | .romCheck ch _ => slowCh ch
  | .templateRead ch page crcOk => slowCh ch && (!crcOk || page.length == 32)
  | .sidNoIdle ch => slowCh ch
  | .lifeWriteback ch _ => slowCh ch
  | .sidWbNow => true
  | .fltSyncArm => true
  | .fltSyncDisarm => true
  | .filterSync source => decide (source < 19)
  | .trgInEdge input _ _ => decide (input < 4)
  | .trgSourceArm q _ => decide (q < 16)
  | .trgSourceDisarm q _ => decide (q < 16)
  | .trgConditionWrite c reg _ => decide (c < 64) && decide (reg < 4)
  | .triggerAutoFire q => decide (q < 16)
  | .heldTriggerEffect => true
  | .armAnyRearm => true
  | .windowClose d => decide (d < 256)
  | .windowRead d => decide (d < 256)
  | .windowReadout d => decide (d < 256)
  | .windowCancel d => decide (d < 256)
  | .windowRelease d => decide (d < 256)
  | .cmpJobStart j => decide (j < 256)
  | .cmpJobAbort j => decide (j < 256)
  | .cmpJobRun j => decide (j < 256)
  | .cmpJobEnd j => decide (j < 256)
  | .cmpParityError j => decide (j < 256)
  | .datagramClose m => decide (m < 16)
  | .datagramSend port => decide (port < 2) || port == 3
  | .overwriteReport m => decide (m < 16)
  | .linkUp port _ _ _ => decide (port < 2)
  | .portLoss port _ => decide (port < 2)
  | .linkLoopbackTest port _ => decide (port < 2)
  | .linkRetry port => decide (port < 2)
  | .icmpEchoRequest port _ _ _ => decide (port < 2)
  | .read r => r.wf
  | .write r => r.wf
  | .timedWriteEffect => true
  | .blockRead r => r.wf
  | .authChallenge r => r.wf
  | .authResponse r => r.wf
  | .sessionTimeout _ => true
  | .authLockoutEnd _ _ => true
  | .trigger r => r.wf
  | .sync r => r.wf
  | .nack r => r.wf
  | .ack r => r.wf
  | .unknownRequest type r => !(knownTypes.contains type.toNat) && r.wf
  | .hmacKeyRevoke _ => true
  | .svcStatus => true
  | .svcRequest _ => true
  | .svcResponse _ => true
  | .svcClear => true
  | .stackLinkTraining port _ _ _ => decide (port < 2)
  | .stackLaneSpare port lane => decide (port < 2) && decide (lane < 5)
  | .stackPacketRx port _ _ => decide (port < 2)
  | .framePacket _ => true
  | .rttPacket _ => true
  | .hopTapStep => true
  | .busInwardFrame _ _ => true
  | .busOutwardFrame _ _ ctrl _ => decide (ctrl < 4)
  | .clockBusLoss => true
  | .stkResume => true
  | .deputyHandback => true
  | .poolLost => true
  | .mergeRecordsRx pos _ _ => decide (pos < 16)
  | .mergeAckRx _ => true
  | .mergeDrop pos => decide (pos < 16)
  | .forwardDatagram pos _ _ d => decide (pos < 16) && d.wf
  | .stackMgmtPacket _ r => r.wf
  | .creditGrant => true
  | .epochCopy => true
  | .epochCommit => true
  | .coreFailureDetect _ => true
  | .catchupComplete => true
  | .standbyFault _ _ => true
  | .bistComplete _ _ => true
  | .provingComplete _ => true
  | .coreRevert => true
  | .plannedSwap => true
  | .drillDue => true
  | .drillEnd => true
  | .redSwap => true
  | .redRestart => true
  | .wvLaneOut lane _ => decide (lane < 3)
  | .weathervaneMajorityLoss => true
  | .holdFreeze => true
  | .rtSlotStart => true
  | .rtSlotEnd => true
  | .fieldZeroStart => true
  | .fieldZeroComplete => true
  | .fieldZeroClear ch => fastCh ch
  | .laneEyeScan lane _ _ _ _ => decide (lane < 12)
  | .updateBegin r => r.wf
  | .updateChunk r => r.wf
  | .updateEnd r => r.wf
  | .updateVerifyComplete => true
  | .updateLockTimeout => true
  | .updConfirm => true
  | .autoConfirm => true
  | .updCancel => true
  | .imageKeyRevoke _ => true
  | .nvmSectorRepair flash => decide (flash < 2)
  | .logRecordTimeout => true
  | .logPageWrite => true
  | .lostReport => true
  | .logSectorSpare flash sector => decide (flash < 2) && decide (sector < 120)
  | .logMediumFail => true
  | .logRead r => r.wf
  | .logClear r => r.wf
  | .sysShutdown => true
  | .shutdownComplete => true
  | .thermalEvent _ _ => true
  | .registerWrite addr _ => addr % 4 == 0 && decide (addr < 0xF0000)
  | .stackLinkLoss port => decide (port < 2)
  | .macQueueParityError port => decide (port < 2)
  | .nvmOperationComplete res => res.wf
  | .ptpAnnounceRx d _ => decide (d < 2)
  | .pdelayReqRx d _ _ => decide (d < 2)
  | .groupDisable g => decide (g < 16)
  | .invalidDatagramRx rx => decide (rx.1 < 2)
  | .arpNdpRequest port _ _ => decide (port < 2)
  | .testPortInstruction _ => true

end Sys2Proof
end

