-- ==== Sys2Proof/Tests/Slice0.lean ====
section
/-! SUPPORT. Slice0.lean: small tests of single steps and of well-formedness, and for every clause of the statements that has
hypotheses a witness: concrete operands and a state that meet all of them together. Expected values come from the spec's own
figures or from a calculation by hand. -/
set_option Elab.async false
set_option linter.unusedVariables false
namespace Sys2Proof.Tests
open Sys2Proof Sys2Proof.Machine

/-! States the witnesses and tests are built from. -/

/-- The parts of `Serves` put together. -/
theorem serves_of {s : State} {typ : Nat} {r : Req} {b : Bool}
    (h : s.sys.porst = false ∧ s.sys.mode ≠ .load ∧ (r.svc = true ∨ s.portReady r.port = true) ∧ s.names r = true ∧
      (b = true → s.sys.steward = true) ∧ s.kept typ r = none) : s.Serves typ r b := by
  rcases h with ⟨powered, loaded, port, named, steward, new⟩
  exact State.Serves.mk powered loaded port named steward new

/-- A hub at work in a mode at a tick: Core A active, Core B standing by, every register at its reset word. -/
def hub (m : Mode) (t : Nat) : State :=
  { tick := t, sys := { mode := m, porst := false, steward := true, load := .done }, core := { pos := t },
    red := { roleA := .active, roleB := .standby, active := some .a } }

/-- Both uplinks up. -/
def upNet : Net := { links := [(0, { up := true }), (1, { up := true })] }

/-- A hub with both uplinks up. -/
def netHub : State := { hub .run 4000000 with net := upNet }

/-- A request on uplink A to every hub. -/
def req (ws : List Word) : Req :=
  { src := 1, svc := false, port := 0, v6 := false, hubId := 0, stream := 15, seq := 5, firstTick := 0, words := ws }

/-- A hub in which an identity slot of an input ends, with what is known of its sensor. -/
def idHub (ch kind : Nat) (e : Sid) : State :=
  { hub .run 4000000 with sid := [(ch, e)], slow := { grp := [(chGrp ch, { idRun := some { ch := ch, start := 3900000, kind := kind } })] } }

/-- A hub with a write-back due for the sensor of channel 511. -/
def lifeHub : State :=
  (idHub 511 2 { valid := true, wbDue := true, due := 9000000, tmpl := List.replicate 256 0 }).put (F.CH_SID_CFG_LIFE_EN 511) 1

/-- A boot record of a TRIAL of slot 1 that has not been tried. -/
def cancelRec : List Byte := [0, 0, 0, 0, 0, 0, 0, 0, 1, 1, 0]

/-- A hub in whose newest boot record an activation is pending. -/
def cancelHub : State :=
  { hub .run 4000000 with
    upd := { runHdr := List.replicate 512 0, runSlot := 0 }
    nvmq := [{ why := .bootRecord, data := cancelRec }] }

/-- A hub with an enable of channel 191 due and a decimation of `d`. -/
def fltHub (d : Nat) : State :=
  ({ hub .run 4000000 with sys := { (hub .run 0).sys with fastPend := [(191, (true, 4000000))] } }).put (F.CH_FLT_DCIC_D 191) d

/-- A hub whose group 15 is enabled with a period of 2,000 ticks and channel 499 of it in effect. -/
def scanHub (g : Grp) : State :=
  (({ hub .run 4000000 with slow := { grp := [(15, g)], en := [(499, { eff := true })] } }).put (F.AFS_GRPg_CFG_EN 15) 1).put (F.AFS_GRPg_PERIOD_S 15) 2000

/-- A hub whose group 15 drives its voltage excitation without a pause. -/
def excHub : State := (((scanHub {}).put (F.AFS_GRPg_CFG_EXC_MODE 15) 0).put (F.AFS_GRPg_VEXC_MV 15) 5)

/-- A hub with one window in descriptor 255. -/
def winHub (w : Window) : State := { hub .run 4000000 with hist := { wins := [(255, w)] } }

/-- A hub with JOB memory and the regions of job 255. -/
def jobHub (r i il o ol : Nat) : State :=
  (((((hub .run 4000000).put F.HST_REGIONS_JOB r).put F.CMP_WIN_POOL_MIB 0).wr (R.CMP_JOBj_IN 255) (wd i)).wr (R.CMP_JOBj_IN_LEN 255) (wd il)).wr (R.CMP_JOBj_OUT 255) (wd o) |>.wr (R.CMP_JOBj_OUT_LEN 255) (wd ol)

/-- A hub with one datagram waiting on stream 15 of a kind. -/
def sendHub (kind : Nat) : State :=
  (({ hub .run 4000000 with net := { upNet with streams := [(15, { ring := [{ seq := 4, words := [1#32] }] })], sendq := [(0, [(15, 4)])] } }).put (F.NSP_STRm_CFG_KIND 15) kind).put (F.NSP_STRm_SPACE_UNITS 15) 1

/-- A hub at a position with its southern stack port up. -/
def stkHub (pos : Nat) : State :=
  ({ hub .run 4000000 with sys := { (hub .run 0).sys with pos := pos }, stk := { ports := [(1, { up := true })] } }).put F.STK_STAT_SIZE 2

/-- A member at position 2, joined to its troupe. -/
def joinedHub : State :=
  { hub .run 4000000 with sys := { (hub .run 0).sys with pos := 2 }, stk := { ports := [(0, { up := true })], lock := true } }

/-- A hub whose source 15 is armed with an AUTO count that is over. -/
def autoHub : State :=
  (({ hub .run 4000000 with core := { pos := 4000000, srcs := [(15, { armed := true })] } }).put (F.TRG_SRCq_CTRL_AUTO_EN 15) 1).put F.TRG_AUTO_VALUE 1

/-- A hub whose job 255 encodes an image of one empty channel. -/
def runHub : State :=
  let s := jobHub 1 0 4 4096 4
  { s with dram := Mem.write 0 [] s.jobBase (wordBytes [256#32, 0#32, 256#32, 0#32]), jobs := [(255, { state := 2 })] }

/-- A hub in LOAD whose sensors have all been checked. -/
def loadHub : State :=
  { hub .load 9 with sys := { (hub .load 9).sys with load := .running }, sid := (List.range 256).map fun i => (256 + i, { checked := true }) }

/-- A hub that has counted 16 errors in row 7 of its DRAM and used a number of repair rows. -/
def rowHub (used : Nat) : State :=
  { hub .run 4000000 with sys := { (hub .run 0).sys with eccRows := List.replicate 16 (0, 7, 3999999) }, part := { rowsUsed := used } }

/-- A hub whose core copies epoch 5, of a boundary. -/
def copyHub (t b : Nat) : State :=
  { hub .run t with red := { (hub .run 0).red with copy := some 5, bufA := [(1, { seq := 5, bound := b })], bufB := [(1, { seq := 5, bound := b })] } }

/-- A hub whose journal is full. -/
def fullHub : State := { hub .run 4000000 with red := { (hub .run 0).red with journal := List.replicate 1024 (1, .srcArm 0) } }

/-- A hub whose domain 1 is locked. -/
def lockedHub : State := { hub .run 4000000 with tim := { doms := [(1, { state := .locked })] } }

/-- What a domain with every register at its reset word hears. -/
def anAnnounce : Announce := ⟨0, 0, 0, false, 2, 3, 4, 5, 6, 7, 8⟩

/-- A forwarded datagram. -/
def aFwd : Fwd := ⟨false, 9, 8, 7, 3, 2, 1, 0, [4#32]⟩

/-- A conversion slot that its converter failed in. -/
def failedSlot : SlotRun := { input := 2, start := 3999000, len := 500, failed := true }

/-- A scan with that slot in progress. -/
def failedScan : Scan := { start := 1, todo := [3], next := 4000000, slot := some failedSlot }

/-- A hub with a packet waiting in its replay buffer. -/
def nackHub : State := { stkHub 0 with stk := { ports := [(1, { up := true, linkSeq := 6, replay := [{ words := [9#32] }] })] } }

/-- A hub with a borrowed slot in its ring that holds tick 3,999,000. -/
def borrowHub : State :=
  (({ hub .run 4000000 with
      hist := { wins := [(255, { state := 2, ready := true, first := 3999000, lastP := 3999001 })], ring := [(1000000, 3999000)] }
      stk := { poolOn := true } }).put F.HST_REGIONS_RAW 1)

/-- The first 224 bytes of a template whose static CRC is right. -/
def rightTmpl : List Byte := (0x31 :: 0x4C :: 1 :: List.replicate 155 0) ++ [0x9A, 4] ++ List.replicate 64 0

/-- Its static CRC, taken in four parts. -/
theorem rightTmpl_crc : crc16 (0x31 :: 0x4C :: 1 :: List.replicate 155 0) = 0x049A := by
  have h : (0x31 :: 0x4C :: 1 :: List.replicate 155 (0 : Byte)) =
      (0x31 :: 0x4C :: 1 :: List.replicate 37 0) ++ (List.replicate 40 0 ++ (List.replicate 40 0 ++ List.replicate 38 0)) := by decide +kernel
  rw [h, crc16, List.foldl_append, List.foldl_append, List.foldl_append,
    show List.foldl crc16Byte 0xFFFF (0x31 :: 0x4C :: 1 :: List.replicate 37 0) = 5892 by decide +kernel,
    show List.foldl crc16Byte 5892 (List.replicate 40 0) = 14360 by decide +kernel,
    show List.foldl crc16Byte 14360 (List.replicate 40 0) = 30406 by decide +kernel]
  decide +kernel

/-- The template is valid with its last page. -/
theorem rightTmpl_valid : tmplValid (rightTmpl ++ List.replicate 32 0) = true := by
  have h : (rightTmpl ++ List.replicate 32 0).take 0x9E = 0x31 :: 0x4C :: 1 :: List.replicate 155 0 := by decide +kernel
  rw [tmplValid, h, rightTmpl_crc]
  decide +kernel

/-- A hub whose job 255 decodes an image that is no image. -/
def badHub : State :=
  let s := (jobHub 1 0 4 4096 4).put (F.CMP_JOBj_CTRL_OP 255) 1
  { s with dram := Mem.write 0 [] s.jobBase (wordBytes [0#32, 0#32, 0#32, 0#32]), jobs := [(255, { state := 2 })] }

/-- A key of 32 bytes. -/
def aKey : List Byte := List.replicate 32 1

/-- A request that session 9 seals with its next counter. -/
def signed (typ : Nat) (ws : List Word) : Req :=
  { req [] with words := ws ++ [9#32, 1#32] ++
      bytesWords ((hmac256 aKey (reqHeader typ (req (ws ++ List.replicate 6 0#32)) ++ wordBytes (ws ++ [9#32, 1#32]))).take 16) }

/-- A hub with session 9 open. -/
def sealedHub (u : Upd) : State := { netHub with upd := u, net := { upNet with sessions := [{ id := 9#32, sk := aKey }] } }

/-- The same hub when the session's counter is 1. -/
def sealedAfter (u : Upd) : State :=
  { netHub with upd := u, net := { upNet with sessions := [{ id := 9#32, sk := aKey, ctr := 1, last := 4000000 }] } }

/-- A download of one chunk that has its header. -/
def chunkUpd : Upd := { lock := some 9#32, stage := 1, next := 0x200, hdr := List.replicate 0x24 0 ++ [1, 0, 0, 0] }

/-- A challenge for key slot 0. -/
def aChal : Chal := { id := 9#32, nc := List.replicate 16 2, nh := List.replicate 16 3 }

/-- A hub that awaits the response to that challenge. -/
def chalHub : State := { netHub with net := { upNet with chals := [aChal] }, part := { hk := [aKey] } }

/-- The right response to it. -/
def rightTag : List Word := bytesWords (hmac256 aKey (chalHub.authText lwa1 9#32 aChal.nc aChal.nh))

/-- The bytes of a READ of one word at address 0 over the service port. -/
def svcRead : List Byte :=
  [0x4E, 0x53, 1, 0x10, 0, 0x0F] ++ beBytes 6 5 ++ beBytes 8 0 ++ beBytes 2 8 ++ [0, 0] ++ beBytes 4 (crc32c (wordBytes [0#32, 1#32])) ++ wordBytes [0#32, 1#32]

/-- The request they carry. -/
def svcReadReq : Req := { req [0#32, 1#32] with src := 0, svc := true, port := svcPort }

/-! Well-formedness: one ill-formed term for each check. -/

theorem test_wf_refuses_supplyWarning : Instr.wf (.supplyWarning 9 0) = false := by decide

theorem test_wf_refuses_trimStart : Instr.wf (.trimStart [200] []) = false := by decide

theorem test_wf_refuses_trimStart_conv : Instr.wf (.trimStart [] [18]) = false := by decide

theorem test_wf_refuses_trimEnd : Instr.wf (.trimEnd [⟨18, List.replicate 8 (0, 0), List.replicate 8 (0, 0)⟩]) = false := by decide

theorem test_wf_refuses_trimEnd_ranges : Instr.wf (.trimEnd [⟨0, [], List.replicate 8 (0, 0)⟩]) = false := by decide

theorem test_wf_refuses_deadlineMiss : Instr.wf (.deadlineMiss (.sharedUnit (.uplink 2))) = false := by decide

theorem test_wf_refuses_deadlineMiss_job : Instr.wf (.deadlineMiss (.sharedUnit (.compression 256))) = false := by decide

theorem test_wf_refuses_deadlineMiss_block : Instr.wf (.deadlineMiss (.tmrLane 16)) = false := by decide

theorem test_wf_refuses_sliceConversion : Instr.wf (.sliceConversion []) = false := by decide

theorem test_wf_refuses_btuAutoPermit : Instr.wf (.btuAutoPermit 16) = false := by decide

theorem test_wf_refuses_nvmOperationComplete : Instr.wf (.nvmOperationComplete (.noSfdp 2)) = false := by decide

theorem test_wf_refuses_synceLoss : Instr.wf (.synceLoss 2 0) = false := by decide

theorem test_wf_refuses_sliceAbruptFailure : Instr.wf (.sliceAbruptFailure 200) = false := by decide

theorem test_wf_refuses_sliceGradualFailure : Instr.wf (.sliceGradualFailure 8 0) = false := by decide

theorem test_wf_refuses_sliceGradualFailure_input : Instr.wf (.sliceGradualFailure 0 24) = false := by decide

theorem test_wf_refuses_spareManPark : Instr.wf (.spareManPark 8 0#32) = false := by decide

theorem test_wf_refuses_ilkReadbackFail : Instr.wf (.ilkReadbackFail 16) = false := by decide

theorem test_wf_refuses_templateRead : Instr.wf (.templateRead 256 [] true) = false := by decide

theorem test_wf_refuses_excFault : Instr.wf (.excFault 0 3) = false := by decide

theorem test_wf_refuses_excFault_group : Instr.wf (.excFault 16 0) = false := by decide

theorem test_wf_refuses_excFaultEnd : Instr.wf (.excFaultEnd 16 0) = false := by decide

theorem test_wf_refuses_converterFail : Instr.wf (.converterFail 18) = false := by decide

theorem test_wf_refuses_filterSync : Instr.wf (.filterSync 19) = false := by decide

theorem test_wf_refuses_trgInEdge : Instr.wf (.trgInEdge 4 true 0) = false := by decide

theorem test_wf_refuses_trgConditionWrite : Instr.wf (.trgConditionWrite 64 0 0#32) = false := by decide

theorem test_wf_refuses_trgConditionWrite_reg : Instr.wf (.trgConditionWrite 0 4 0#32) = false := by decide

theorem test_wf_refuses_datagramSend : Instr.wf (.datagramSend 2) = false := by decide

theorem test_wf_refuses_linkUp : Instr.wf (.linkUp 2 true 0 0) = false := by decide

theorem test_wf_refuses_portLoss : Instr.wf (.portLoss 2 0) = false := by decide

theorem test_wf_refuses_linkLoopbackTest : Instr.wf (.linkLoopbackTest 2 true) = false := by decide

theorem test_wf_refuses_icmpEchoRequest : Instr.wf (.icmpEchoRequest 2 true 0 []) = false := by decide

theorem test_wf_refuses_arpNdpRequest : Instr.wf (.arpNdpRequest 2 true 0) = false := by decide

theorem test_wf_refuses_stackLinkTraining : Instr.wf (.stackLinkTraining 2 0 (0, 0) 0) = false := by decide

theorem test_wf_refuses_stackLaneSpare : Instr.wf (.stackLaneSpare 0 5) = false := by decide

theorem test_wf_refuses_stackPacketRx : Instr.wf (.stackPacketRx 2 [] .good) = false := by decide

theorem test_wf_refuses_mergeRecordsRx : Instr.wf (.mergeRecordsRx 16 0 ([], true)) = false := by decide

theorem test_wf_refuses_forwardDatagram : Instr.wf (.forwardDatagram 16 true false aFwd) = false := by decide

theorem test_wf_refuses_forwardDatagram_stream : Instr.wf (.forwardDatagram 0 true false { aFwd with stream := 16 }) = false := by decide

theorem test_wf_refuses_wvLaneOut : Instr.wf (.wvLaneOut 3 0) = false := by decide

theorem test_wf_refuses_laneEyeScan : Instr.wf (.laneEyeScan 12 0 0 0 true) = false := by decide

theorem test_wf_refuses_logSectorSpare : Instr.wf (.logSectorSpare 0 120) = false := by decide

theorem test_wf_refuses_logSectorSpare_flash : Instr.wf (.logSectorSpare 2 0) = false := by decide

theorem test_wf_refuses_registerWrite : Instr.wf (.registerWrite 2 0#32) = false := by decide

theorem test_wf_refuses_registerWrite_high : Instr.wf (.registerWrite 0xF0000 0#32) = false := by decide

theorem test_wf_refuses_stackMgmtPacket : Instr.wf (.stackMgmtPacket 0x40 { req [] with port := 5 }) = false := by decide

theorem test_wf_refuses_unknownRequest : Instr.wf (.unknownRequest 0x10 (req [])) = false := by decide

theorem test_wf_refuses_read : Instr.wf (.read { req [] with port := 5 }) = false := by decide

theorem test_wf_refuses_read_hub : Instr.wf (.read { req [] with hubId := 4096 }) = false := by decide

theorem test_wf_refuses_read_stream : Instr.wf (.read { req [] with stream := 16 }) = false := by decide

theorem test_wf_refuses_invalidDatagramRx : Instr.wf (.invalidDatagramRx (2, .frame)) = false := by decide

theorem test_wf_refuses_read_seq : Instr.wf (.read { req [] with seq := 2 ^ 48 }) = false := by decide

theorem test_wf_refuses_read_tick : Instr.wf (.read { req [] with firstTick := 2 ^ 64 }) = false := by decide

theorem test_wf_refuses_ptpMeasurement : Instr.wf (.ptpMeasurement 2 0 0 0 0 (none, true)) = false := by decide

theorem test_wf_refuses_ptpAnnounceRx : Instr.wf (.ptpAnnounceRx 2 anAnnounce) = false := by decide

theorem test_wf_refuses_pdelayReqRx : Instr.wf (.pdelayReqRx 2 0 0) = false := by decide

theorem test_wf_refuses_busOutwardFrame : Instr.wf (.busOutwardFrame none 0 4 0) = false := by decide

theorem test_wf_refuses_tdOffsetWrite : Instr.wf (.tdOffsetWrite 4 0) = false := by decide

theorem test_wf_refuses_sysWarmReset : Instr.wf (.sysWarmReset false 4) = false := by decide

theorem test_wf_refuses_nvmSectorRepair : Instr.wf (.nvmSectorRepair 2) = false := by decide

theorem test_wf_refuses_slowSlot : Instr.wf (.slowSlot 16 0 (0, 0) (0, 0)) = false := by decide

theorem test_wf_refuses_sidNoIdle : Instr.wf (.sidNoIdle 255) = false := by decide

theorem test_wf_refuses_romCheck : Instr.wf (.romCheck 255 .absent) = false := by decide

theorem test_wf_refuses_lifeWriteback : Instr.wf (.lifeWriteback 512 true) = false := by decide

theorem test_wf_refuses_asymEstComplete : Instr.wf (.asymEstComplete 2) = false := by decide

theorem test_wf_refuses_soloHoldExpiry : Instr.wf (.soloHoldExpiry 2) = false := by decide

theorem test_wf_refuses_domainLossTimeout : Instr.wf (.domainLossTimeout 2) = false := by decide

theorem test_wf_refuses_asymApply : Instr.wf (.asymApply 2) = false := by decide

theorem test_wf_refuses_stepAccept : Instr.wf (.stepAccept 2) = false := by decide

theorem test_wf_refuses_tcmpArm : Instr.wf (.tcmpArm 16) = false := by decide

theorem test_wf_refuses_tcmpDisarm : Instr.wf (.tcmpDisarm 16) = false := by decide

theorem test_wf_refuses_tcmpFire : Instr.wf (.tcmpFire 16) = false := by decide

theorem test_wf_refuses_toutStart : Instr.wf (.toutStart 4) = false := by decide

theorem test_wf_refuses_toutStop : Instr.wf (.toutStop 4) = false := by decide

theorem test_wf_refuses_sliceSubstitution : Instr.wf (.sliceSubstitution 8) = false := by decide

theorem test_wf_refuses_gradualSubstitution : Instr.wf (.gradualSubstitution 8) = false := by decide

theorem test_wf_refuses_spareFail : Instr.wf (.spareFail 8) = false := by decide

theorem test_wf_refuses_channelEnable : Instr.wf (.channelEnable 192) = false := by decide

theorem test_wf_refuses_channelDisable : Instr.wf (.channelDisable 192) = false := by decide

theorem test_wf_refuses_channelEnableEffect : Instr.wf (.channelEnableEffect 192) = false := by decide

theorem test_wf_refuses_channelDisableEffect : Instr.wf (.channelDisableEffect 192) = false := by decide

theorem test_wf_refuses_groupEnable : Instr.wf (.groupEnable 16) = false := by decide

theorem test_wf_refuses_scanStart : Instr.wf (.scanStart 16) = false := by decide

theorem test_wf_refuses_slowSampleRelease : Instr.wf (.slowSampleRelease 16) = false := by decide

theorem test_wf_refuses_slowChannelEnable : Instr.wf (.slowChannelEnable 512) = false := by decide

theorem test_wf_refuses_slowChannelDisable : Instr.wf (.slowChannelDisable 512) = false := by decide

theorem test_wf_refuses_converterTakeover : Instr.wf (.converterTakeover 16) = false := by decide

theorem test_wf_refuses_trgSourceArm : Instr.wf (.trgSourceArm 16 0) = false := by decide

theorem test_wf_refuses_trgSourceDisarm : Instr.wf (.trgSourceDisarm 16 0) = false := by decide

theorem test_wf_refuses_triggerAutoFire : Instr.wf (.triggerAutoFire 16) = false := by decide

theorem test_wf_refuses_windowClose : Instr.wf (.windowClose 256) = false := by decide

theorem test_wf_refuses_windowRead : Instr.wf (.windowRead 256) = false := by decide

theorem test_wf_refuses_windowReadout : Instr.wf (.windowReadout 256) = false := by decide

theorem test_wf_refuses_windowCancel : Instr.wf (.windowCancel 256) = false := by decide

theorem test_wf_refuses_windowRelease : Instr.wf (.windowRelease 256) = false := by decide

theorem test_wf_refuses_cmpJobStart : Instr.wf (.cmpJobStart 256) = false := by decide

theorem test_wf_refuses_cmpJobAbort : Instr.wf (.cmpJobAbort 256) = false := by decide

theorem test_wf_refuses_cmpJobRun : Instr.wf (.cmpJobRun 256) = false := by decide

theorem test_wf_refuses_cmpJobEnd : Instr.wf (.cmpJobEnd 256) = false := by decide

theorem test_wf_refuses_cmpParityError : Instr.wf (.cmpParityError 256) = false := by decide

theorem test_wf_refuses_datagramClose : Instr.wf (.datagramClose 16) = false := by decide

theorem test_wf_refuses_overwriteReport : Instr.wf (.overwriteReport 16) = false := by decide

theorem test_wf_refuses_linkRetry : Instr.wf (.linkRetry 2) = false := by decide

theorem test_wf_refuses_write : Instr.wf (.write { req [] with port := 5 }) = false := by decide

theorem test_wf_refuses_blockRead : Instr.wf (.blockRead { req [] with port := 5 }) = false := by decide

theorem test_wf_refuses_authChallenge : Instr.wf (.authChallenge { req [] with port := 5 }) = false := by decide

theorem test_wf_refuses_authResponse : Instr.wf (.authResponse { req [] with port := 5 }) = false := by decide

theorem test_wf_refuses_trigger : Instr.wf (.trigger { req [] with port := 5 }) = false := by decide

theorem test_wf_refuses_sync : Instr.wf (.sync { req [] with port := 5 }) = false := by decide

theorem test_wf_refuses_nack : Instr.wf (.nack { req [] with port := 5 }) = false := by decide

theorem test_wf_refuses_ack : Instr.wf (.ack { req [] with port := 5 }) = false := by decide

theorem test_wf_refuses_mergeDrop : Instr.wf (.mergeDrop 16) = false := by decide

theorem test_wf_refuses_fieldZeroClear : Instr.wf (.fieldZeroClear 192) = false := by decide

theorem test_wf_refuses_updateBegin : Instr.wf (.updateBegin { req [] with port := 5 }) = false := by decide

theorem test_wf_refuses_updateChunk : Instr.wf (.updateChunk { req [] with port := 5 }) = false := by decide

theorem test_wf_refuses_updateEnd : Instr.wf (.updateEnd { req [] with port := 5 }) = false := by decide

theorem test_wf_refuses_logRead : Instr.wf (.logRead { req [] with port := 5 }) = false := by decide

theorem test_wf_refuses_logClear : Instr.wf (.logClear { req [] with port := 5 }) = false := by decide

theorem test_wf_refuses_stackLinkLoss : Instr.wf (.stackLinkLoss 2) = false := by decide

theorem test_wf_refuses_macQueueParityError : Instr.wf (.macQueueParityError 2) = false := by decide

theorem test_wf_refuses_groupDisable : Instr.wf (.groupDisable 16) = false := by decide

theorem test_wf_accepts_service_read : Instr.wf (.read svcReadReq) = true := by decide

theorem test_wf_accepts_last_channels : Instr.wf (.channelEnable 191) = true ∧ Instr.wf (.romCheck 511 .absent) = true := by decide

/-! Single steps and figures of the spec. -/

/-- The table gives no bits to any command. -/
theorem test_table_spells_no_command : decodeTableWord 8 0 = none ∧ decodeTableWord 32 0xFFFFFFFF = none := by decide

/-- R94: c = -1 in range 3. -/
theorem test_raw20_layout : raw20 0x3FFFF#18 3 = 0xFFFFF#20 := by decide

/-- R256: the check value of the nine digits. -/
theorem test_block_crc_check_value : crc16 [0x31, 0x32, 0x33, 0x34, 0x35, 0x36, 0x37, 0x38, 0x39] = 0x29B1 := by decide +kernel

/-- SHA-256 of no bytes begins E3 B0 C4 42 (FIPS 180-4). -/
theorem test_sha256_of_nothing : (sha256 []).take 4 = [0xE3, 0xB0, 0xC4, 0x42] := by decide +kernel

/-- SHA-384 of no bytes begins 38 B0 60 A7 (FIPS 180-4). -/
theorem test_sha384_of_nothing : (sha384 []).take 4 = [0x38, 0xB0, 0x60, 0xA7] := by decide +kernel

/-- The queue is first in, first out. -/
theorem test_step_takes_the_front :
    (match step { hub .run 4000000 with pending := [.svcStatus, .svcClear] } with | .next t => t.pending | _ => []) = [.svcClear] := by
  decide +kernel

/-- An empty queue lets one tick pass. -/
theorem test_idle_advances_one_tick :
    (match step (hub .run 4000000) with | .next t => t.tick | _ => 0) = 4000001 := by decide +kernel

/-- R46: with no image LOAD ends in DORMANT. -/
theorem test_load_without_image_is_dormant :
    (match exec .loadEnd { hub .load 9 with sys := { (hub .load 9).sys with load := .noImage } } with | .next t => t.sys.mode | _ => .load) = .dormant := by
  decide +kernel

/-- R434: an asymmetry beyond 1 µs is an unchecked case. -/
theorem test_asymmetry_beyond_one_microsecond :
    (match exec (.asymApply 1) (((hub .run 4000000).put (F.TIM_TDd_STAT_EST_VALID 1) 1).wr (R.TIM_TDd_ASYM_EST 1) 65536001#32) with
      | .fault f => some f | _ => none) = some (.uncheckedCase 7) := by decide +kernel

/-- R300: a request that is too short sets ERROR. -/
theorem test_short_service_request_is_an_error :
    (match exec (.svcRequest [1, 2]) (hub .run 4000000) with | .next t => t.net.svcState | _ => 0) = 3 := by decide +kernel

/-- R292: a READ of SYS_MODE answers the mode's value. -/
theorem test_read_answers_the_mode :
    (match exec (.read (req [wd R.SYS_MODE, 1#32])) netHub with | .next t => (t.net.out.head?.map (·.words)).getD [] | _ => []) = [0#32, 3#32] := by
  decide +kernel

/-! A witness for each clause with hypotheses. -/

theorem witness_StepRunsTheFrontCommand_0 :
    ∃ (c : Instr) (rest : List Instr) (s : State), s.pending = c :: rest :=
  ⟨.svcClear, [.svcStatus], { pending := [.svcClear, .svcStatus] }, by decide +kernel⟩

theorem witness_EmptyQueueLetsATickPass_0 :
    ∃ (s : State), s.pending = [] ∧ s.sys.porst = true ∧ s.sys.relHeld = false :=
  ⟨State.reset, by and_intros <;> decide +kernel⟩

theorem witness_EmptyQueueLetsATickPass_1 :
    ∃ (s : State), s.pending = [] ∧ s.sys.porst = false :=
  ⟨hub .run 4000000, by and_intros <;> decide +kernel⟩

theorem witness_CommandsLeaveQueueAndTick_0 :
    ∃ (c : Instr) (s : State) (t : State), exec c s = .next t :=
  ⟨.warmResetExecute, State.reset, State.reset, rfl⟩

theorem witness_CommandsLeaveQueueAndTick_1 :
    ∃ (c : Instr) (s : State) (t : State), exec c s = .next t ∧ s.sys.mode ≠ .load ∧ t.sys.mode ≠ .load :=
  ⟨.warmResetExecute, hub .run 4000000, hub .run 4000000, rfl, by and_intros <;> decide +kernel⟩

theorem witness_StepKeepsTheCanonicalForm_0 :
    ∃ (s : State) (t : State), s.canonical ∧ step s = .next t :=
  ⟨State.reset, State.reset, ⟨by decide, by decide, by decide, by decide, by decide, by decide⟩, rfl⟩

theorem witness_PartLossesLastForLife_0 :
    ∃ (s : State) (t : State), step s = .next t :=
  ⟨State.reset, State.reset, rfl⟩

theorem witness_ModeChangesOnlyAsListed_0 :
    ∃ (s : State) (t : State), step s = .next t :=
  ⟨State.reset, State.reset, rfl⟩

theorem witness_FaultsAreUncheckedCases_0 :
    ∃ (c : Instr) (s : State), s.sys.unchecked = none :=
  ⟨.svcClear, State.reset, by decide +kernel⟩

theorem witness_RegistersAndMemoriesReadAsWritten_0 :
    ∃ (s : State) (f : Fld) (g : Fld) (v : Nat), f.lo + f.len ≤ 32 :=
  ⟨State.reset, ⟨0, 4, 8⟩, ⟨0, 12, 4⟩, 5, by decide +kernel⟩

theorem witness_ColdResetsBeginLoad_1 :
    ∃ (pos : BitVec 4) (adr : BitVec 2) (s : State), s.sys.porst = true ∧ s.sys.relHeld = false ∧ s.suppliesStand = true ∧ s.nvmq = [] ∧ s.bootChoice = none :=
  ⟨3, 1, State.reset, by and_intros <;> decide +kernel⟩

theorem witness_ColdResetsBeginLoad_2 :
    ∃ (pos : BitVec 4) (adr : BitVec 2) (s : State), s.sys.porst = true ∧ s.sys.relHeld = false ∧ s.suppliesStand = false :=
  ⟨3, 1, { State.reset with pwr := { okTicks := 19999, low := [8] } }, by and_intros <;> decide +kernel⟩

theorem witness_ColdResetsBeginLoad_3 :
    ∃ (rows : BitVec 8) (s : State), s.sys.porst = false ∧ s.nvmq = [] ∧ s.bootChoice = none :=
  ⟨1, hub .run 4000000, by and_intros <;> decide +kernel⟩

theorem witness_LoadEnds_0 :
    ∃ (s : State), s.sys.porst = false ∧ s.sys.mode = .load ∧ s.sys.load = .noImage :=
  ⟨{ hub .load 9 with sys := { (hub .load 9).sys with load := .noImage } }, by and_intros <;> decide +kernel⟩

theorem witness_LoadEnds_1 :
    ∃ (s : State), s.sys.porst = false ∧ s.sys.mode = .load ∧ s.sys.load = .running ∧ s.idLoaded = true ∧ s.get F.UPD_LOAD_WAIT = 0 :=
  ⟨loadHub, by and_intros <;> decide +kernel⟩

theorem witness_LoadEnds_2 :
    ∃ (s : State), s.sys.porst = false ∧ s.sys.mode = .load ∧ s.sys.load = .running ∧ s.idLoaded = true ∧ 0 < s.get F.UPD_LOAD_WAIT ∧ s.qualified 0 = false ∧ s.qualified 1 = false :=
  ⟨loadHub.put F.UPD_LOAD_WAIT 3, by and_intros <;> decide +kernel⟩

theorem witness_LoadEnds_3 :
    ∃ (s : State), s.sys.mode = .load ∧ s.sys.load = .waitingLock ∧ (s.qualified 0 = true ∨ s.qualified 1 = true ∨ s.sys.waitFrom + s.get F.UPD_LOAD_WAIT * 2000000 ≤ s.tick) :=
  ⟨{ hub .load 9000000 with sys := { (hub .load 9).sys with load := .waitingLock, waitFrom := 5 } }, by and_intros <;> decide +kernel⟩

theorem witness_WarmResetKeepsDramAndTime_0 :
    ∃ (svc : Bool) (key : Nat) (s : State), s.sys.porst = false ∧ s.sys.mode ≠ .load ∧ s.sys.resetAt = none ∧ s.logRoom 3 :=
  ⟨false, 1, hub .run 4000000, by and_intros <;> decide +kernel⟩

theorem witness_WarmResetKeepsDramAndTime_1 :
    ∃ (s : State), s.resetDue false = true ∧ s.nvmq = [] ∧ s.bootChoice = none :=
  ⟨{ hub .run 4000000 with sys := { (hub .run 0).sys with resetAt := some 3999999 } }, by and_intros <;> decide +kernel⟩

theorem witness_WarmResetKeepsDramAndTime_2 :
    ∃ (s : State), s.resetDue true = true ∧ s.nvmq = [] ∧ s.bootChoice = none :=
  ⟨{ hub .dormant 4000000 with sys := { (hub .dormant 0).sys with resetAt := some 4000000, updReset := true } }, by and_intros <;> decide +kernel⟩

theorem witness_WarmResetKeepsDramAndTime_3 :
    ∃ (T : Nat) (s : State), s.sys.resetAt = some T ∧ s.tick < T :=
  ⟨4000001, { hub .run 4000000 with sys := { (hub .run 4000000).sys with resetAt := some 4000001 } }, by and_intros <;> decide +kernel⟩

theorem witness_TrimAndReturnToRun_0 :
    ∃ (s : State), s.sys.porst = false ∧ s.running = true ∧ s.sys.trimPend = none :=
  ⟨hub .run 4000000, by and_intros <;> decide +kernel⟩

theorem witness_TrimAndReturnToRun_1 :
    ∃ (s : State), s.sys.porst = false ∧ s.running = true ∧ s.sys.trimPend.isSome = true :=
  ⟨{ hub .limp 4000000 with sys := { (hub .limp 0).sys with trimPend := some 3999999 } }, by and_intros <;> decide +kernel⟩

theorem witness_TrimAndReturnToRun_2 :
    ∃ (c : Nat) (s : State), s.running = true ∧ s.tick % 2000 = 0 ∧ s.bumping = false ∧ s.sys.trimPend = some c ∧ c < s.tick ∧ s.sys.unchecked = none :=
  ⟨3999999, { hub .run 4000000 with sys := { (hub .run 0).sys with trimPend := some 3999999 } }, by and_intros <;> decide +kernel⟩

theorem witness_TrimAndReturnToRun_3 :
    ∃ (codes : List ConvCodes) (f : Nat) (s : State), s.sys.mode = .trim ∧ s.cal.trimStart = some f ∧ f + 364000 ≤ s.tick ∧ s.tick % 2000 = 0 :=
  ⟨[⟨18, [], []⟩], 4000000, { hub .trim 4364000 with cal := { trimStart := some 4000000 } }, by and_intros <;> decide +kernel⟩

theorem witness_TrimAndReturnToRun_4 :
    ∃ (e : Nat) (s : State), s.sys.limpEnd = some e ∧ e < s.tick ∧ s.sys.mode = .limp ∧ s.limpBits = 0 ∧ s.tick % 2000 = 0 ∧ s.trimDue = false ∧ s.logRoom 4 :=
  ⟨3999999, { hub .limp 4000000 with sys := { (hub .limp 0).sys with limpEnd := some 3999999 } }, by and_intros <;> decide +kernel⟩

theorem witness_SuppliesBraceAndShutDown_0 :
    ∃ (row : Nat) (mV : Nat) (s : State), row < 9 ∧ s.sys.porst = false ∧ s.belowWarning row mV = true ∧ s.belowReset row mV = false ∧ (s.pwr.bracing = none ∨ s.bracingNow = true) :=
  ⟨8, 712, hub .run 4000000, by and_intros <;> decide +kernel⟩

theorem witness_SuppliesBraceAndShutDown_1 :
    ∃ (row : Nat) (mV : Nat) (s : State), row < 9 ∧ s.sys.porst = false ∧ s.belowWarning row mV = false ∧ s.belowResume row mV = true ∧ s.bracingNow = true :=
  ⟨8, 719, { hub .run 4000000 with pwr := { bracing := some 3999000, lastLow := 3999990 } }, by and_intros <;> decide +kernel⟩

theorem witness_SuppliesBraceAndShutDown_2 :
    ∃ (row : Nat) (mV : Nat) (s : State), row < 7 ∧ s.sys.porst = false ∧ s.belowReset row mV = true ∧ s.nvmq = [] ∧ s.bootChoice = none :=
  ⟨6, 1637, hub .run 4000000, by and_intros <;> decide +kernel⟩

theorem witness_SuppliesBraceAndShutDown_3 :
    ∃ (mV : Nat) (s : State), s.sys.porst = false ∧ s.belowReset 7 mV = true :=
  ⟨682, hub .run 4000000, by and_intros <;> decide +kernel⟩

theorem witness_SuppliesBraceAndShutDown_4 :
    ∃ (mV : Nat) (s : State), s.sys.porst = false ∧ s.belowReset 8 mV = true :=
  ⟨682, hub .run 4000000, by and_intros <;> decide +kernel⟩

theorem witness_SuppliesBraceAndShutDown_5 :
    ∃ (b : Nat) (s : State), s.pwr.bracing = some b ∧ s.pwr.lastLow + 64 ≤ s.tick :=
  ⟨3999000, { hub .run 4000000 with pwr := { bracing := some 3999000, lastLow := 3999936 } }, by and_intros <;> decide +kernel⟩

theorem witness_SuppliesBraceAndShutDown_6 :
    ∃ (s : State), s.served = true :=
  ⟨hub .run 4000000, by decide +kernel⟩

theorem witness_SuppliesBraceAndShutDown_7 :
    ∃ (b : Nat) (s : State), s.sys.shut = some b ∧ s.wbPending = 0 ∧ s.logSettled = true ∧ s.logRoom 2 :=
  ⟨3999999, { hub .run 4000000 with sys := { (hub .run 0).sys with shut := some 3999999 } }, by and_intros <;> decide +kernel⟩

theorem witness_SuppliesBraceAndShutDown_8 :
    ∃ (b : Nat) (s : State), s.sys.shut = some b ∧ b + 240000000 ≤ s.tick :=
  ⟨4000000, { hub .run 244000000 with sys := { (hub .run 0).sys with shut := some 4000000 } }, by and_intros <;> decide +kernel⟩

theorem witness_HousekeepingIsRecorded_0 :
    ∃ (s : State), s.sys.porst = false ∧ s.sys.steward = true :=
  ⟨hub .run 4000000, by and_intros <;> decide +kernel⟩

theorem witness_HousekeepingIsRecorded_1 :
    ∃ (s : State), s.sys.porst = false ∧ s.sys.restarts ≠ [] ∧ s.sys.steward = false :=
  ⟨{ hub .run 4000000 with sys := { (hub .run 0).sys with restarts := [3999999], steward := false } }, by and_intros <;> decide +kernel⟩

theorem witness_HousekeepingIsRecorded_2 :
    ∃ (tj : Int) (sensor : Nat) (s : State), s.sys.porst = false :=
  ⟨1051, 3, hub .run 4000000, by decide +kernel⟩

theorem witness_HousekeepingIsRecorded_3 :
    ∃ (tj : Int) (sensor : Nat) (f : Nat) (s : State), s.sys.porst = false ∧ 1050 < tj ∧ s.pwr.hotFrom = some f ∧ f + 2000000 ≤ s.tick ∧ s.pwr.hotNoted = false ∧ s.logRoom 3 :=
  ⟨1051, 3, 2000000, { hub .run 4000000 with pwr := { hotFrom := some 2000000 } }, by and_intros <;> decide +kernel⟩

theorem witness_HousekeepingIsRecorded_4 :
    ∃ (temp : Int) (s : State), s.sys.porst = false :=
  ⟨94, hub .run 4000000, by decide +kernel⟩

theorem witness_HousekeepingIsRecorded_5 :
    ∃ (row : Nat) (s : State), s.sys.porst = false ∧ s.rowDue = some row ∧ s.part.rowsUsed < 63 :=
  ⟨7, rowHub 62, by and_intros <;> decide +kernel⟩

theorem witness_HousekeepingIsRecorded_6 :
    ∃ (row : Nat) (s : State), s.sys.porst = false ∧ s.rowDue = some row ∧ s.part.rowsUsed < 64 :=
  ⟨7, rowHub 63, by and_intros <;> decide +kernel⟩

theorem witness_HousekeepingIsRecorded_7 :
    ∃ (mem : Nat) (adr : Word) (s : State), s.sys.porst = false ∧ mem ≠ 1 ∧ mem ≠ 2 ∧ s.logRoom 3 :=
  ⟨3, 0, hub .run 4000000, by and_intros <;> decide +kernel⟩

theorem witness_HousekeepingIsRecorded_8 :
    ∃ (mem : Nat) (adr : Word) (s : State), s.sys.porst = false ∧ (mem = 1 ∨ mem = 2) :=
  ⟨2, 7, hub .run 4000000, by and_intros <;> decide +kernel⟩

theorem witness_EpochsAreCopiedAndCommitted_0 :
    ∃ (c : CoreId) (s : State), s.red.active = some c ∧ s.role c = .active ∧ s.tick % 250 = 0 ∧ s.red.bump = none ∧ s.red.copy = none ∧ (s.running = true ∨ s.sys.mode = .trim) :=
  ⟨.a, hub .run 4000250, by and_intros <;> decide +kernel⟩

theorem witness_EpochsAreCopiedAndCommitted_1 :
    ∃ (q : Nat) (c : CoreId) (s : State), s.red.copy = some q ∧ s.red.active = some c ∧ s.red.drill = none ∧ s.sys.unchecked = none ∧ s.tick ≤ s.copyBound c q + 249 :=
  ⟨5, .a, copyHub 4000249 4000000, by and_intros <;> decide +kernel⟩

theorem witness_EpochsAreCopiedAndCommitted_2 :
    ∃ (q : Nat) (c : CoreId) (s : State), s.red.copy = some q ∧ s.red.active = some c ∧ s.role c = .active ∧ s.sys.porst = false ∧ s.copyBound c q + 249 < s.tick :=
  ⟨5, .a, copyHub 4000250 4000000, by and_intros <;> decide +kernel⟩

theorem witness_EpochsAreCopiedAndCommitted_3 :
    ∃ (q : Nat) (c : CoreId) (s : State), s.red.copy = some q ∧ s.red.active = some c ∧ s.role c = .active ∧ s.sys.porst = false ∧ s.tick % 250 = 0 ∧ s.red.bump = none ∧ (s.running = true ∨ s.sys.mode = .trim) :=
  ⟨5, .a, copyHub 4000250 4000000, by and_intros <;> decide +kernel⟩

theorem witness_FailureHandsOverToTheStandby_0 :
    ∃ (cause : CoreCause) (c : CoreId) (e : EpochBuf) (s : State), (s.running = true ∨ s.sys.mode = .trim) ∧ s.red.active = some c ∧ s.role c = .active ∧ s.sys.porst = false ∧ s.role (coreOther c) = .standby ∧ s.newestEpoch (coreOther c) = some e ∧ s.sys.unchecked = none :=
  ⟨.lockstep, .a, { seq := 1, bound := 3999750, marker := epochMark 1, body := { pos := 3999750 } }, { hub .run 4000000 with red := { (hub .run 0).red with bufB := [(1, { seq := 1, bound := 3999750, marker := epochMark 1, body := { pos := 3999750 } })] } }, by and_intros <;> decide +kernel⟩

theorem witness_FailureHandsOverToTheStandby_1 :
    ∃ (cause : CoreCause) (c : CoreId) (s : State), cause ≠ .heartbeat ∧ (s.running = true ∨ s.sys.mode = .trim) ∧ s.red.active = some c ∧ s.role c = .active ∧ s.sys.porst = false ∧ (s.role (coreOther c) = .bist ∨ s.role (coreOther c) = .proving ∨ s.role (coreOther c) = .retired) ∧ s.sys.unchecked = none :=
  ⟨.supply, .a, { hub .run 4000000 with red := { (hub .run 0).red with roleB := .bist } }, by and_intros <;> decide +kernel⟩

theorem witness_FailureHandsOverToTheStandby_2 :
    ∃ (b : Bump) (c : CoreId) (s : State), s.red.bump = some b ∧ s.red.active = some c ∧ s.role c = .catchup ∧ s.red.drill = none ∧ b.nocore = false ∧ b.catchUp ≤ s.tick ∧ s.sys.unchecked = none ∧ (∀ n ch, (s.coefAt n).polyBad ch = false) :=
  ⟨{ f := 3999900, d := 3999901, bstar := 3999750 }, .b, { hub .run 4000293 with core := { pos := 4000293 }, red := { (hub .run 0).red with active := some .b, roleB := .catchup, roleA := .bist, bump := some { f := 3999900, d := 3999901, bstar := 3999750 } } }, by decide +kernel, by decide +kernel, by decide +kernel, by decide +kernel, by decide +kernel, by decide +kernel, by decide +kernel, fun _ _ => rfl⟩

theorem witness_StandbyFaultsDoNotSwitch_0 :
    ∃ (core : CoreId) (cause : CoreCause) (s : State), s.running = true ∧ s.red.active = some (coreOther core) ∧ s.role core = .standby ∧ s.sys.porst = false ∧ cause ≠ .lockstep ∧ s.sys.unchecked = none :=
  ⟨.b, .deadline, hub .run 4000000, by and_intros <;> decide +kernel⟩

theorem witness_StandbyFaultsDoNotSwitch_1 :
    ∃ (core : CoreId) (s : State), s.running = true ∧ s.red.active = some (coreOther core) ∧ s.role core = .standby ∧ s.sys.porst = false ∧ s.sys.unchecked = none :=
  ⟨.b, hub .run 4000000, by and_intros <;> decide +kernel⟩

theorem witness_StandbyFaultsDoNotSwitch_2 :
    ∃ (core : CoreId) (status : BitVec 16) (s : State), s.running = true ∧ s.red.active = some (coreOther core) ∧ s.role core = .standby ∧ s.sys.porst = false ∧ s.sys.unchecked = none :=
  ⟨.b, 5, hub .run 4000000, by and_intros <;> decide +kernel⟩

theorem witness_StandbyFaultsDoNotSwitch_3 :
    ∃ (core : CoreId) (s : State), s.red.active = some core :=
  ⟨.a, hub .run 4000000, by decide +kernel⟩

theorem witness_StandbyFaultsDoNotSwitch_4 :
    ∃ (c : Instr) (s : State) (t : State), ((∃ m a, c = .eccCorrectableError m a) ∨ (∃ g, c = .dramRowRepair g) ∨ (∃ j, c = .cmpParityError j) ∨ (∃ p, c = .macQueueParityError p) ∨ (∃ p k, c = .portLoss p k) ∨ (∃ p b, c = .linkLoopbackTest p b) ∨ (∃ p l, c = .stackLaneSpare p l) ∨ c = .stewardWatchdogExpiry ∨ c = .logMediumFail ∨ (∃ f k, c = .logSectorSpare f k) ∨ (∃ b, c = .nvmOperationComplete b) ∨ (∃ x, c = .deadlineMiss (.sharedUnit x)) ∨ c = .poolLost ∨ c = .clockBusLoss) ∧ exec c s = .next t :=
  ⟨.poolLost, hub .run 4000000, hub .run 4000000, by simp, rfl⟩

theorem witness_DeadlinesAndVoltagesAreWatched_0 :
    ∃ (block : Nat) (s : State), s.sys.porst = false ∧ s.logRoom 1 :=
  ⟨9, hub .run 4000000, by and_intros <;> decide +kernel⟩

theorem witness_DeadlinesAndVoltagesAreWatched_1 :
    ∃ (block : Nat) (s : State), s.sys.porst = false :=
  ⟨9, hub .run 4000000, by decide +kernel⟩

theorem witness_DeadlinesAndVoltagesAreWatched_2 :
    ∃ (x : Nat) (s : State), s.sys.porst = false ∧ x < 2 :=
  ⟨1, hub .run 4000000, by and_intros <;> decide +kernel⟩

theorem witness_DeadlinesAndVoltagesAreWatched_3 :
    ∃ (s : State), s.sys.porst = false :=
  ⟨hub .run 4000000, by decide +kernel⟩

theorem witness_DeadlinesAndVoltagesAreWatched_4 :
    ∃ (k : Nat) (s : State), s.sys.porst = false :=
  ⟨7, hub .run 4000000, by decide +kernel⟩

theorem witness_DeadlinesAndVoltagesAreWatched_5 :
    ∃ (c : CoreId) (s : State), s.sys.porst = false ∧ s.red.active = some c ∧ s.role c = .active :=
  ⟨.a, hub .run 4000000, by and_intros <;> decide +kernel⟩

theorem witness_DeadlinesAndVoltagesAreWatched_6 :
    ∃ (c : CoreId) (s : State), s.sys.porst = false ∧ s.red.active = some c ∧ s.role c = .active ∧ s.role (coreOther c) ≠ .active :=
  ⟨.a, hub .run 4000000, by and_intros <;> decide +kernel⟩

theorem witness_DeadlinesAndVoltagesAreWatched_7 :
    ∃ (core : CoreId) (s : State), s.sys.porst = false :=
  ⟨.a, { hub .run 4000000 with pwr := { avsA := 898 } }, by decide +kernel⟩

theorem witness_DeadlinesAndVoltagesAreWatched_8 :
    ∃ (core : CoreId) (s : State), s.sys.porst = false ∧ s.pwr.bracing = none ∧ (match core with | .a => s.pwr.downA | .b => s.pwr.downB) ≠ some (s.tick / 2000) :=
  ⟨.b, { hub .run 4000000 with pwr := { avsB := 703, downB := some 1999 } }, by and_intros <;> decide +kernel⟩

theorem witness_DeadlinesAndVoltagesAreWatched_9 :
    ∃ (core : CoreId) (s : State), s.sys.porst = false ∧ s.avs core = 900 ∧ s.red.active = some core ∧ s.role (coreOther core) = .standby ∧ s.logRoom 3 :=
  ⟨.a, { hub .run 4000000 with pwr := { avsA := 900 } }, by and_intros <;> decide +kernel⟩

theorem witness_DeadlinesAndVoltagesAreWatched_10 :
    ∃ (core : CoreId) (s : State), s.sys.porst = false ∧ s.avs core = 900 ∧ s.red.active = some core ∧ s.role (coreOther core) ≠ .standby :=
  ⟨.a, { hub .run 4000000 with pwr := { avsA := 900 }, red := { (hub .run 0).red with roleB := .bist } }, by and_intros <;> decide +kernel⟩

theorem witness_CoresReturnToService_0 :
    ∃ (core : CoreId) (s : State), s.role core = .bist ∧ s.sys.mode ≠ .load ∧ s.red.active.isSome = true :=
  ⟨.b, { hub .run 4000000 with red := { (hub .run 0).red with roleB := .bist } }, by and_intros <;> decide +kernel⟩

theorem witness_CoresReturnToService_1 :
    ∃ (core : CoreId) (v : Nat) (s : State), s.role core = .bist ∧ s.sys.mode ≠ .load :=
  ⟨.b, 2, { hub .run 4000000 with red := { (hub .run 0).red with roleB := .bist } }, by and_intros <;> decide +kernel⟩

theorem witness_CoresReturnToService_2 :
    ∃ (core : CoreId) (s : State), s.role core = .bist ∧ s.sys.mode = .load ∧ s.primary = core ∧ s.get (F.RED_COREx_STAT_CAUSE (coreNum core)) = 0 ∧ s.red.active = none :=
  ⟨.a, { hub .load 9 with red := {} }, by and_intros <;> decide +kernel⟩

theorem witness_CoresReturnToService_3 :
    ∃ (core : CoreId) (s : State), s.role core = .bist ∧ s.sys.mode = .load ∧ s.get (F.RED_COREx_STAT_CAUSE (coreNum core)) ≠ 0 ∧ s.red.noCoreAt = none :=
  ⟨.a, ({ hub .load 9 with red := {} }).put (F.RED_COREx_STAT_CAUSE 0) 5, by and_intros <;> decide +kernel⟩

theorem witness_CoresReturnToService_4 :
    ∃ (core : CoreId) (s : State), s.role core = .proving ∧ s.roleSince core + s.holdoff ≤ s.tick :=
  ⟨.b, { hub .run 40000000000 with red := { (hub .run 0).red with roleB := .proving, sinceB := 1 } }, by and_intros <;> decide +kernel⟩

theorem witness_CoresReturnToService_5 :
    ∃ (core : CoreId) (s : State), s.served = true ∧ (s.role core = .standby ∨ s.role core = .proving) ∧ s.role (coreOther core) ≠ .standby ∧ s.role (coreOther core) ≠ .proving :=
  ⟨.b, hub .run 4000000, by and_intros <;> decide +kernel⟩

theorem witness_CoresReturnToService_6 :
    ∃ (s : State), s.served = true ∧ (∀ k, s.role k ≠ .standby ∧ s.role k ≠ .proving) :=
  ⟨{ hub .run 4000000 with red := { (hub .run 0).red with roleB := .bist } }, by decide +kernel, fun k => by cases k <;> decide⟩

theorem witness_PlannedSwapsWaitForTheBoundary_0 :
    ∃ (u : Nat) (s : State), s.red.revertAt = some u ∧ u ≤ s.tick ∧ s.swapReady = true ∧ s.red.active = some (coreOther s.primary) ∧ s.on F.RED_CFG_REVERT_EN = true ∧ s.logRoom 2 :=
  ⟨4000000, ({ hub .run 4000000 with red := { (hub .run 0).red with roleA := .standby, roleB := .active, active := some .b, revertAt := some 4000000 } }).put F.RED_CFG_REVERT_EN 1, by and_intros <;> decide +kernel⟩

theorem witness_PlannedSwapsWaitForTheBoundary_1 :
    ∃ (core : CoreId) (s : State), s.served = true ∧ s.role core = .standby ∧ s.red.bump = none :=
  ⟨.b, hub .run 4000000, by and_intros <;> decide +kernel⟩

theorem witness_PlannedSwapsWaitForTheBoundary_2 :
    ∃ (s : State), s.served = true ∧ (s.red.bump.isSome = true ∨ (s.role .a ≠ .standby ∧ s.role .b ≠ .standby)) :=
  ⟨{ hub .run 4000000 with red := { (hub .run 0).red with roleB := .bist } }, by and_intros <;> decide +kernel⟩

theorem witness_PlannedSwapsWaitForTheBoundary_3 :
    ∃ (u : Nat) (s : State), s.red.drillFrom = some u ∧ s.on F.RED_DRILL_CFG_EN = true ∧ u + s.get F.RED_DRILL_CFG_PERIOD * 7200000000 ≤ s.tick :=
  ⟨0, ({ hub .run 7200000000 with red := { (hub .run 0).red with drillFrom := some 0 } }).put F.RED_DRILL_CFG_EN 1 |>.put F.RED_DRILL_CFG_PERIOD 1, by and_intros <;> decide +kernel⟩

theorem witness_PlannedSwapsWaitForTheBoundary_4 :
    ∃ (u : Nat) (s : State), s.tick % 250 = 0 ∧ s.running = true ∧ s.red.swapReq = some u ∧ u < s.tick ∧ s.swapReady = true :=
  ⟨3999999, { hub .run 4000000 with red := { (hub .run 0).red with swapReq := some 3999999 } }, by and_intros <;> decide +kernel⟩

theorem witness_PlannedSwapsWaitForTheBoundary_5 :
    ∃ (s : State), s.tick % 250 ≠ 0 :=
  ⟨hub .run 4000001, by decide +kernel⟩

theorem witness_PlannedSwapsWaitForTheBoundary_6 :
    ∃ (d : Drill) (c : CoreId) (u : Nat) (s : State), s.red.drill = some d ∧ s.red.active = some c ∧ d.since = some u ∧ u + 250 ≤ s.tick ∧ s.red.seq ≠ d.seqAt ∧ s.red.copy = none ∧ s.role (coreOther c) = .shadow ∧ s.red.avsOut = [] ∧ s.logRoom 4 :=
  ⟨{ bound := 3999000, since := some 3999100 }, .b, 3999100, { hub .run 4000000 with red := { (hub .run 0).red with roleA := .shadow, roleB := .active, active := some .b, seq := 7, drill := some { bound := 3999000, since := some 3999100 } } }, by and_intros <;> decide +kernel⟩

theorem witness_MajorityLossHolds_0 :
    ∃ (lane : Nat) (cause : Nat) (s : State), lane < 3 ∧ cause ≠ 1 ∧ bitOf (s.get F.RED_WV_STAT_LANES) lane = true ∧ 2 ≤ popc 3 (s.get F.RED_WV_STAT_LANES - 2 ^ lane) :=
  ⟨2, 2, (hub .run 4000000).put F.RED_WV_STAT_LANES 7, by and_intros <;> decide +kernel⟩

theorem witness_MajorityLossHolds_1 :
    ∃ (lane : Nat) (cause : Nat) (s : State), lane < 3 ∧ cause ≠ 1 ∧ bitOf (s.get F.RED_WV_STAT_LANES) lane = true ∧ s.running = true ∧ popc 3 (s.get F.RED_WV_STAT_LANES - 2 ^ lane) < 2 :=
  ⟨2, 0, (hub .run 4000000).put F.RED_WV_STAT_LANES 6, by and_intros <;> decide +kernel⟩

theorem witness_MajorityLossHolds_2 :
    ∃ (lane : Nat) (s : State), lane < 3 ∧ s.get F.RED_WV_STAT_LANES = 7 ∧ s.red.wvDiff = [] :=
  ⟨2, (hub .run 4000000).put F.RED_WV_STAT_LANES 7, by and_intros <;> decide +kernel⟩

theorem witness_MajorityLossHolds_3 :
    ∃ (lane : Nat) (s : State), lane < 3 ∧ s.get F.RED_WV_STAT_LANES = 7 ∧ s.red.wvDiff = [(lane, s.tick - 1), (lane, s.tick - 2), (lane, s.tick - 3)] ∧ 3 ≤ s.tick :=
  ⟨2, ({ hub .run 4000000 with red := { (hub .run 0).red with wvDiff := [(2, 3999999), (2, 3999998), (2, 3999997)] } }).put F.RED_WV_STAT_LANES 7, by and_intros <;> decide +kernel⟩

theorem witness_MajorityLossHolds_4 :
    ∃ (lane : Nat) (s : State), lane < 3 ∧ bitOf (s.get F.RED_WV_STAT_LANES) lane = true ∧ popc 3 (s.get F.RED_WV_STAT_LANES) < 3 ∧ s.running = true :=
  ⟨2, (hub .run 4000000).put F.RED_WV_STAT_LANES 6, by and_intros <;> decide +kernel⟩

theorem witness_MajorityLossHolds_5 :
    ∃ (s : State), (s.running = true ∨ s.sys.mode = .trim) :=
  ⟨hub .limp 4000000, by decide +kernel⟩

theorem witness_MajorityLossHolds_6 :
    ∃ (h : Nat) (s : State), s.red.holdAt = some h ∧ s.sys.mode = .hold ∧ s.red.frozen = false ∧ h + s.get F.RED_HOLD_POST_MS * 2000 ≤ s.tick :=
  ⟨4000, { hub .hold 400000000 with red := { holdAt := some 4000 } }, by and_intros <;> decide +kernel⟩

theorem witness_Raw20WordsHoldCodeAndRange_0 :
    ∃ (c : BitVec 18) (r : Nat), r < 4 :=
  ⟨0x20001, 3, by decide +kernel⟩

theorem witness_RangesAndValuesStayInBounds_0 :
    ∃ (l : Nat) (rmin : Nat) (rmax : Nat) (r : Nat) (q : Nat) (u : Int) (du : Int), rmin ≤ r ∧ r ≤ rmax :=
  ⟨0, 0, 3, 3, 63, 0, 0, by and_intros <;> decide +kernel⟩

theorem witness_ConversionsReachTheSafetyNet_0 :
    ∃ (codes : List (BitVec 18)) (s : State), s.live = true :=
  ⟨[], hub .run 4000000, by decide +kernel⟩

theorem witness_ConversionsReachTheSafetyNet_1 :
    ∃ (codes : List (BitVec 18)) (s : State), s.live = false :=
  ⟨[], hub .dormant 4000000, by decide +kernel⟩

theorem witness_ConversionsReachTheSafetyNet_2 :
    ∃ (c : ConvTick) (rest : List ConvTick) (s : State), s.fe.conv = c :: rest ∧ c.tick < s.tick ∧ s.red.frozen = false ∧ c.words.length = 200 :=
  ⟨⟨3999999, List.replicate 200 0⟩, [], { hub .run 4000000 with fe := { conv := [⟨3999999, List.replicate 200 0⟩] } }, by and_intros <;> decide +kernel⟩

theorem witness_ConversionsReachTheSafetyNet_3 :
    ∃ (c : ConvTick) (rest : List ConvTick) (s : State), s.fe.conv = c :: rest ∧ c.tick < s.tick ∧ s.red.frozen = true :=
  ⟨⟨3999999, []⟩, [], { hub .hold 4000000 with fe := { conv := [⟨3999999, []⟩] }, red := { frozen := true } }, by and_intros <;> decide +kernel⟩

theorem witness_ConversionsReachTheSafetyNet_4 :
    ∃ (c : ConvTick) (rest : List ConvTick) (s : State), s.fe.conv = c :: rest ∧ s.tick ≤ c.tick :=
  ⟨⟨4000000, []⟩, [], { hub .run 4000000 with fe := { conv := [⟨4000000, []⟩] } }, by and_intros <;> decide +kernel⟩

theorem witness_SparesStandInForSlices_0 :
    ∃ (i : Nat) (s : State), s.live = true ∧ i < 200 ∧ i % 25 < 24 ∧ i ∉ s.part.slices ∧ s.sys.mode ≠ .trim ∧ s.spareFree (i / 25) = true :=
  ⟨23, hub .run 4000000, by and_intros <;> decide +kernel⟩

theorem witness_SparesStandInForSlices_1 :
    ∃ (b : Nat) (i : Nat) (s : State), (s.fe.banks.val {} b).input = some i ∧ (s.fe.banks.val {} b).pend = true ∧ (s.fe.banks.val {} b).liveFrom ≤ s.tick :=
  ⟨7, 23, { hub .run 4000000 with fe := { banks := [(7, { input := some 23, standing := true, liveFrom := 4000000, pend := true })] } }, by and_intros <;> decide +kernel⟩

theorem witness_SparesStandInForSlices_2 :
    ∃ (b : Nat) (i : Nat) (s : State), s.live = true ∧ b < 8 ∧ i < 24 ∧ 25 * b + i ∉ s.part.slices ∧ s.stuck (25 * b + i) = true :=
  ⟨7, 23, { hub .run 4000000 with cal := { rt := [(7, { input := some 23, stuck := { n := 2048, sum := 0, sq := 2048 * 257 } })] } }, by and_intros <;> decide +kernel⟩

theorem witness_SparesStandInForSlices_3 :
    ∃ (b : Nat) (i : Nat) (f : Nat) (s : State), (s.fe.banks.val {} b).gradual = [(i, f)] ∧ f ≤ s.tick ∧ i < 24 ∧ 25 * b + i ∉ s.part.slices ∧ s.spareFree b = true :=
  ⟨7, 23, 4000000, { hub .run 4000000 with fe := { banks := [(7, { gradual := [(23, 4000000)] })] } }, by and_intros <;> decide +kernel⟩

theorem witness_SparesStandInForSlices_4 :
    ∃ (b : Nat) (s : State), s.live = true ∧ b < 8 ∧ spareSlice b ∉ s.part.slices :=
  ⟨7, hub .run 4000000, by and_intros <;> decide +kernel⟩

theorem witness_BackupUnitsTripOnTheirOwn_0 :
    ∃ (d : Delivered) (s : State), s.fe.dlv = some d :=
  ⟨{ tick := 3999999 }, { hub .run 4000000 with fe := { dlv := some { tick := 3999999 } } }, by decide +kernel⟩

theorem witness_BackupUnitsTripOnTheirOwn_1 :
    ∃ (p : Nat) (d : Delivered) (x : FSample) (s : State), p < 16 ∧ s.fe.dlv = some d ∧ s.on (F.AFF_BTUp_CFG_EN p) = true ∧ (s.fe.btu.val {} p).evalTick ≠ some d.tick ∧ s.get (F.AFF_BTUp_CFG_PERSIST p) = 0 ∧ s.btuSource p 0 < 192 ∧ s.btuSource p 0 ∉ d.failed ∧ d.samples.find? (fun e => e.1 == s.btuSource p 0) = some (s.btuSource p 0, x) ∧ s.getI (F.AFF_BTUp_HI_VALUE p) < x.x :=
  ⟨15, { tick := 3999999, samples := [(191, { x := 8388607 })] }, { x := 8388607 }, (({ hub .run 4000000 with fe := { dlv := some { tick := 3999999, samples := [(191, { x := 8388607 })] } } }).put (F.AFF_BTUp_CFG_EN 15) 1).put (F.AFF_BTUp_HI_VALUE 15) 5 |>.wr (R.AFF_BTUp_SRC 15) 191#32, by and_intros <;> decide +kernel⟩

theorem witness_BackupUnitsTripOnTheirOwn_2 :
    ∃ (p : Nat) (s : State), p < 16 ∧ (s.fe.btu.val {} p).tripped = true ∧ s.on (F.AFF_BTUp_CFG_EN p) = true ∧ s.on (F.AFF_BTUp_CFG_LATCH p) = false ∧ 64 ≤ (s.fe.btu.val {} p).count :=
  ⟨15, (({ hub .run 4000000 with fe := { btu := [(15, { tripped := true, count := 64 })] } }).put (F.AFF_BTUp_CFG_EN 15) 1).put (F.AFF_BTUp_CFG_LATCH 15) 0, by and_intros <;> decide +kernel⟩

theorem witness_PinsPermitOnlyByBothVotes_0 :
    ∃ (s : State), (s.sys.porst = true ∨ s.sys.mode = .load ∨ s.sys.mode = .dormant ∨ s.sys.mode = .trim) :=
  ⟨hub .trim 4000000, by decide +kernel⟩

theorem witness_PinsPermitOnlyByBothVotes_1 :
    ∃ (p : Nat) (s : State), s.sys.porst = false ∧ (s.sys.mode = .run ∨ s.sys.mode = .limp ∨ s.sys.mode = .hold) ∧ p < 16 :=
  ⟨15, hub .hold 4000000, by and_intros <;> decide +kernel⟩

theorem witness_PinsPermitOnlyByBothVotes_2 :
    ∃ (pins : BitVec 16) (s : State), s.running = true ∧ s.red.active.isSome = true ∧ s.red.bump = none ∧ s.journalFull = false :=
  ⟨0x8001, hub .run 4000000, by and_intros <;> decide +kernel⟩

theorem witness_PinsPermitOnlyByBothVotes_3 :
    ∃ (pins : BitVec 16) (s : State), s.journalFull = true :=
  ⟨0x8001, fullHub, by decide +kernel⟩

theorem witness_PinsPermitOnlyByBothVotes_4 :
    ∃ (pins : BitVec 16) (s : State), s.sys.mode = .hold :=
  ⟨1, hub .hold 4000000, by decide +kernel⟩

theorem witness_PinsPermitOnlyByBothVotes_5 :
    ∃ (pin : Nat) (s : State), pin < 16 ∧ s.part.ilkOut.getLsbD pin = false ∧ s.sys.porst = false :=
  ⟨15, hub .run 4000000, by and_intros <;> decide +kernel⟩

theorem witness_SensorsAreFoundAndCounted_0 :
    ∃ (ch : Nat) (s : State), 256 ≤ ch ∧ ch < 512 ∧ s.idEnds ch 0 = true :=
  ⟨511, idHub 511 0 {}, by and_intros <;> decide +kernel⟩

theorem witness_SensorsAreFoundAndCounted_1 :
    ∃ (ch : Nat) (ident : BitVec 64) (ok : Bool) (s : State), 256 ≤ ch ∧ ch < 512 ∧ s.idEnds ch 0 = true ∧ (s.sid.val {} ch).rom ≠ some ident.toNat :=
  ⟨256, 5, true, idHub 256 0 {}, by and_intros <;> decide +kernel⟩

theorem witness_SensorsAreFoundAndCounted_2 :
    ∃ (ch : Nat) (s : State), 256 ≤ ch ∧ ch < 512 ∧ s.idEnds ch 0 = true :=
  ⟨256, idHub 256 0 {}, by and_intros <;> decide +kernel⟩

theorem witness_SensorsAreFoundAndCounted_3 :
    ∃ (ch : Nat) (page : List Byte) (s : State), 256 ≤ ch ∧ ch < 512 ∧ (s.sid.val {} ch).reading = true ∧ (s.sid.val {} ch).page ≠ 7 ∧ page.length = 32 ∧ s.idEnds ch 1 = true :=
  ⟨511, List.replicate 32 0, idHub 511 1 { reading := true, page := 6 }, by and_intros <;> decide +kernel⟩

theorem witness_SensorsAreFoundAndCounted_4 :
    ∃ (ch : Nat) (page : List Byte) (s : State), 256 ≤ ch ∧ ch < 512 ∧ (s.sid.val {} ch).reading = true ∧ (s.sid.val {} ch).page = 7 ∧ page.length = 32 ∧ s.idEnds ch 1 = true ∧ tmplValid ((s.sid.val {} ch).tmpl ++ page) = true :=
  ⟨511, List.replicate 32 0, idHub 511 1 { reading := true, page := 7, tmpl := rightTmpl }, by decide +kernel, by decide +kernel, by decide +kernel, by decide +kernel, by decide +kernel, by decide +kernel, rightTmpl_valid⟩

theorem witness_SensorsAreFoundAndCounted_5 :
    ∃ (ch : Nat) (page : List Byte) (s : State), 256 ≤ ch ∧ ch < 512 ∧ (s.sid.val {} ch).reading = true ∧ (s.sid.val {} ch).retries < 3 ∧ s.idEnds ch 1 = true :=
  ⟨511, [], idHub 511 1 { reading := true, retries := 2 }, by and_intros <;> decide +kernel⟩

theorem witness_SensorsAreFoundAndCounted_6 :
    ∃ (ch : Nat) (s : State), 256 ≤ ch ∧ ch < 512 ∧ s.running = true ∧ s.romDue ch = true ∧ (s.sid.val {} ch).due + 60000000 ≤ s.tick ∧ s.on (F.CH_SID_STAT_NO_IDLE ch) = false ∧ s.logRoom 2 :=
  ⟨511, ({ hub .run 60000000 with sid := [(511, {})] }.put F.SID_CTRL_POLL_EN 1).put (F.CH_SIN_CFG_EN 511) 1, by and_intros <;> decide +kernel⟩

theorem witness_SensorsAreFoundAndCounted_7 :
    ∃ (ch : Nat) (s : State), 256 ≤ ch ∧ ch < 512 ∧ (s.sid.val {} ch).wbDue = true ∧ s.tracked ch = true ∧ s.idEnds ch 2 = true :=
  ⟨511, lifeHub, by and_intros <;> decide +kernel⟩

theorem witness_SensorsAreFoundAndCounted_8 :
    ∃ (ch : Nat) (s : State), 256 ≤ ch ∧ ch < 512 ∧ (s.sid.val {} ch).wbDue = true ∧ s.tracked ch = true ∧ s.idEnds ch 2 = true ∧ s.logRoom 3 :=
  ⟨511, lifeHub, by and_intros <;> decide +kernel⟩

theorem witness_SensorsAreFoundAndCounted_9 :
    ∃ (s : State), s.liveMode = true :=
  ⟨hub .run 4000000, by decide +kernel⟩

theorem witness_FlashesAndLogKeepTheirRecords_0 :
    ∃ (o : NvmOp) (rest : List NvmOp) (s : State), s.nvmq = o :: rest ∧ o.tries < 3 ∧ s.sys.porst = false ∧ s.pwr.bracing = none ∧ o.onLog = false ∧ o.erase = false ∧ o.flash < 2 ∧ (o.why = .chunk ∨ o.why = .header) ∧ s.upd.endReq = none :=
  ⟨{ flash := 1, off := 256, data := [1, 2] }, [], { hub .run 4000000 with nvmq := [{ flash := 1, off := 256, data := [1, 2] }] }, by and_intros <;> decide +kernel⟩

theorem witness_FlashesAndLogKeepTheirRecords_1 :
    ∃ (o : NvmOp) (rest : List NvmOp) (s : State), s.nvmq = o :: rest ∧ o.tries < 3 ∧ s.sys.porst = false ∧ s.pwr.bracing = none ∧ o.onLog = false ∧ o.erase = true ∧ o.flash < 2 ∧ (o.why = .chunk ∨ o.why = .header) :=
  ⟨{ flash := 1, erase := true, off := 65536 }, [], { hub .run 4000000 with nvmq := [{ flash := 1, erase := true, off := 65536 }] }, by and_intros <;> decide +kernel⟩

theorem witness_FlashesAndLogKeepTheirRecords_2 :
    ∃ (o : NvmOp) (rest : List NvmOp) (s : State), s.nvmq = o :: rest ∧ o.tries < 2 ∧ s.sys.porst = false ∧ s.pwr.bracing = none :=
  ⟨{ flash := 1, tries := 1 }, [], { hub .run 4000000 with nvmq := [{ flash := 1, tries := 1 }] }, by and_intros <;> decide +kernel⟩

theorem witness_FlashesAndLogKeepTheirRecords_3 :
    ∃ (o : NvmOp) (rest : List NvmOp) (s : State), s.nvmq = o :: rest ∧ o.tries = 2 ∧ s.sys.porst = false ∧ s.pwr.bracing = none ∧ o.onLog = false ∧ s.flashOk o.flash = true :=
  ⟨{ flash := 1, tries := 2 }, [], { hub .run 4000000 with nvmq := [{ flash := 1, tries := 2 }] }, by and_intros <;> decide +kernel⟩

theorem witness_FlashesAndLogKeepTheirRecords_4 :
    ∃ (f : Nat) (off : Nat) (s : State), f < 2 ∧ s.flashOk f = true ∧ s.sys.porst = false :=
  ⟨1, 65536, hub .run 4000000, by and_intros <;> decide +kernel⟩

theorem witness_FlashesAndLogKeepTheirRecords_5 :
    ∃ (f : Nat) (s : State), f < 2 ∧ s.sys.porst = false ∧ s.upd.endReq = none :=
  ⟨1, hub .run 4000000, by and_intros <;> decide +kernel⟩

theorem witness_FlashesAndLogKeepTheirRecords_6 :
    ∃ (b : Nat) (s : State), s.log.openAt = some b ∧ b + 1200000000 ≤ s.tick :=
  ⟨5, { hub .run 1200000005 with log := { openAt := some 5, staged := [{}] } }, by and_intros <;> decide +kernel⟩

theorem witness_FlashesAndLogKeepTheirRecords_7 :
    ∃ (s : State), s.sys.porst = false ∧ 8 ≤ s.logWaiting.length ∧ s.logBusy = false ∧ s.pwr.bracing = none ∧ s.logTakes 0 = true ∧ s.logTakes 1 = true :=
  ⟨{ hub .run 4000000 with log := { staged := List.replicate 8 { closedAt := some 1 } } }, by and_intros <;> decide +kernel⟩

theorem witness_FlashesAndLogKeepTheirRecords_8 :
    ∃ (cls : Nat) (n : Nat) (b : Nat) (s : State), s.log.lost = [(cls, n, b)] ∧ cls < 256 ∧ s.logRoom 3 :=
  ⟨3, 1, 7, { hub .run 4000000 with log := { lost := [(3, 1, 7)] } }, by and_intros <;> decide +kernel⟩

theorem witness_FlashesAndLogKeepTheirRecords_9 :
    ∃ (f : Nat) (sec : Nat) (n : Nat) (o : NvmOp) (rest : List NvmOp) (s : State), f < 2 ∧ s.nvmq = o :: rest ∧ o.onLog = true ∧ o.tries = 3 ∧ o.flash = f ∧ o.logSector = sec ∧ s.part.logSpare[f]? = some n ∧ n < 8 ∧ s.bracingNow = false :=
  ⟨1, 0, 7, { flash := 1, why := .log, tries := 3, off := logBase }, [], { hub .run 4000000 with nvmq := [{ flash := 1, why := .log, tries := 3, off := logBase }], part := { logSpare := [0, 7] } }, by and_intros <;> decide +kernel⟩

theorem witness_FlashesAndLogKeepTheirRecords_10 :
    ∃ (s : State), s.logTakes 0 = false ∧ s.logTakes 1 = false ∧ s.sys.porst = false ∧ s.bracingNow = false ∧ s.log.noted = false :=
  ⟨{ hub .run 4000000 with part := { nvmOk := [false, false] } }, by and_intros <;> decide +kernel⟩

theorem witness_ImageKeysAreBurnedOrKept_0 :
    ∃ (svc : Bool) (slot : Nat) (mask : BitVec 4) (s : State), mask ≠ 0 ∧ s.pwr.bracing = none ∧ (s.upd.runHdr = [] ∨ mask.toNat.testBit (hdrKey s.upd.runHdr) = false) ∧ (List.range 4).any (fun i => s.imageKeyOk i && !(mask ||| s.pwr.ikBurn).toNat.testBit i) = true :=
  ⟨true, 0, 2, { hub .run 4000000 with part := { ik := [List.replicate 49 1, []] } }, by and_intros <;> decide +kernel⟩

theorem witness_ImageKeysAreBurnedOrKept_1 :
    ∃ (svc : Bool) (slot : Nat) (mask : BitVec 4) (s : State), mask ≠ 0 ∧ ((s.upd.runHdr ≠ [] ∧ mask.toNat.testBit (hdrKey s.upd.runHdr) = true) ∨ (List.range 4).any (fun i => s.imageKeyOk i && !(mask ||| s.pwr.ikBurn).toNat.testBit i) = false) :=
  ⟨true, 0, 1, hub .run 4000000, by and_intros <;> decide +kernel⟩

theorem witness_UpdatesConfirmOrCancel_0 :
    ∃ (e : Resp) (s : State), s.upd.endReq = some e ∧ s.upd.stage = 2 ∧ s.sys.steward = true ∧ s.slotImage s.inactive = none :=
  ⟨{ src := 1, typ := 0x32, seq := 2 }, { hub .run 4000000 with upd := { stage := 2, endReq := some { src := 1, typ := 0x32, seq := 2 } } }, by and_intros <;> decide +kernel⟩

theorem witness_UpdatesConfirmOrCancel_1 :
    ∃ (id : Word) (s : State), s.upd.lock = some id ∧ s.upd.stage = 1 ∧ s.pwr.bracing = none ∧ s.upd.idleFrom + 120000000 ≤ s.tick ∧ s.logRoom 2 :=
  ⟨7#32, { hub .run 120000000 with upd := { stage := 1, lock := some 7#32 } }, by and_intros <;> decide +kernel⟩

theorem witness_UpdatesConfirmOrCancel_2 :
    ∃ (s : State), s.served = true ∧ s.upd.trial = true ∧ s.logRoom 3 :=
  ⟨{ hub .run 4000000 with upd := { trial := true } }, by and_intros <;> decide +kernel⟩

theorem witness_UpdatesConfirmOrCancel_3 :
    ∃ (s : State), s.served = true ∧ s.upd.trial = false :=
  ⟨hub .run 4000000, by and_intros <;> decide +kernel⟩

theorem witness_UpdatesConfirmOrCancel_4 :
    ∃ (u : Nat) (s : State), s.upd.runFrom = some u ∧ s.upd.trial = true ∧ s.on F.UPD_CFG_AUTO_CONFIRM = true ∧ s.sys.mode = .run ∧ s.sys.steward = true ∧ u + s.get F.UPD_CFG_CONFIRM_S * 2000000 ≤ s.tick ∧ s.logRoom 3 :=
  ⟨0, (({ hub .run 4000000 with upd := { trial := true, runFrom := some 0 } }).put F.UPD_CFG_AUTO_CONFIRM 1).put F.UPD_CFG_CONFIRM_S 1, by and_intros <;> decide +kernel⟩

theorem witness_UpdatesConfirmOrCancel_5 :
    ∃ (s : State), s.served = true ∧ s.activationPending = true ∧ s.logRoom 3 :=
  ⟨cancelHub, by and_intros <;> decide +kernel⟩

theorem witness_UpdatesConfirmOrCancel_6 :
    ∃ (s : State), s.served = true ∧ s.activationPending = false :=
  ⟨hub .run 4000000, by and_intros <;> decide +kernel⟩

theorem witness_UpdatesConfirmOrCancel_7 :
    ∃ (f : Nat) (s : State), s.running = true ∧ s.sys.steward = true ∧ s.nvmq.any (fun o => o.why == .repair && o.flash == f) = false :=
  ⟨1, hub .run 4000000, by and_intros <;> decide +kernel⟩

theorem witness_UpdatesConfirmOrCancel_8 :
    ∃ (mask : BitVec 4) (s : State), s.served = true ∧ s.pwr.bracing = none ∧ mask ≠ 0 ∧ (s.upd.runHdr != [] && mask.toNat.testBit (hdrKey s.upd.runHdr)) = false ∧ (List.range 4).any (fun i => s.imageKeyOk i && !(mask ||| s.pwr.ikBurn).toNat.testBit i) = true ∧ s.logRoom 2 :=
  ⟨2, { hub .run 4000000 with part := { ik := [List.replicate 49 1, []] } }, by and_intros <;> decide +kernel⟩

theorem witness_UpdatesConfirmOrCancel_9 :
    ∃ (mask : BitVec 4) (s : State), s.served = true ∧ s.upd.runHdr ≠ [] ∧ mask.toNat.testBit (hdrKey s.upd.runHdr) = true :=
  ⟨1, { hub .run 4000000 with upd := { runHdr := List.replicate 512 0 } }, by and_intros <;> decide +kernel⟩

theorem witness_UpdatesConfirmOrCancel_10 :
    ∃ (mask : BitVec 4) (s : State), s.served = true ∧ s.pwr.bracing = none ∧ mask ≠ 0 ∧ (List.range 4).any (fun i => s.hmacSlotOk i && !(mask ||| s.pwr.hkBurn).toNat.testBit i) = true :=
  ⟨2, { hub .run 4000000 with part := { hk := [List.replicate 32 1, []] } }, by and_intros <;> decide +kernel⟩

theorem witness_UpdatesConfirmOrCancel_11 :
    ∃ (mask : BitVec 4) (s : State), s.served = true ∧ (List.range 4).any (fun i => s.hmacSlotOk i && !(mask ||| s.pwr.hkBurn).toNat.testBit i) = false :=
  ⟨1, { hub .run 4000000 with part := { hk := [List.replicate 32 1, []] } }, by and_intros <;> decide +kernel⟩

theorem witness_DomainsMeasureTheirMasters_0 :
    ∃ (d : Nat) (t1 : Int) (t2 : Int) (t3 : Int) (t4 : Int) (m : Int) (r : Int) (rx : Int) (tx : Int) (s : State), d < 2 ∧ (s.dom d).state = .locked ∧ s.sys.steward = true ∧ s.on (F.TIM_TDd_CTRL_MECH d) = false ∧ rx = (s.portLat (s.get (F.TIM_TDd_CTRL_PORT d)) true : Int) ∧ tx = (s.portLat (s.get (F.TIM_TDd_CTRL_PORT d)) false : Int) ∧ r = t2 - rx - t1 ∧ m = r + (t4 - (t3 + tx)) :=
  ⟨1, 0, 8634370, 9, 5513229, 6, 2, 8634368, 5513216, lockedHub, by and_intros <;> decide +kernel⟩

theorem witness_DomainsMeasureTheirMasters_1 :
    ∃ (d : Nat) (t1 : Int) (t2 : Int) (t3 : Int) (t4 : Int) (p : Int) (m : Int) (r : Int) (rx : Int) (tx : Int) (s : State), d < 2 ∧ (s.dom d).state = .locked ∧ s.sys.steward = true ∧ s.on (F.TIM_TDd_CTRL_MECH d) = true ∧ rx = (s.portLat (s.get (F.TIM_TDd_CTRL_PORT d)) true : Int) ∧ tx = (s.portLat (s.get (F.TIM_TDd_CTRL_PORT d)) false : Int) ∧ r = t2 - rx - t1 ∧ m = 2 * p - (rx + tx) :=
  ⟨1, 0, 8634370, 9, 5513229, 7073795, 6, 2, 8634368, 5513216, lockedHub.put (F.TIM_TDd_CTRL_MECH 1) 1, by and_intros <;> decide +kernel⟩

theorem witness_DomainsMeasureTheirMasters_2 :
    ∃ (d : Nat) (t1 : Int) (t2 : Int) (t3 : Int) (t4 : Int) (p : Option Int) (s : State), d < 2 ∧ (s.dom d).state ≠ .off ∧ s.sys.steward = true ∧ s.servoDead d = false ∧ (s.dom (1 - d)).state ≠ .off ∧ s.servoDead (1 - d) = false :=
  ⟨1, 5, 7, 9, 13, none, { hub .run 4000000 with tim := { doms := [(0, { state := .locked }), (1, { state := .locked })] } }, by and_intros <;> decide +kernel⟩

theorem witness_DomainsMeasureTheirMasters_3 :
    ∃ (d : Nat) (m : Announce) (s : State), d < 2 ∧ (s.dom d).state ≠ .off ∧ s.sys.steward = true ∧ m.port = s.get (F.TIM_TDd_CTRL_PORT d) ∧ m.domain = s.get (F.TIM_TDd_CTRL_PTP_DOM d) ∧ m.transport = s.get (F.TIM_TDd_CTRL_TRANSPORT d) ∧ s.tim.masters.look d = none :=
  ⟨1, anAnnounce, ((lockedHub.put (F.TIM_TDd_CTRL_PORT 1) 0).put (F.TIM_TDd_CTRL_PTP_DOM 1) 0).put (F.TIM_TDd_CTRL_TRANSPORT 1) 0, by and_intros <;> decide +kernel⟩

theorem witness_DomainsMeasureTheirMasters_4 :
    ∃ (d : Nat) (m : Announce) (o : Master) (s : State), d < 2 ∧ (s.dom d).state ≠ .off ∧ s.sys.steward = true ∧ s.tim.masters.look d = some o ∧ m.prio1 < o.prio1 ∧ m.port = s.get (F.TIM_TDd_CTRL_PORT d) ∧ m.domain = s.get (F.TIM_TDd_CTRL_PTP_DOM d) ∧ m.transport = s.get (F.TIM_TDd_CTRL_TRANSPORT d) :=
  ⟨1, anAnnounce, ⟨3, 3, 4, 5, 6, 7, 8, 0⟩, ((({ lockedHub with tim := { lockedHub.tim with masters := [(1, ⟨3, 3, 4, 5, 6, 7, 8, 0⟩)] } }).put (F.TIM_TDd_CTRL_PORT 1) 0).put (F.TIM_TDd_CTRL_PTP_DOM 1) 0).put (F.TIM_TDd_CTRL_TRANSPORT 1) 0, by and_intros <;> decide +kernel⟩

theorem witness_DomainsMeasureTheirMasters_5 :
    ∃ (d : Nat) (r : Nat) (x : Nat) (port : Nat) (s : State), d < 2 ∧ (s.dom d).state ≠ .off ∧ s.on (F.TIM_TDd_CTRL_MECH d) = true ∧ port = s.get (F.TIM_TDd_CTRL_PORT d) ∧ s.linkUp port = true ∧ s.on (F.TIM_TDd_CTRL_TWO_STEP d) = false :=
  ⟨1, 5, 9, 1, ((({ lockedHub with net := upNet }).put (F.TIM_TDd_CTRL_PORT 1) 1).put (F.TIM_TDd_CTRL_MECH 1) 1).put (F.TIM_TDd_CTRL_TWO_STEP 1) 0, by and_intros <;> decide +kernel⟩

theorem witness_DomainsMeasureTheirMasters_6 :
    ∃ (d : Nat) (r : Nat) (x : Nat) (port : Nat) (s : State), d < 2 ∧ (s.dom d).state ≠ .off ∧ s.on (F.TIM_TDd_CTRL_MECH d) = true ∧ port = s.get (F.TIM_TDd_CTRL_PORT d) ∧ s.linkUp port = true ∧ s.on (F.TIM_TDd_CTRL_TWO_STEP d) = true :=
  ⟨1, 5, 9, 1, ((({ lockedHub with net := upNet }).put (F.TIM_TDd_CTRL_PORT 1) 1).put (F.TIM_TDd_CTRL_MECH 1) 1).put (F.TIM_TDd_CTRL_TWO_STEP 1) 1, by and_intros <;> decide +kernel⟩

theorem witness_DomainsMeasureTheirMasters_7 :
    ∃ (d : Nat) (s : State), d < 2 ∧ ((s.dom d).state = .locked ∨ (s.dom d).state = .acquiring) ∧ (s.dom d).lastMsg + s.get (F.TIM_TDd_QUAL_CFG_LOSS_TMO d) * 2000000 ≤ s.tick :=
  ⟨1, { hub .run 400000000 with tim := { doms := [(1, { state := .locked })] } }, by and_intros <;> decide +kernel⟩

theorem witness_PathDelayStepsEnd_0 :
    ∃ (d : Nat) (s : State), d < 2 ∧ (s.dom d).estOn = true ∧ (s.dom d).estN = 64 ∧ s.on F.TIM_ASYM_AUTO_AUTO = false :=
  ⟨1, ({ hub .run 4000000 with tim := { doms := [(1, { estOn := true, estN := 64, estSum := 2 ^ 60 })] } }).put F.TIM_ASYM_AUTO_AUTO 0, by and_intros <;> decide +kernel⟩

theorem witness_PathDelayStepsEnd_1 :
    ∃ (d : Nat) (s : State), d < 2 ∧ s.liveMode = true ∧ s.on (F.TIM_TDd_STAT_EST_VALID d) = true ∧ s.sys.unchecked = none ∧ (s.getI (F.TIM_TDd_ASYM_VALUE d) + s.getI (F.TIM_TDd_ASYM_EST_VALUE d)).natAbs ≤ 65536000 :=
  ⟨1, ((hub .run 4000000).put (F.TIM_TDd_STAT_EST_VALID 1) 1).wr (R.TIM_TDd_ASYM_EST 1) 65536000#32, by and_intros <;> decide +kernel⟩

theorem witness_PathDelayStepsEnd_2 :
    ∃ (d : Nat) (s : State), d < 2 ∧ s.liveMode = true ∧ s.on (F.TIM_TDd_STAT_EST_VALID d) = true ∧ s.sys.unchecked = none ∧ 65536000 < (s.getI (F.TIM_TDd_ASYM_VALUE d) + s.getI (F.TIM_TDd_ASYM_EST_VALUE d)).natAbs :=
  ⟨1, ((hub .run 4000000).put (F.TIM_TDd_STAT_EST_VALID 1) 1).wr (R.TIM_TDd_ASYM_EST 1) 65536001#32, by and_intros <;> decide +kernel⟩

theorem witness_PathDelayStepsEnd_3 :
    ∃ (d : Nat) (s : State), d < 2 ∧ s.liveMode = true ∧ s.on (F.TIM_TDd_STAT_EST_VALID d) = false ∧ s.sys.unchecked = none :=
  ⟨1, hub .run 4000000, by and_intros <;> decide +kernel⟩

theorem witness_PathDelayStepsEnd_4 :
    ∃ (d : Nat) (s : State), d < 2 ∧ s.liveMode = true ∧ s.on (F.TIM_TDd_STAT_ASYM_STEP d) = true :=
  ⟨1, (hub .run 4000000).put (F.TIM_TDd_STAT_ASYM_STEP 1) 1, by and_intros <;> decide +kernel⟩

theorem witness_PathDelayStepsEnd_5 :
    ∃ (d : Nat) (u : Nat) (s : State), d < 2 ∧ (s.dom d).solo = some u ∧ s.on (F.TIM_TDd_STAT_ASYM_STEP d) = true ∧ s.on F.TIM_ASYM_AUTO_SOLO = true ∧ u + s.get F.TIM_ASYM_AUTO_SOLO_HOLD * 2000000 ≤ s.tick :=
  ⟨1, 0, (({ hub .run 4000000000 with tim := { doms := [(1, { solo := some 0 })] } }).put (F.TIM_TDd_STAT_ASYM_STEP 1) 1).put F.TIM_ASYM_AUTO_SOLO 1, by and_intros <;> decide +kernel⟩

theorem witness_TheTimescaleNeverSteps_0 :
    ∃ (w : Option Nat) (s : State), s.tick % 2000 = 0 ∧ s.tim.atSet = true ∧ s.tim.decide = some w ∧ s.tim.decideAt ≤ s.tick ∧ w ≠ s.tim.follow ∧ s.logRoom 4 :=
  ⟨some 1, { hub .run 4000000 with tim := { atSet := true, decide := some (some 1), decideAt := 4000000 } }, by and_intros <;> decide +kernel⟩

theorem witness_TheTimescaleNeverSteps_1 :
    ∃ (q : Nat) (s : State), s.get F.TIM_CTRL_AT_MODE = 0 ∧ s.on F.TIM_REVERT_EN = true ∧ s.qualified s.atPref = true ∧ (s.dom s.atPref).qualSince = some q ∧ q + s.get F.TIM_REVERT_HOLD * 2000000 ≤ s.tick ∧ s.tim.follow = some (1 - s.atPref) ∧ s.tim.decide = none ∧ ((s.tim.atVal - (s.view s.atPref).val).natAbs : Int) ≤ (s.get F.TIM_JOIN_MAX_VALUE : Int) * 1000 * 2 ^ 64 :=
  ⟨0, ((({ hub .run 4000000 with tim := { doms := [(0, { state := .locked, qualSince := some 0 })], follow := some 1 } }).put F.TIM_CTRL_AT_MODE 0).put F.TIM_REVERT_EN 1).put F.TIM_REVERT_HOLD 1, by and_intros <;> decide +kernel⟩

theorem witness_TheTimescaleNeverSteps_2 :
    ∃ (s : State), s.tim.slewing = true ∧ s.resid = 0 :=
  ⟨{ hub .run 4000000 with tim := { slewing := true } }, by and_intros <;> decide +kernel⟩

theorem witness_ClocksAndViewsAreShown_0 :
    ∃ (a : Option (BitVec 4)) (b : Option (BitVec 4)) (s : State), s.linkUp 0 = true ∧ s.linkUp 1 = true :=
  ⟨some 2, none, { hub .run 4000000 with net := upNet }, by and_intros <;> decide +kernel⟩

theorem witness_ClocksAndViewsAreShown_1 :
    ∃ (a : Option (BitVec 4)) (b : Option (BitVec 4)) (s : State), s.linkUp 0 = false ∧ s.linkUp 1 = true ∧ s.get F.TIM_STAT_FRC_ACT = 1 ∧ s.logRoom 3 :=
  ⟨none, none, ({ hub .run 4000000 with net := { links := [(1, { up := true })] } }).put F.TIM_STAT_FRC_ACT 1, by and_intros <;> decide +kernel⟩

theorem witness_ClocksAndViewsAreShown_2 :
    ∃ (p : Nat) (q : BitVec 4) (s : State), s.get F.TIM_STAT_FRC_ACT = p + 1 ∧ s.logRoom 3 :=
  ⟨1, 2, (hub .run 4000000).put F.TIM_STAT_FRC_ACT 2, by and_intros <;> decide +kernel⟩

theorem witness_ClocksAndViewsAreShown_3 :
    ∃ (ts : Nat) (s : State), s.on F.TIM_MCLK_CFG_EN = true ∧ s.tim.mLast.any (fun m => !s.markerGood (ts - m)) = false :=
  ⟨77, (hub .run 4000000).put F.TIM_MCLK_CFG_EN 1, by and_intros <;> decide +kernel⟩

theorem witness_ClocksAndViewsAreShown_4 :
    ∃ (ts : Nat) (m : Nat) (s : State), s.on F.TIM_MCLK_CFG_EN = true ∧ s.tim.mLast = some m ∧ s.markerGood (ts - m) = false :=
  ⟨77, 76, (((hub .run 4000000).put F.TIM_MCLK_CFG_EN 1).put F.TIM_MCLK_CFG_DIV 1).put F.TIM_MCLK_CFG_NOM_KHZ 10000 |> fun s => { s with tim := { mLast := some 76 } }, by and_intros <;> decide +kernel⟩

theorem witness_ClocksAndViewsAreShown_5 :
    ∃ (s : State), s.on F.TIM_MCLK_CFG_EN = true ∧ s.on F.TIM_MCLK_STAT_LOSS = false ∧ 4 * (s.get F.TIM_MCLK_CFG_DIV * 1000000 * 65536) ≤ (s.tim.frc - s.tim.mGoodAt) * s.get F.TIM_MCLK_CFG_NOM_KHZ ∧ s.logRoom 2 :=
  ⟨(((({ hub .run 4000000 with tim := { frc := 2 ^ 60 } }).put F.TIM_MCLK_CFG_EN 1).put F.TIM_MCLK_STAT_LOSS 0).put F.TIM_MCLK_CFG_DIV 1).put F.TIM_MCLK_CFG_NOM_KHZ 10000, by and_intros <;> decide +kernel⟩

theorem witness_ClocksAndViewsAreShown_6 :
    ∃ (back : Nat) (s : State), s.on F.TIM_PPS_CFG_IN_EN = true :=
  ⟨3, (hub .run 4000000).put F.TIM_PPS_CFG_IN_EN 1, by decide +kernel⟩

theorem witness_ClocksAndViewsAreShown_7 :
    ∃ (d : Nat) (v : BitVec 96) (s : State), d < 4 ∧ s.liveMode = true ∧ (2 ≤ d ∨ (s.dom d).state = .off) :=
  ⟨1, 2 ^ 70, hub .run 4000000, by and_intros <;> decide +kernel⟩

theorem witness_ClocksAndViewsAreShown_8 :
    ∃ (d : Nat) (v : BitVec 96) (s : State), d < 2 ∧ s.liveMode = true ∧ (s.dom d).state ≠ .off :=
  ⟨1, 5, { hub .run 4000000 with tim := { doms := [(1, { state := .holdover })] } }, by and_intros <;> decide +kernel⟩

theorem witness_ClocksAndViewsAreShown_9 :
    ∃ (r : BitVec 40) (s : State), s.liveMode = true :=
  ⟨2 ^ 39, hub .run 4000000, by decide +kernel⟩

theorem witness_ClocksAndViewsAreShown_10 :
    ∃ (s : State), s.liveMode = true :=
  ⟨hub .trim 4000000, by decide +kernel⟩

theorem witness_CompareUnitsAndOutputsFire_0 :
    ∃ (u : Nat) (s : State), u < 16 ∧ s.liveMode = true ∧ s.tick + 2 < s.rd64 (R.TIM_TCMPu_TICK_LO u) :=
  ⟨15, (hub .run 4000000).wr (R.TIM_TCMPu_TICK_LO 15) 4000003#32, by and_intros <;> decide +kernel⟩

theorem witness_CompareUnitsAndOutputsFire_1 :
    ∃ (u : Nat) (s : State), u < 16 ∧ s.liveMode = true ∧ s.rd64 (R.TIM_TCMPu_TICK_LO u) ≤ s.tick + 2 :=
  ⟨15, (hub .run 4000000).wr (R.TIM_TCMPu_TICK_LO 15) 4000002#32, by and_intros <;> decide +kernel⟩

theorem witness_CompareUnitsAndOutputsFire_2 :
    ∃ (u : Nat) (s : State), u < 16 ∧ s.liveMode = true :=
  ⟨15, hub .run 4000000, by and_intros <;> decide +kernel⟩

theorem witness_CompareUnitsAndOutputsFire_3 :
    ∃ (u : Nat) (s : State), u < 16 ∧ (s.tim.tcmp.val {} u).armed = true ∧ (s.tim.tcmp.val {} u).target ≤ s.tick ∧ (s.tim.tcmp.val {} u).period = 0 ∧ s.get (F.TIM_TCMPu_CTRL_ACTION u) = 5 ∧ (s.tim.tout.val {} (s.get (F.TIM_TCMPu_CTRL_TOUT_SEL u))).stopAt = none ∧ s.sys.unchecked = none :=
  ⟨15, ({ hub .run 4000000 with tim := { tcmp := [(15, ⟨true, 4000000, 0⟩)] } }).put (F.TIM_TCMPu_CTRL_ACTION 15) 5, by and_intros <;> decide +kernel⟩

theorem witness_CompareUnitsAndOutputsFire_4 :
    ∃ (u : Nat) (s : State), u < 16 ∧ (s.tim.tcmp.val {} u).armed = true ∧ (s.tim.tcmp.val {} u).target ≤ s.tick ∧ 0 < (s.tim.tcmp.val {} u).period ∧ 1 ≤ s.get (F.TIM_TCMPu_CTRL_ACTION u) ∧ s.get (F.TIM_TCMPu_CTRL_ACTION u) ≤ 4 ∧ s.running = false ∧ s.sys.unchecked = none :=
  ⟨15, ({ hub .trim 4000000 with tim := { tcmp := [(15, ⟨true, 4000000, 9⟩)] } }).put (F.TIM_TCMPu_CTRL_ACTION 15) 4, by and_intros <;> decide +kernel⟩

theorem witness_CompareUnitsAndOutputsFire_5 :
    ∃ (k : Nat) (s : State), k < 4 ∧ s.liveMode = true ∧ s.toutOk k = true :=
  ⟨3, ((hub .run 4000000).put (F.TIM_TOUTt_PERIOD_PERIOD 3) 2).put (F.TIM_TOUTt_WIDTH_WIDTH 3) 1, by and_intros <;> decide +kernel⟩

theorem witness_CompareUnitsAndOutputsFire_6 :
    ∃ (k : Nat) (s : State), k < 4 ∧ s.liveMode = true ∧ s.toutOk k = false :=
  ⟨3, (hub .run 4000000).put (F.TIM_TOUTt_PERIOD_PERIOD 3) 1, by and_intros <;> decide +kernel⟩

theorem witness_CompareUnitsAndOutputsFire_7 :
    ∃ (k : Nat) (s : State), k < 4 ∧ s.liveMode = true :=
  ⟨3, hub .run 4000000, by and_intros <;> decide +kernel⟩

theorem witness_EnablesAndSyncsReachTheChains_0 :
    ∃ (ch : Nat) (s : State), ch < 192 ∧ s.liveMode = true ∧ s.on (F.CH_AFE_CTRL_EN ch) = false ∧ s.journalFull = false ∧ s.phaseOk ch = true ∧ s.on (F.CH_AFE_CTRL_ACQ_ARM ch) = false :=
  ⟨191, hub .run 4000000, by and_intros <;> decide +kernel⟩

theorem witness_EnablesAndSyncsReachTheChains_1 :
    ∃ (ch : Nat) (s : State), ch < 192 ∧ s.liveMode = true ∧ s.on (F.CH_AFE_CTRL_EN ch) = true ∧ s.journalFull = false ∧ ch ∈ s.sys.fastEff :=
  ⟨191, ({ hub .run 4000000 with sys := { (hub .run 0).sys with fastEff := [191] } }).put (F.CH_AFE_CTRL_EN 191) 1, by and_intros <;> decide +kernel⟩

theorem witness_EnablesAndSyncsReachTheChains_2 :
    ∃ (ch : Nat) (b : Nat) (s : State), ch < 192 ∧ s.sys.fastPend.look ch = some (true, b) ∧ b ≤ s.tick ∧ s.fltPeriodOk ch = true ∧ s.sys.unchecked = none :=
  ⟨191, 4000000, fltHub 25, by and_intros <;> decide +kernel⟩

theorem witness_EnablesAndSyncsReachTheChains_3 :
    ∃ (ch : Nat) (b : Nat) (s : State), ch < 192 ∧ s.sys.fastPend.look ch = some (true, b) ∧ b ≤ s.tick ∧ s.fltPeriodOk ch = false ∧ s.sys.unchecked = none :=
  ⟨191, 4000000, fltHub 3, by and_intros <;> decide +kernel⟩

theorem witness_EnablesAndSyncsReachTheChains_4 :
    ∃ (ch : Nat) (b : Nat) (s : State), ch < 192 ∧ s.sys.fastPend.look ch = some (false, b) ∧ b ≤ s.tick ∧ ch ∈ s.sys.fastEver ∧ s.sys.openGap.look ch = none :=
  ⟨191, 4000000, { hub .run 4000000 with sys := { (hub .run 0).sys with fastPend := [(191, (false, 4000000))], fastEver := [191], fastEff := [191] } }, by and_intros <;> decide +kernel⟩

theorem witness_EnablesAndSyncsReachTheChains_5 :
    ∃ (s : State), s.liveMode = true ∧ s.journalFull = false ∧ s.tick + 2 < s.rd64 R.FLT_SYNC_TICK_LO :=
  ⟨(hub .run 4000000).wr R.FLT_SYNC_TICK_LO 4000003#32, by and_intros <;> decide +kernel⟩

theorem witness_EnablesAndSyncsReachTheChains_6 :
    ∃ (s : State), s.liveMode = true ∧ s.journalFull = false ∧ s.rd64 R.FLT_SYNC_TICK_LO ≤ s.tick + 2 :=
  ⟨(hub .run 4000000).wr R.FLT_SYNC_TICK_LO 4000002#32, by and_intros <;> decide +kernel⟩

theorem witness_EnablesAndSyncsReachTheChains_7 :
    ∃ (s : State), s.liveMode = true :=
  ⟨hub .run 4000000, by decide +kernel⟩

theorem witness_EnablesAndSyncsReachTheChains_8 :
    ∃ (ts : Nat) (src : Nat) (s : State), s.hist.syncs = [(ts, src)] ∧ ts ≤ s.tick ∧ s.running = true :=
  ⟨4000000, 18, { hub .run 4000000 with hist := { syncs := [(4000000, 18)] } }, by and_intros <;> decide +kernel⟩

theorem witness_EnablesAndSyncsReachTheChains_9 :
    ∃ (ts : Nat) (src : Nat) (s : State), s.hist.syncs = [(ts, src)] ∧ ts ≤ s.tick ∧ s.running = false :=
  ⟨4000000, 0, { hub .hold 4000000 with hist := { syncs := [(4000000, 0)] } }, by and_intros <;> decide +kernel⟩

theorem witness_TheCoreProcessesEveryInputTick_0 :
    ∃ (s : State), s.sys.unchecked = none ∧ (∀ n ch, (s.coefAt n).polyBad ch = false) :=
  ⟨{ hub .run 4000000 with core := { pos := 3999999 }, netTick := some 3999999, fe := { dlv := some { tick := 3999999 } } }, by decide +kernel, fun _ _ => rfl⟩

theorem witness_TheCoreProcessesEveryInputTick_1 :
    ∃ (s : State), s.red.bump = none :=
  ⟨hub .run 4000000, by decide +kernel⟩

theorem witness_TheCoreProcessesEveryInputTick_2 :
    ∃ (c : CoreId) (n : Nat) (s : State), s.running = true ∧ s.red.active = some c ∧ s.red.bump = none ∧ s.netTick = some n ∧ s.core.pos ≤ n ∧ s.core.pos < s.tick :=
  ⟨.a, 3999999, { hub .run 4000000 with core := { pos := 3999999 }, netTick := some 3999999 }, by and_intros <;> decide +kernel⟩

theorem witness_TheCoreProcessesEveryInputTick_3 :
    ∃ (s : State), (s.red.active = none ∨ s.sys.mode = .dormant ∨ s.sys.mode = .hold) :=
  ⟨{ hub .run 4000000 with red := {} }, by decide +kernel⟩

theorem witness_TheCoreProcessesEveryInputTick_4 :
    ∃ (s : State), s.red.bump = none :=
  ⟨hub .run 4000000, by decide +kernel⟩

theorem witness_TheCoreProcessesEveryInputTick_5 :
    ∃ (tj : BitVec 16) (pw : BitVec 16) (s : State), s.sys.porst = false ∧ s.tick % 2000 = 0 :=
  ⟨5, 6, hub .run 4000000, by and_intros <;> decide +kernel⟩

theorem witness_TheCoreProcessesEveryInputTick_6 :
    ∃ (tj : BitVec 16) (pw : BitVec 16) (s : State), s.sys.porst = false ∧ s.tick % 2000 = 0 ∧ s.streaming = true :=
  ⟨5, 6, hub .run 4000000, by and_intros <;> decide +kernel⟩

theorem witness_TheCoreProcessesEveryInputTick_7 :
    ∃ (s : State), s.tick % 2000000 = 0 ∧ s.streaming = true :=
  ⟨hub .run 4000000, by and_intros <;> decide +kernel⟩

theorem witness_GroupsScanAtMultiplesOfTheirPeriod_0 :
    ∃ (g : Nat) (s : State), g < 16 ∧ s.liveMode = true ∧ s.on (F.AFS_GRPg_CFG_EN g) = false :=
  ⟨15, hub .run 4000000, by and_intros <;> decide +kernel⟩

theorem witness_GroupsScanAtMultiplesOfTheirPeriod_1 :
    ∃ (g : Nat) (s : State), g < 16 ∧ s.liveMode = true ∧ s.on (F.AFS_GRPg_CFG_EN g) = true :=
  ⟨15, (hub .run 4000000).put (F.AFS_GRPg_CFG_EN 15) 1, by and_intros <;> decide +kernel⟩

theorem witness_GroupsScanAtMultiplesOfTheirPeriod_2 :
    ∃ (g : Nat) (f : Nat) (s : State), g < 16 ∧ s.acquiring = true ∧ s.on (F.AFS_GRPg_CFG_EN g) = true ∧ s.tick % s.get (F.AFS_GRPg_PERIOD_S g) = 0 ∧ (s.grp g).first = some f ∧ f ≤ s.tick ∧ (s.grp g).scan = none ∧ s.part.lostGrp.contains g = false ∧ (∀ ch, ch ∈ grpChans g → (s.slow.en.val {} ch).pend = none) ∧ (∃ i, i < 16 ∧ (s.slow.en.val {} (256 + 16 * g + i)).eff = true) :=
  ⟨15, 4000000, scanHub { first := some 4000000 }, by decide +kernel, by decide +kernel, by decide +kernel, by decide +kernel, by decide +kernel, by decide +kernel, by decide +kernel, by decide +kernel, by decide +kernel, ⟨3, by decide +kernel⟩⟩

theorem witness_GroupsScanAtMultiplesOfTheirPeriod_3 :
    ∃ (g : Nat) (f : Nat) (sc : Scan) (s : State), g < 16 ∧ s.acquiring = true ∧ s.on (F.AFS_GRPg_CFG_EN g) = true ∧ s.tick % s.get (F.AFS_GRPg_PERIOD_S g) = 0 ∧ (s.grp g).first = some f ∧ f ≤ s.tick ∧ (s.grp g).scan = some sc ∧ sc.slot = none ∧ s.logRoom 3 :=
  ⟨15, 4000000, { start := 1, todo := [3], next := 4000000 }, scanHub { first := some 4000000, scan := some { start := 1, todo := [3], next := 4000000 } }, by and_intros <;> decide +kernel⟩

theorem witness_SlotsConvertAndRelease_0 :
    ∃ (g : Nat) (i : Nat) (code : BitVec 24) (v1 : Int) (v2 : Int) (v3 : Int) (v4 : Int) (sc : Scan) (rest : List Nat) (s : State), (s.grp g).scan = some sc ∧ sc.slot = none ∧ sc.todo = i :: rest ∧ sc.next ≤ s.tick ∧ s.acquiring = true ∧ (s.grp g).takeover = none :=
  ⟨15, 3, 5, 1, 2, 3, 4, { start := 1, todo := [3], next := 4000000 }, [], scanHub { scan := some { start := 1, todo := [3], next := 4000000 } }, by and_intros <;> decide +kernel⟩

theorem witness_SlotsConvertAndRelease_1 :
    ∃ (g : Nat) (sc : Scan) (sl : SlotRun) (s : State), (s.grp g).scan = some sc ∧ sc.slot = some sl ∧ sl.start + sl.len ≤ s.tick ∧ s.acquiring = true ∧ sl.failed = false :=
  ⟨15, { start := 1, todo := [3], next := 4000000, slot := some { input := 2, start := 3999000, len := 500 } }, { input := 2, start := 3999000, len := 500 }, scanHub { scan := some { start := 1, todo := [3], next := 4000000, slot := some { input := 2, start := 3999000, len := 500 } } }, by and_intros <;> decide +kernel⟩

theorem witness_SlotsConvertAndRelease_2 :
    ∃ (g : Nat) (sc : Scan) (sl : SlotRun) (s : State), (s.grp g).scan = some sc ∧ sc.slot = some sl ∧ sl.start + sl.len ≤ s.tick ∧ s.acquiring = true ∧ sl.failed = true :=
  ⟨15, failedScan, failedSlot, scanHub { scan := some failedScan }, by and_intros <;> decide +kernel⟩

theorem witness_SlotsConvertAndRelease_3 :
    ∃ (ch : Nat) (s : State), 256 ≤ ch ∧ ch < 512 ∧ s.liveMode = true ∧ s.on (F.CH_SIN_CFG_EN ch) = false ∧ s.journalFull = false ∧ s.slowEnOk ch = true :=
  ⟨511, hub .run 4000000, by and_intros <;> decide +kernel⟩

theorem witness_SlotsConvertAndRelease_4 :
    ∃ (ch : Nat) (s : State), 256 ≤ ch ∧ ch < 512 ∧ s.liveMode = true ∧ s.on (F.CH_SIN_CFG_EN ch) = false ∧ s.journalFull = false ∧ s.slowEnOk ch = false :=
  ⟨511, (hub .run 4000000).put (F.CH_SIN_CFG_REF 510) 2, by and_intros <;> decide +kernel⟩

theorem witness_SlotsConvertAndRelease_5 :
    ∃ (ch : Nat) (s : State), 256 ≤ ch ∧ ch < 512 ∧ s.liveMode = true ∧ s.on (F.CH_SIN_CFG_EN ch) = true ∧ s.journalFull = false :=
  ⟨511, (hub .run 4000000).put (F.CH_SIN_CFG_EN 511) 1, by and_intros <;> decide +kernel⟩

theorem witness_SlotsConvertAndRelease_6 :
    ∃ (ch : Nat) (s : State), 256 ≤ ch ∧ ch < 512 ∧ s.liveMode = true ∧ s.journalFull = true :=
  ⟨511, { hub .run 4000000 with red := { (hub .run 0).red with journal := List.replicate 1024 (1, .srcArm 0) } }, by and_intros <;> decide +kernel⟩

theorem witness_ReferenceInputsAreGuarded_0 :
    ∃ (g : Nat) (i : Nat) (s : State), g < 16 ∧ i < 15 ∧ s.liveMode = true ∧ s.journalFull = false ∧ s.get (F.CH_SIN_CFG_REF (256 + 16 * g + i)) = 2 ∧ s.on (F.CH_SIN_CFG_EN (256 + 16 * g + 15)) = false :=
  ⟨15, 14, (hub .run 4000000).put (F.CH_SIN_CFG_REF 510) 2, by and_intros <;> decide +kernel⟩

theorem witness_ReferenceInputsAreGuarded_1 :
    ∃ (g : Nat) (i : Nat) (v : Word) (s : State), g < 16 ∧ i < 15 ∧ s.liveMode = true ∧ s.sys.unchecked = none ∧ s.get (F.CH_SIN_CFG_REF (256 + 16 * g + i)) = 2 ∧ (F.CH_SIN_CFG_EN (256 + 16 * g + 15)).ofWord v = 1 :=
  ⟨15, 14, (F.CH_SIN_CFG_EN 511).into 0#32 1, (hub .run 4000000).put (F.CH_SIN_CFG_REF 510) 2, by and_intros <;> decide +kernel⟩

theorem witness_ReferenceInputsAreGuarded_2 :
    ∃ (g : Nat) (i : Nat) (v : Word) (s : State), g < 16 ∧ i < 15 ∧ s.liveMode = true ∧ s.sys.unchecked = none ∧ s.on (F.CH_SIN_CFG_EN (256 + 16 * g + 15)) = true ∧ (F.CH_SIN_CFG_REF (256 + 16 * g + i)).ofWord v = 2 :=
  ⟨15, 14, (F.CH_SIN_CFG_REF 510).into 0#32 2, (hub .run 4000000).put (F.CH_SIN_CFG_EN 511) 1, by and_intros <;> decide +kernel⟩

theorem witness_ConvertersFailOnceAndSparesTakeOver_0 :
    ∃ (g : Nat) (k : Nat) (s : State), g < 16 ∧ k < 3 ∧ (s.grp g).exc.look k = none ∧ s.excRuns g k s.tick = true ∧ s.logRoom 4 :=
  ⟨15, 2, excHub, by and_intros <;> decide +kernel⟩

theorem witness_ConvertersFailOnceAndSparesTakeOver_1 :
    ∃ (g : Nat) (k : Nat) (f : Nat) (s : State), g < 16 ∧ k < 3 ∧ (s.grp g).exc.look k = some f ∧ s.logRoom 4 :=
  ⟨15, 2, 5, scanHub { exc := [(2, 5)] }, by and_intros <;> decide +kernel⟩

theorem witness_ConvertersFailOnceAndSparesTakeOver_2 :
    ∃ (q : Nat) (s : State), s.live = true ∧ q < 18 ∧ s.part.convs.contains q = false :=
  ⟨17, hub .run 4000000, by and_intros <;> decide +kernel⟩

theorem witness_ConvertersFailOnceAndSparesTakeOver_3 :
    ∃ (g : Nat) (q : Nat) (sc : Scan) (s : State), g < 16 ∧ q < 18 ∧ (s.grp g).scan = some sc ∧ sc.slot = none ∧ sc.todo ≠ [] ∧ sc.next ≤ s.tick ∧ s.acquiring = true ∧ (s.grp g).takeover = some q ∧ s.logRoom 4 :=
  ⟨15, 17, { start := 1, todo := [3], next := 4000000 }, scanHub { takeover := some 17, scan := some { start := 1, todo := [3], next := 4000000 } }, by and_intros <;> decide +kernel⟩

theorem witness_CoefficientSetsChangeAtFrames_0 :
    ∃ (s : State), s.running = true ∧ s.tick % 2000 = 0 ∧ s.cal.due.any (fun e => decide (e.1 ≤ s.tick)) = true :=
  ⟨{ hub .run 4000000 with cal := { due := [(4000000, 2, {})] } }, by and_intros <;> decide +kernel⟩

theorem witness_CoefficientSetsChangeAtFrames_1 :
    ∃ (s : State), s.sys.mode = .trim ∧ s.tick % 2000 = 0 ∧ s.cal.announced = false ∧ s.cal.due.all (fun e => decide (s.tick < e.1)) = true :=
  ⟨hub .trim 4000000, by and_intros <;> decide +kernel⟩

theorem witness_CoefficientSetsChangeAtFrames_2 :
    ∃ (s : State), s.running = true ∧ s.tick % 120000000 = 0 ∧ s.cal.due.all (fun e => decide (s.tick < e.1)) = true ∧ s.cal.hist.head?.any (fun e => decide (e.1 = s.tick)) = false :=
  ⟨hub .run 120000000, by and_intros <;> decide +kernel⟩

theorem witness_CalibrationRunsInItsSlots_0 :
    ∃ (s : State), s.running = true ∧ s.tick % 1050000 = 0 ∧ s.on F.CAL_CTRL_RT_EN = true ∧ (∀ b, b < 8 → (s.cal.rt.val {} b).input = none) :=
  ⟨(hub .run 1050000).put F.CAL_CTRL_RT_EN 1, by and_intros <;> decide +kernel⟩

theorem witness_CalibrationRunsInItsSlots_1 :
    ∃ (s : State), s.running = true :=
  ⟨hub .limp 4000000, by decide +kernel⟩

theorem witness_CalibrationRunsInItsSlots_2 :
    ∃ (s : State), s.liveMode = true ∧ s.tick + 2 < s.rd64 R.CAL_FZ_TICK_LO :=
  ⟨(hub .run 4000000).wr R.CAL_FZ_TICK_LO 4000003#32, by and_intros <;> decide +kernel⟩

theorem witness_CalibrationRunsInItsSlots_3 :
    ∃ (s : State), s.liveMode = true ∧ s.rd64 R.CAL_FZ_TICK_LO ≤ s.tick + 2 :=
  ⟨(hub .run 4000000).wr R.CAL_FZ_TICK_LO 4000002#32, by and_intros <;> decide +kernel⟩

theorem witness_CalibrationRunsInItsSlots_4 :
    ∃ (z : FzRun) (s : State), s.cal.fzRun = some z ∧ z.start + fzTicks ≤ s.tick ∧ z.cause = 0 ∧ 0 < z.n ∧ s.fzFits z.ch (s.cal.cur.fz.val 0 z.ch + rhe (z.sum - z.z * z.n) z.n) = true :=
  ⟨{ ch := 191, start := 3934464, n := 65536, sum := 65536 }, { hub .run 4000000 with cal := { fzRun := some { ch := 191, start := 3934464, n := 65536, sum := 65536 } } }, by and_intros <;> decide +kernel⟩

theorem witness_CalibrationRunsInItsSlots_5 :
    ∃ (z : FzRun) (s : State), s.cal.fzRun = some z ∧ z.start + fzTicks ≤ s.tick ∧ z.cause ≠ 0 ∧ z.cause < 8 :=
  ⟨{ ch := 191, start := 3934464, cause := 4 }, { hub .run 4000000 with cal := { fzRun := some { ch := 191, start := 3934464, cause := 4 } } }, by and_intros <;> decide +kernel⟩

theorem witness_CalibrationRunsInItsSlots_6 :
    ∃ (ch : Nat) (s : State), ch < 192 ∧ s.liveMode = true :=
  ⟨191, hub .run 4000000, by and_intros <;> decide +kernel⟩

theorem witness_TriggersEnterTheJournal_0 :
    ∃ (i : Nat) (rising : Bool) (back : Nat) (s : State), i < 4 ∧ s.running = true ∧ s.core.pos ≤ s.tick ∧ s.red.bump = none ∧ s.hist.trgEdge.look i = none :=
  ⟨3, true, 0, hub .run 4000000, by and_intros <;> decide +kernel⟩

theorem witness_TriggersEnterTheJournal_1 :
    ∃ (i : Nat) (rising : Bool) (back : Nat) (e : Nat) (s : State), i < 4 ∧ s.hist.trgEdge.look i = some e ∧ s.tim.frc - back < e + 100 * 65536 :=
  ⟨3, true, 0, 1, { hub .run 4000000 with hist := { trgEdge := [(3, 1)] } }, by and_intros <;> decide +kernel⟩

theorem witness_TriggersEnterTheJournal_2 :
    ∃ (q : Nat) (tick : Nat) (s : State), q < 16 ∧ s.running = true ∧ s.journalFull = false ∧ s.core.pos ≤ s.tick ∧ s.tick < tick :=
  ⟨15, 4000001, hub .run 4000000, by and_intros <;> decide +kernel⟩

theorem witness_TriggersEnterTheJournal_3 :
    ∃ (q : Nat) (tick : Nat) (s : State), q < 16 ∧ s.running = true ∧ s.journalFull = false ∧ s.core.pos ≤ s.tick ∧ tick ≤ s.tick :=
  ⟨15, 4000000, hub .run 4000000, by and_intros <;> decide +kernel⟩

theorem witness_TriggersEnterTheJournal_4 :
    ∃ (q : Nat) (tick : Nat) (s : State), q < 16 ∧ s.liveMode = true ∧ s.journalFull = true :=
  ⟨15, 4000001, { hub .run 4000000 with red := { (hub .run 0).red with journal := List.replicate 1024 (1, .srcArm 0) } }, by and_intros <;> decide +kernel⟩

theorem witness_TriggersEnterTheJournal_5 :
    ∃ (ident : Nat) (stamp : Nat) (s : State), s.running = true ∧ s.hist.held = [(ident, stamp)] ∧ s.tick = stamp + 2 ∧ s.core.pos < s.tick :=
  ⟨5, 3999998, { hub .run 4000000 with hist := { held := [(5, 3999998)] }, core := { (hub .run 4000000).core with pos := 3999999 } }, by and_intros <;> decide +kernel⟩

theorem witness_TriggersEnterTheJournal_6 :
    ∃ (ident : Nat) (stamp : Nat) (s : State), s.running = false ∧ s.hist.held = [(ident, stamp)] ∧ stamp + 2 ≤ s.tick :=
  ⟨5, 3999998, { hub .trim 4000000 with hist := { held := [(5, 3999998)] } }, by and_intros <;> decide +kernel⟩

theorem witness_TriggersEnterTheJournal_7 :
    ∃ (ident : Nat) (stamp : Nat) (s : State), s.running = true ∧ s.hist.held = [(ident, stamp)] ∧ stamp + 2 ≤ s.tick ∧ s.core.pos = s.tick ∧ s.red.bump = none :=
  ⟨5, 3999998, { hub .run 4000000 with hist := { held := [(5, 3999998)] } }, by and_intros <;> decide +kernel⟩

theorem witness_TriggersEnterTheJournal_8 :
    ∃ (q : Nat) (s : State), q < 16 ∧ s.running = true ∧ s.autoDue (s.core.pos + 1) q = true ∧ s.sys.unchecked = none ∧ (s.coreRun s.coreDue).sys.unchecked = none :=
  ⟨15, autoHub, by and_intros <;> decide +kernel⟩

theorem witness_TriggersEnterTheJournal_9 :
    ∃ (ext : Bool) (t : Nat) (q : Nat) (s : State), q < 16 ∧ ((s.core.srcs.val {} q).armed = false ∨ s.holdPassed t q = false) :=
  ⟨true, 4000000, 15, hub .run 4000000, by and_intros <;> decide +kernel⟩

theorem witness_TriggersEnterTheJournal_10 :
    ∃ (ext : Bool) (t : Nat) (q : Nat) (s : State), q < 16 ∧ (s.core.srcs.val {} q).armed = true ∧ s.holdPassed t q = true ∧ ((s.srcComb t q = true ∧ (s.core.srcs.val {} q).comb = false) ∨ s.autoDue t q = true) :=
  ⟨true, 4000000, 15, autoHub, by and_intros <;> decide +kernel⟩

theorem witness_ConditionsAndSparesAreWritten_0 :
    ∃ (c : Nat) (v : Word) (s : State), c < 64 ∧ s.sys.mode = .run ∧ s.sys.unchecked = none ∧ s.cndGuarded c = false ∧ s.journalFull = false :=
  ⟨63, 5, hub .run 4000000, by and_intros <;> decide +kernel⟩

theorem witness_ConditionsAndSparesAreWritten_1 :
    ∃ (c : Nat) (v : Word) (s : State), c < 64 ∧ s.running = true ∧ s.sys.unchecked = none ∧ s.cndGuarded c = true :=
  ⟨0, 5, { hub .run 4000000 with core := { pos := 4000000, srcs := [(15, { armed := true })] } }, by and_intros <;> decide +kernel⟩

theorem witness_ConditionsAndSparesAreWritten_2 :
    ∃ (b : Nat) (i : Nat) (s : State), b < 8 ∧ i < 24 ∧ s.running = true ∧ s.sys.unchecked = none ∧ s.get (F.AFF_BANKb_STAT_SPARE_STATE b) = 0 :=
  ⟨7, 23, hub .run 4000000, by and_intros <;> decide +kernel⟩

theorem witness_ConditionsAndSparesAreWritten_3 :
    ∃ (b : Nat) (v : Word) (s : State), b < 8 ∧ s.running = true ∧ s.sys.unchecked = none ∧ 2 ≤ s.get (F.AFF_BANKb_STAT_SPARE_STATE b) :=
  ⟨7, 1, (hub .run 4000000).put (F.AFF_BANKb_STAT_SPARE_STATE 7) 2, by and_intros <;> decide +kernel⟩

theorem witness_DescriptorsAreAllocatedInCyclicOrder_0 :
    ∃ (s : State) (t : Nat) (d : Nat) (k : Nat), s.hist.lastDesc = some k ∧ s.nextDesc t = some d :=
  ⟨{ hub .run 4000000 with hist := { lastDesc := some 254 } }, 4000000, 255, 254, by and_intros <;> decide +kernel⟩

theorem witness_DescriptorsAreAllocatedInCyclicOrder_1 :
    ∃ (s : State) (t : Nat) (d : Nat), s.hist.lastDesc = none ∧ s.nextDesc t = some d :=
  ⟨hub .run 4000000, 4000000, 0, by and_intros <;> decide +kernel⟩

theorem witness_DescriptorsAreAllocatedInCyclicOrder_2 :
    ∃ (s : State) (t : Nat), s.nextDesc t = none :=
  ⟨{ hub .run 4000000 with hist := { wins := (List.range 256).map fun i => (i, { state := 1 }) } }, 4000000, by decide +kernel⟩

theorem witness_WindowsCloseAndAreReadOut_0 :
    ∃ (d : Nat) (s : State), (s.win d).state = 1 ∧ (s.win d).reqL < (s.win d).lastP :=
  ⟨255, winHub { state := 1, reqL := 5, lastP := 6 }, by and_intros <;> decide +kernel⟩

theorem witness_WindowsCloseAndAreReadOut_1 :
    ∃ (d : Nat) (s : State), s.liveMode = true ∧ (s.win d).request = true ∧ (s.win d).state = 1 :=
  ⟨255, winHub { state := 1, request := true }, by and_intros <;> decide +kernel⟩

theorem witness_WindowsCloseAndAreReadOut_2 :
    ∃ (d : Nat) (s : State), s.liveMode = true ∧ (s.win d).request = true ∧ (s.win d).state = 2 ∧ (s.win d).ready = false :=
  ⟨255, winHub { state := 2, request := true }, by and_intros <;> decide +kernel⟩

theorem witness_WindowsCloseAndAreReadOut_3 :
    ∃ (d : Nat) (s : State), s.liveMode = true ∧ 1 ≤ (s.win d).state ∧ (s.win d).state ≤ 3 ∧ (s.job d).win = none :=
  ⟨255, winHub { state := 3 }, by and_intros <;> decide +kernel⟩

theorem witness_WindowsCloseAndAreReadOut_4 :
    ∃ (d : Nat) (s : State), s.liveMode = true ∧ (s.win d).state = 3 ∧ (s.job d).win = some d ∧ (s.job d).state = 1 ∧ (s.job d).waiting = false ∧ s.jobs.all (fun e => e.1 == d || e.2.state != 1) = true :=
  ⟨255, { winHub { state := 3 } with jobs := [(255, { state := 1, win := some 255 })] }, by and_intros <;> decide +kernel⟩

theorem witness_WindowsCloseAndAreReadOut_5 :
    ∃ (d : Nat) (w : Nat) (s : State), (s.win d).written = some w ∧ (s.win d).state = 3 ∧ w < s.tick ∧ (s.job d).win = none :=
  ⟨255, 3999999, winHub { state := 3, written := some 3999999 }, by and_intros <;> decide +kernel⟩

theorem witness_WindowsCloseAndAreReadOut_6 :
    ∃ (d : Nat) (w : Nat) (s : State), (s.win d).written = some w ∧ (s.win d).state = 3 ∧ w < s.tick ∧ (s.job d).win = some d ∧ (s.job d).state = 3 ∧ s.queued = [] :=
  ⟨255, 3999999, { winHub { state := 3, written := some 3999999 } with jobs := [(255, { state := 3, win := some 255 })] }, by and_intros <;> decide +kernel⟩

theorem witness_WindowsCloseAndAreReadOut_7 :
    ∃ (d : Nat) (s : State), (s.win d).ready = true ∧ s.sys.mode ≠ .load ∧ s.sys.mode ≠ .dormant ∧ (s.win d).form ≠ 2 ∧ (s.win d).state = 2 ∧ ((s.win d).asked = true ∨ s.stk.poolOn = false) ∧ s.readsWait d = false ∧ s.nextOnStream d = true ∧ s.streamReadout (s.win d).stream = false :=
  ⟨255, winHub { state := 2, ready := true }, by and_intros <;> decide +kernel⟩

theorem witness_WindowsCloseAndAreReadOut_8 :
    ∃ (d : Nat) (s : State), (s.win d).ready = true ∧ s.sys.mode ≠ .load ∧ s.sys.mode ≠ .dormant ∧ (s.win d).form ≠ 2 ∧ (s.win d).state = 2 ∧ ((s.win d).asked = true ∨ s.stk.poolOn = false) ∧ s.readsWait d = false ∧ s.nextOnStream d = true ∧ s.streamReadout (s.win d).stream = true :=
  ⟨255, ((winHub { state := 2, ready := true }).put (F.NSP_STRm_CFG_KIND 0) 2).put (F.NSP_STRm_SPACE_UNITS 0) 1, by and_intros <;> decide +kernel⟩

theorem witness_WindowsCloseAndAreReadOut_9 :
    ∃ (d : Nat) (s : State), (s.win d).ready = true ∧ s.running = true ∧ (s.win d).form = 2 ∧ (s.win d).state = 2 ∧ ((s.win d).asked = true ∨ s.stk.poolOn = false) ∧ s.readsWait d = false ∧ ((s.job d).state = 1 ∨ (s.job d).state = 2) :=
  ⟨255, { winHub { state := 2, ready := true, form := 2 } with jobs := [(255, { state := 1 })] }, by and_intros <;> decide +kernel⟩

theorem witness_WindowsCloseAndAreReadOut_10 :
    ∃ (d : Nat) (s : State), (s.win d).ready = true ∧ (s.win d).state = 2 ∧ (s.win d).asked = false ∧ s.stk.poolOn = true ∧ s.live = true ∧ s.hist.ring.any (fun e => s.slotBorrowed e.1 && decide ((s.win d).first ≤ e.2) && decide (e.2 < (s.win d).lastP)) = true :=
  ⟨255, borrowHub, by and_intros <;> decide +kernel⟩

theorem witness_WindowsCloseAndAreReadOut_11 :
    ∃ (d : Nat) (s : State), ((s.win d).ready = false ∨ ((s.win d).asked = true ∧ (s.win d).form ≠ 2 ∧ s.nextOnStream d = false)) :=
  ⟨255, winHub { state := 2 }, by decide +kernel⟩

theorem witness_BlockChecksFollowTheCrcRule_4 :
    ∃ (xs : List FrbSample) (ys : List FrbSample), xs.map (·.1) = ys.map (·.1) :=
  ⟨[(1, 0)], [(1, 0)], by decide +kernel⟩

theorem witness_CompressionJobsRunToAnEnd_0 :
    ∃ (j : Nat) (s : State), j < 256 ∧ s.liveMode = true ∧ s.jobHeld j = false ∧ s.sys.unchecked = none ∧ s.rangeBad (s.rd (R.CMP_JOBj_IN j)).toNat (s.rd (R.CMP_JOBj_IN_LEN j)).toNat = false ∧ s.rangeBad (s.rd (R.CMP_JOBj_OUT j)).toNat (s.rd (R.CMP_JOBj_OUT_LEN j)).toNat = false ∧ regionsMeet (s.rd (R.CMP_JOBj_IN j)).toNat (s.rd (R.CMP_JOBj_IN_LEN j)).toNat (s.rd (R.CMP_JOBj_OUT j)).toNat (s.rd (R.CMP_JOBj_OUT_LEN j)).toNat = false :=
  ⟨255, jobHub 1 0 16 4096 16, by and_intros <;> decide +kernel⟩

theorem witness_CompressionJobsRunToAnEnd_1 :
    ∃ (j : Nat) (s : State), j < 256 ∧ s.liveMode = true ∧ s.jobHeld j = false ∧ s.sys.unchecked = none ∧ s.rangeBad (s.rd (R.CMP_JOBj_IN j)).toNat (s.rd (R.CMP_JOBj_IN_LEN j)).toNat = true :=
  ⟨255, jobHub 1 0x10000000 1 0 0, by and_intros <;> decide +kernel⟩

theorem witness_CompressionJobsRunToAnEnd_2 :
    ∃ (j : Nat) (s : State), j < 256 ∧ s.liveMode = true ∧ s.jobHeld j = false ∧ s.sys.unchecked = none ∧ s.rangeBad (s.rd (R.CMP_JOBj_IN j)).toNat (s.rd (R.CMP_JOBj_IN_LEN j)).toNat = false ∧ s.rangeBad (s.rd (R.CMP_JOBj_OUT j)).toNat (s.rd (R.CMP_JOBj_OUT_LEN j)).toNat = false ∧ regionsMeet (s.rd (R.CMP_JOBj_IN j)).toNat (s.rd (R.CMP_JOBj_IN_LEN j)).toNat (s.rd (R.CMP_JOBj_OUT j)).toNat (s.rd (R.CMP_JOBj_OUT_LEN j)).toNat = true :=
  ⟨255, jobHub 1 0 16 60 16, by and_intros <;> decide +kernel⟩

theorem witness_CompressionJobsRunToAnEnd_3 :
    ∃ (j : Nat) (s : State), j < 256 ∧ s.liveMode = true ∧ s.jobHeld j = true ∧ s.sys.unchecked = none :=
  ⟨255, { hub .run 4000000 with jobs := [(255, { state := 2 })] }, by and_intros <;> decide +kernel⟩

theorem witness_CompressionJobsRunToAnEnd_4 :
    ∃ (j : Nat) (u : Nat) (s : State), s.queued.find? (fun i => (s.job i).canStart && s.jobEncodes i == s.jobEncodes j) = some j ∧ s.freeUnit (s.jobEncodes j) = some u :=
  ⟨255, 0, { hub .run 4000000 with jobs := [(255, { state := 1 })] }, by and_intros <;> decide +kernel⟩

theorem witness_CompressionJobsRunToAnEnd_5 :
    ∃ (j : Nat) (s : State), (s.job j).state = 2 ∧ (s.job j).win = none ∧ (s.job j).ext = none ∧ (s.job j).waiting = false ∧ (s.jobRun j).err = 0 ∧ (s.jobRun j).done.all (fun b => decide (b.k ≤ s.get F.CMP_CTRL_KMAX)) = true ∧ s.queued = [] :=
  ⟨255, runHub, by and_intros <;> decide +kernel⟩

theorem witness_CompressionJobsRunToAnEnd_6 :
    ∃ (j : Nat) (s : State), j < 256 ∧ (s.job j).state = 2 ∧ (s.job j).win = none ∧ (s.job j).waiting = false ∧ (s.jobRun j).err ≠ 0 ∧ (s.jobRun j).done.all (fun b => decide (b.k ≤ s.get F.CMP_CTRL_KMAX)) = true ∧ s.queued = [] :=
  ⟨255, badHub, by and_intros <;> decide +kernel⟩

theorem witness_CompressionJobsRunToAnEnd_7 :
    ∃ (j : Nat) (s : State), j < 256 ∧ s.liveMode = true ∧ (s.job j).win = none ∧ (s.job j).state = 1 ∧ (s.job j).waiting = false ∧ s.jobs.all (fun e => e.1 == j || e.2.state != 1) = true :=
  ⟨255, { hub .run 4000000 with jobs := [(255, { state := 1 })] }, by and_intros <;> decide +kernel⟩

theorem witness_CompressionJobsRunToAnEnd_8 :
    ∃ (j : Nat) (s : State), (s.job j).state = 2 ∧ (s.job j).win = none ∧ (s.job j).waiting = false ∧ s.queued = [] :=
  ⟨255, { hub .run 4000000 with jobs := [(255, { state := 2 })] }, by and_intros <;> decide +kernel⟩

theorem witness_DatagramsAreFormedAndSent_0 :
    ∃ (m : Nat) (r : Placed) (recs : List Placed) (rest : List Placed) (s : State), s.streaming = true ∧ s.streamLive m = true ∧ s.red.bump = none ∧ s.red.active.isSome = true ∧ s.nextLive m = (r :: recs, rest) ∧ s.closes m = true ∧ s.epochIn (r.key.place / 250) = true ∧ s.mergeMember = false :=
  ⟨15, { key := { place := 3999500 }, words := [1#32] }, [], [], ({ hub .run 4000000 with net := { streams := [(15, { placed := [{ key := { place := 3999500 }, words := [1#32] }] })] } }).put (F.NSP_STRm_CFG_KIND 15) 1 |>.put (F.NSP_STRm_SPACE_UNITS 15) 1, by and_intros <;> decide +kernel⟩

theorem witness_DatagramsAreFormedAndSent_1 :
    ∃ (port : Nat) (m : Nat) (q : Nat) (d : Dgram) (s : State), s.portReady port = true ∧ s.sys.mode ≠ .load ∧ s.firstWaiting port .data = some (m, q) ∧ m < 16 ∧ s.dgram m q = some d :=
  ⟨0, 15, 4, { seq := 4, words := [1#32] }, sendHub 1, by and_intros <;> decide +kernel⟩

theorem witness_DatagramsAreFormedAndSent_2 :
    ∃ (port : Nat) (q : Nat) (s : State), s.portReady port = true ∧ s.sys.mode ≠ .load ∧ s.firstWaiting port .data = some (16, q) :=
  ⟨0, 7, { hub .run 4000000 with net := { upNet with sendq := [(0, [(16, 7)])], fwd := [(7, { words := [1#32] })] } }, by and_intros <;> decide +kernel⟩

theorem witness_DatagramsAreFormedAndSent_3 :
    ∃ (port : Nat) (r : Range) (s : State), port < 2 ∧ s.get F.NSP_CTRL_MODE ≠ 0 ∧ s.portReady port = true ∧ s.sys.mode ≠ .load ∧ s.firstWaiting port .data = none ∧ s.net.retx = [r] ∧ r.next ≤ r.last ∧ (s.portsFor r.stream).contains port = true ∧ s.eligible r.stream r.next = true :=
  ⟨0, { stream := 15, next := 4, last := 5 }, { (sendHub 1).put F.NSP_CTRL_MODE 1 with net := { upNet with streams := [(15, { ring := [{ seq := 4, words := [1#32] }] })], retx := [{ stream := 15, next := 4, last := 5 }] } }, by and_intros <;> decide +kernel⟩

theorem witness_DatagramsAreFormedAndSent_4 :
    ∃ (r : Range) (s : State), s.get F.NSP_CTRL_MODE = 0 ∧ s.funnelled = false ∧ s.linkUp 0 = true ∧ s.linkUp 1 = true ∧ s.sys.mode ≠ .load ∧ s.firstWaiting 1 .data = none ∧ s.net.retx = [r] ∧ r.next ≤ r.last ∧ r.next1 ≤ r.last ∧ s.eligible r.stream r.next1 = true :=
  ⟨{ stream := 15, next := 5, last := 5, next1 := 4 }, { (sendHub 1).put F.NSP_CTRL_MODE 0 with net := { upNet with streams := [(15, { ring := [{ seq := 4, words := [1#32] }] })], retx := [{ stream := 15, next := 5, last := 5, next1 := 4 }] } }, by and_intros <;> decide +kernel⟩

theorem witness_DatagramsAreFormedAndSent_5 :
    ∃ (port : Nat) (m : Nat) (q : Nat) (d : Dgram) (s : State), s.portReady port = true ∧ s.sys.mode ≠ .load ∧ s.firstWaiting port .data = none ∧ s.net.retx = [] ∧ s.firstWaiting port .retransmit = none ∧ s.firstWaiting port .readout = some (m, q) ∧ m < 16 ∧ s.dgram m q = some d :=
  ⟨0, 15, 4, { seq := 4, words := [1#32] }, sendHub 2, by and_intros <;> decide +kernel⟩

theorem witness_DatagramsAreFormedAndSent_6 :
    ∃ (m : Nat) (d : Dgram) (rest : List Dgram) (s : State), m < 16 ∧ (s.stream m).lostNow = d :: rest ∧ (s.stream m).lostAt / 250 < s.tick / 250 ∧ s.logRoom 4 :=
  ⟨15, { seq := 4, words := [1#32] }, [], { hub .run 4000000 with net := { streams := [(15, { lostNow := [{ seq := 4, words := [1#32] }], lostAt := 3999500 })] } }, by and_intros <;> decide +kernel⟩

theorem witness_LinksComeUpFailAndAnswer_0 :
    ∃ (port : Nat) (rate10 : Bool) (gt : Nat) (gr : Nat) (s : State), port < 2 ∧ s.portUsed port = true ∧ (s.link port).up = false ∧ s.triesSpeed port rate10 = true ∧ s.logRoom 4 :=
  ⟨1, true, 3, 4, (hub .run 4000000).put (F.NSP_UPx_CFG_EN 1) 1, by and_intros <;> decide +kernel⟩

theorem witness_LinksComeUpFailAndAnswer_1 :
    ∃ (port : Nat) (cause : Nat) (s : State), port < 2 ∧ (s.link port).up = true :=
  ⟨1, 0, { hub .run 4000000 with net := upNet }, by and_intros <;> decide +kernel⟩

theorem witness_LinksComeUpFailAndAnswer_2 :
    ∃ (port : Nat) (cause : Nat) (k : Nat) (s : State), port < 2 ∧ (s.link port).up = false ∧ s.portUsed port = true ∧ s.live = true ∧ s.get F.NSP_CTRL_MODE ≠ 0 ∧ s.portUsed (1 - port) = true ∧ k < 16 ∧ (s.stream k).port = port ∧ s.get (F.NSP_STRm_CFG_KIND k) ≠ 0 ∧ s.get (F.NSP_STRm_SPACE_UNITS k) ≠ 0 :=
  ⟨1, 0, 15, ((({ (hub .run 4000000).put F.NSP_CTRL_MODE 1 with net := { streams := [(15, { port := 1 })] } }).put (F.NSP_UPx_CFG_EN 0) 1).put (F.NSP_UPx_CFG_EN 1) 1).put (F.NSP_STRm_CFG_KIND 15) 1 |>.put (F.NSP_STRm_SPACE_UNITS 15) 1, by and_intros <;> decide +kernel⟩

theorem witness_LinksComeUpFailAndAnswer_3 :
    ∃ (port : Nat) (s : State), port < 2 ∧ s.portUsed port = true ∧ (s.link port).up = false ∧ (s.link port).tested = false ∧ (s.link port).downAt + 20000000 ≤ s.tick :=
  ⟨1, (hub .run 20000000).put (F.NSP_UPx_CFG_EN 1) 1, by and_intros <;> decide +kernel⟩

theorem witness_LinksComeUpFailAndAnswer_5 :
    ∃ (port : Nat) (s : State), port < 2 ∧ s.part.linkOos.contains port = false :=
  ⟨1, hub .run 4000000, by and_intros <;> decide +kernel⟩

theorem witness_LinksComeUpFailAndAnswer_6 :
    ∃ (port : Nat) (v6 : Bool) (src : Nat) (echo : List Word) (s : State), port < 2 ∧ s.linkUp port = true ∧ s.ipOf port v6 ≠ 0 ∧ ((s.link port).echoAt ≠ s.tick / 2000000 ∨ (s.link port).echoN < 100) :=
  ⟨1, false, 9, [5#32], (({ hub .run 4000000 with net := upNet }).put (F.NSP_UPx_IP4_CFG_VALUE 1) 1).wr (R.NSP_UPx_IP4 1) 0xA000001#32, by and_intros <;> decide +kernel⟩

theorem witness_LinksComeUpFailAndAnswer_7 :
    ∃ (port : Nat) (v6 : Bool) (addr : BitVec 128) (s : State), port < 2 ∧ s.linkUp port = true ∧ s.ipOf port v6 ≠ 0 ∧ s.ipOf port v6 = addr.toNat :=
  ⟨1, false, 0xA000001, (({ hub .run 4000000 with net := upNet }).put (F.NSP_UPx_IP4_CFG_VALUE 1) 1).wr (R.NSP_UPx_IP4 1) 0xA000001#32, by and_intros <;> decide +kernel⟩

theorem witness_LinksComeUpFailAndAnswer_8 :
    ∃ (port : Nat) (s : State), s.linkUp port = true :=
  ⟨1, { hub .run 4000000 with net := upNet }, by decide +kernel⟩

theorem witness_LinksComeUpFailAndAnswer_9 :
    ∃ (port : Nat) (s : State), port < 2 ∧ s.linkUp port = true :=
  ⟨1, netHub, by and_intros <;> decide +kernel⟩

theorem witness_RegistersAreReadAndWritten_0 :
    ∃ (r : Req) (a : Word) (c : Word) (s : State), s.Serves 0x10 r true ∧ r.words = [a, c] ∧ 1 ≤ c.toNat % 512 ∧ c.toNat % 512 ≤ 256 ∧ badRange a.toNat (c.toNat % 512) = false :=
  ⟨req [0#32, 256#32], 0, 256, netHub, serves_of (by decide +kernel), by and_intros <;> decide +kernel⟩

theorem witness_RegistersAreReadAndWritten_1 :
    ∃ (r : Req) (a : Word) (c : Word) (s : State), s.Serves 0x10 r true ∧ r.words = [a, c] ∧ (c.toNat % 512 = 0 ∨ 256 < c.toNat % 512 ∨ badRange a.toNat (c.toNat % 512) = true) :=
  ⟨req [0#32, 257#32], 0, 257, netHub, serves_of (by decide +kernel), by and_intros <;> decide +kernel⟩

theorem witness_RegistersAreReadAndWritten_2 :
    ∃ (r : Req) (k : Resp) (s : State), s.sys.porst = false ∧ s.sys.mode ≠ .load ∧ r.svc = false ∧ s.portReady r.port = true ∧ r.port < 2 ∧ s.names r = true ∧ s.sys.steward = true ∧ s.kept 0x10 r = some k :=
  ⟨req [0#32, 1#32], { src := 2, typ := 0x10, seq := 5 }, { netHub with net := { upNet with resps := [{ src := 2, typ := 0x10, seq := 5 }] } }, by and_intros <;> decide +kernel⟩

theorem witness_RegistersAreReadAndWritten_3 :
    ∃ (r : Req) (a : Word) (v : Word) (w : Option Nat) (t0 : State) (s : State), s.Serves 0x11 r true ∧ r.words = [a, 1#32, v] ∧ r.firstTick = 0 ∧ s.liveMode = true ∧ badRange a.toNat 1 = false ∧ setsPriv a.toNat v = false ∧ s.writeReg false r.svc 0 a.toNat v = (w, t0) ∧ t0.sys.unchecked = none :=
  ⟨req [wd R.TIM_ASYM_THR, 1#32, 32768#32], wd R.TIM_ASYM_THR, 32768, none, { netHub.wr R.TIM_ASYM_THR 32768#32 with sys := { netHub.sys with wrote := [(R.TIM_ASYM_THR, netHub.rd R.TIM_ASYM_THR)] } }, netHub, serves_of (by decide +kernel), by and_intros <;> decide +kernel⟩

theorem witness_RegistersAreReadAndWritten_4 :
    ∃ (r : Req) (a : Word) (v : Word) (s : State), s.Serves 0x11 r true ∧ r.words = [a, 1#32, v] ∧ s.liveMode = true ∧ badRange a.toNat 1 = false ∧ setsPriv a.toNat v = false ∧ timedAddr a.toNat = true ∧ s.tick + 2 < r.firstTick ∧ bothOf (match rowAt a.toNat with | some row => row.base | none => a.toNat) v = false ∧ s.net.timed.length < 64 ∧ s.journalFull = false ∧ s.sys.unchecked = none :=
  ⟨{ req [wd (R.TRG_SRCq_CTRL 15), 1#32, 1#32] with firstTick := 4000003 }, wd (R.TRG_SRCq_CTRL 15), 1, netHub, serves_of (by decide +kernel), by and_intros <;> decide +kernel⟩

theorem witness_RegistersAreReadAndWritten_5 :
    ∃ (T : Nat) (q : Nat) (s : State), s.running = true ∧ q < 16 ∧ s.net.timed = [(T, R.TRG_SRCq_CTRL q, s.rd (R.TRG_SRCq_CTRL q) &&& ~~~3#32 ||| 1#32)] ∧ T = s.tick ∧ s.journalFull = false ∧ s.core.pos < s.tick ∧ s.sys.unchecked = none :=
  ⟨4000000, 15, { hub .run 4000000 with core := { (hub .run 4000000).core with pos := 3999999 }, net := { timed := [(4000000, R.TRG_SRCq_CTRL 15, (hub .run 4000000).rd (R.TRG_SRCq_CTRL 15) &&& ~~~3#32 ||| 1#32)] } }, by and_intros <;> decide +kernel⟩

theorem witness_RegistersAreReadAndWritten_6 :
    ∃ (T : Nat) (q : Nat) (s : State), s.running = true ∧ q < 16 ∧ s.net.timed = [(T, R.TRG_SRCq_CTRL q, s.rd (R.TRG_SRCq_CTRL q) &&& ~~~3#32 ||| 1#32)] ∧ T ≤ s.tick ∧ s.journalFull = false ∧ s.core.pos = s.tick ∧ s.red.bump = none ∧ s.sys.unchecked = none :=
  ⟨4000000, 15, { hub .run 4000000 with net := { timed := [(4000000, R.TRG_SRCq_CTRL 15, (hub .run 4000000).rd (R.TRG_SRCq_CTRL 15) &&& ~~~3#32 ||| 1#32)] } }, by and_intros <;> decide +kernel⟩

theorem witness_RegistersAreReadAndWritten_7 :
    ∃ (v : Word) (s : State), s.liveMode = true ∧ s.sys.unchecked = none ∧ 32768 ≤ v.toNat :=
  ⟨32768, hub .run 4000000, by and_intros <;> decide +kernel⟩

theorem witness_RegistersAreReadAndWritten_8 :
    ∃ (v : Word) (s : State), s.liveMode = true ∧ s.sys.unchecked = none ∧ v.toNat < 32768 :=
  ⟨32767, hub .run 4000000, by and_intros <;> decide +kernel⟩

theorem witness_RegistersAreReadAndWritten_9 :
    ∃ (v : Word) (s : State), s.liveMode = true ∧ s.sys.unchecked = none :=
  ⟨3, hub .run 4000000, by and_intros <;> decide +kernel⟩

theorem witness_RegistersAreReadAndWritten_10 :
    ∃ (a : Nat) (v : Word) (s : State), s.liveMode = true ∧ s.sys.unchecked = none ∧ a % 4 = 0 ∧ a < 0xF0000 ∧ rowAt a = none :=
  ⟨0xEFFFC, 5, hub .run 4000000, by and_intros <;> decide +kernel⟩

theorem witness_RegistersAreReadAndWritten_11 :
    ∃ (a : Nat) (v : Word) (s : State), s.liveMode = false :=
  ⟨0, 5, hub .hold 4000000, by decide +kernel⟩

theorem witness_RegistersAreReadAndWritten_12 :
    ∃ (r : Req) (o : Word) (n : Word) (s : State), s.Serves 0x12 r true ∧ r.words = [0#32, o, 0#32, n] ∧ n.toNat % 4 = 0 ∧ n.toNat ≤ s.blockMax r ∧ o.toNat + n.toNat ≤ s.rawBytes :=
  ⟨req [0#32, 4#32, 0#32, 8#32], 4, 8, netHub.put F.HST_REGIONS_RAW 1, serves_of (by decide +kernel), by and_intros <;> decide +kernel⟩

theorem witness_RegistersAreReadAndWritten_13 :
    ∃ (type : BitVec 8) (r : Req) (s : State), opTypes.contains type.toNat = false ∧ s.Serves type.toNat r true :=
  ⟨0x70, req [], netHub, by decide +kernel, serves_of (by decide +kernel)⟩

theorem witness_SessionsAndTheServicePort_0 :
    ∃ (r : Req) (w0 : Word) (a : Word) (b : Word) (c : Word) (d : Word) (s : State), s.Serves 0x20 r true ∧ r.words = [w0, a, b, c, d] ∧ s.lockedOut r.svc = false ∧ s.net.sessions.length + s.net.chals.length < 4 ∧ s.hmacSlotOk (w0.toNat % 4) = true :=
  ⟨req [3#32, 1#32, 2#32, 3#32, 4#32], 3, 1, 2, 3, 4, { netHub with part := { hk := [[], [], [], List.replicate 32 1] } }, serves_of (by decide +kernel), by and_intros <;> decide +kernel⟩

theorem witness_SessionsAndTheServicePort_1 :
    ∃ (r : Req) (id : Word) (tc : List Word) (k : Chal) (s : State), s.Serves 0x21 r true ∧ r.words = id :: tc ∧ tc.length = 8 ∧ s.net.chals.find? (fun k => k.id == id) = some k ∧ s.hmacSlotOk k.slot = true ∧ wordBytes tc = hmac256 (s.part.hk.getD k.slot []) (s.authText lwa1 id k.nc k.nh) :=
  ⟨req (9#32 :: rightTag), 9, rightTag, aChal, chalHub, serves_of (by decide +kernel), by and_intros <;> decide +kernel⟩

theorem witness_SessionsAndTheServicePort_2 :
    ∃ (r : Req) (id : Word) (tc : List Word) (k : Chal) (s : State), s.Serves 0x21 r true ∧ r.words = id :: tc ∧ tc.length = 8 ∧ s.net.chals.find? (fun k => k.id == id) = some k ∧ wordBytes tc ≠ hmac256 (s.part.hk.getD k.slot []) (s.authText lwa1 id k.nc k.nh) :=
  ⟨req (9#32 :: List.replicate 8 0#32), 9, List.replicate 8 0#32, aChal, chalHub, serves_of (by decide +kernel), by and_intros <;> decide +kernel⟩

theorem witness_SessionsAndTheServicePort_3 :
    ∃ (id : Word) (s : State), s.net.sessions.any (fun k => k.id == id && decide (k.last + 120000000 ≤ s.tick)) = true ∧ s.upd.lock ≠ some id :=
  ⟨9, { hub .run 120000000 with net := { sessions := [{ id := 9#32 }] } }, by and_intros <;> decide +kernel⟩

theorem witness_SessionsAndTheServicePort_4 :
    ∃ (svc : Bool) (src : Nat) (e : Nat) (s : State), s.net.lockout = [(svc, e)] :=
  ⟨false, 0, 5, { hub .run 4000000 with net := { lockout := [(false, 5)] } }, by decide +kernel⟩

theorem witness_SessionsAndTheServicePort_5 :
    ∃ (s : State), s.sys.porst = false :=
  ⟨hub .run 4000000, by decide +kernel⟩

theorem witness_SessionsAndTheServicePort_6 :
    ∃ (bytes : List Byte) (s : State), s.net.svcState ≠ 0 :=
  ⟨[], { hub .run 4000000 with net := { svcState := 2 } }, by decide +kernel⟩

theorem witness_SessionsAndTheServicePort_7 :
    ∃ (bytes : List Byte) (s : State), s.sys.porst = false ∧ s.net.svcState = 0 ∧ s.svcParse bytes = none :=
  ⟨[], hub .run 4000000, by and_intros <;> decide +kernel⟩

theorem witness_SessionsAndTheServicePort_8 :
    ∃ (bytes : List Byte) (r : Req) (a : Word) (c : Word) (s : State), s.net.svcState = 0 ∧ s.svcParse bytes = some (0x10, r) ∧ s.Serves 0x10 r true ∧ s.sys.unchecked = none ∧ r.words = [a, c] ∧ 1 ≤ c.toNat % 512 ∧ c.toNat % 512 ≤ 256 ∧ badRange a.toNat (c.toNat % 512) = false :=
  ⟨svcRead, svcReadReq, 0, 1, hub .run 4000000, by decide +kernel, by decide +kernel, serves_of (by decide +kernel), by and_intros <;> decide +kernel⟩

theorem witness_SessionsAndTheServicePort_9 :
    ∃ (n : Nat) (s : State), s.sys.porst = false :=
  ⟨2, hub .run 4000000, by decide +kernel⟩

theorem witness_SessionsAndTheServicePort_10 :
    ∃ (s : State), s.sys.porst = false :=
  ⟨hub .run 4000000, by decide +kernel⟩

theorem witness_UpdatesAndLogsAreServed_0 :
    ∃ (r : Req) (s : State), s.liveMode = true ∧ s.net.sessions = [] :=
  ⟨req [], netHub, by and_intros <;> decide +kernel⟩

theorem witness_UpdatesAndLogsAreServed_1 :
    ∃ (r : Req) (t0 : State) (s : State), s.Serves 0x30 r true ∧ s.updMode = true ∧ r.words.length = 134 ∧ s.authTrailer 0x30 128 r = .inl t0 ∧ t0.upd.lock = none ∧ t0.upd.trial = false ∧ t0.flashes ≠ [] :=
  ⟨signed 0x30 (List.replicate 128 0#32), sealedAfter {}, sealedHub {}, serves_of (by decide +kernel), by and_intros <;> decide +kernel⟩

theorem witness_UpdatesAndLogsAreServed_2 :
    ∃ (r : Req) (off : Word) (len : Word) (data : List Word) (t0 : State) (s : State), s.Serves 0x31 r true ∧ s.updMode = true ∧ s.authTrailer 0x31 (r.words.length - 6) r = .inl t0 ∧ r.words.take (r.words.length - 6) = off :: len :: data ∧ 4 ≤ len.toNat ∧ len.toNat ≤ 1024 ∧ data.length * 4 = len.toNat ∧ len.toNat % 4 = 0 ∧ t0.upd.lock = some (trailerId (r.words.length - 6) r) ∧ t0.upd.stage = 1 ∧ t0.pwr.bracing = none ∧ t0.flashes ≠ [] ∧ off.toNat = t0.upd.next ∧ off.toNat + len.toNat < 0x200 + hdrTable t0.upd.hdr ∧ t0.upd.table.length + 0x200 = off.toNat ∧ 0x200 + hdrTable t0.upd.hdr ≤ 0x10000 :=
  ⟨signed 0x31 [0x200#32, 4#32, 7#32], 0x200, 4, [7#32], sealedAfter chunkUpd, sealedHub chunkUpd, serves_of (by decide +kernel), by and_intros <;> decide +kernel⟩

theorem witness_UpdatesAndLogsAreServed_3 :
    ∃ (r : Req) (t0 : State) (s : State), s.Serves 0x32 r true ∧ s.updMode = true ∧ r.words.length = 7 ∧ s.authTrailer 0x32 1 r = .inl t0 ∧ r.words.head? = some 2#32 ∧ t0.upd.lock = some (trailerId 1 r) ∧ t0.upd.stage = 1 :=
  ⟨signed 0x32 [2#32], sealedAfter { lock := some 9#32, stage := 1 }, sealedHub { lock := some 9#32, stage := 1 }, serves_of (by decide +kernel), by and_intros <;> decide +kernel⟩

theorem witness_UpdatesAndLogsAreServed_4 :
    ∃ (r : Req) (t0 : State) (s : State), s.Serves 0x32 r true ∧ s.updMode = true ∧ r.words.length = 7 ∧ s.authTrailer 0x32 1 r = .inl t0 ∧ r.words.head? = some 1#32 ∧ t0.upd.lock = some (trailerId 1 r) ∧ t0.upd.stage = 1 ∧ t0.flashes ≠ [] ∧ hdrChunks t0.upd.hdr ≤ t0.upd.done ∧ t0.upd.inflight = 0 :=
  ⟨signed 0x32 [1#32], sealedAfter { lock := some 9#32, stage := 1 }, sealedHub { lock := some 9#32, stage := 1 }, serves_of (by decide +kernel), by and_intros <;> decide +kernel⟩

theorem witness_UpdatesAndLogsAreServed_5 :
    ∃ (r : Req) (first : Word) (n : Word) (s : State), s.Serves 0x40 r true ∧ r.words = [3#32, first, n] ∧ 1 ≤ n.toNat % 64 ∧ n.toNat % 64 ≤ 44 :=
  ⟨req [3#32, 0#32, 44#32], 0, 44, netHub, serves_of (by decide +kernel), by and_intros <;> decide +kernel⟩

theorem witness_UpdatesAndLogsAreServed_6 :
    ∃ (r : Req) (t0 : State) (s : State), s.Serves 0x41 r true ∧ r.words.length = 9 ∧ s.authTrailer 0x41 3 r = .inl t0 ∧ r.words.head? = some 0x434C5241#32 ∧ t0.logTakes 0 = true ∧ t0.log.clear = none :=
  ⟨signed 0x41 [0x434C5241#32, 1#32, 2#32], sealedAfter {}, sealedHub {}, serves_of (by decide +kernel), by and_intros <;> decide +kernel⟩

theorem witness_TriggersSyncsAndAcknowledgements_0 :
    ∃ (r : Req) (w : Word) (s : State), s.Serves 0x50 r false ∧ r.words = [w] ∧ s.running = true ∧ r.firstTick < s.tick ∧ s.journalFull = false ∧ s.hist.dedup = [] ∧ s.core.pos ≤ s.tick :=
  ⟨{ req [7#32] with firstTick := 3999999 }, 7, netHub, serves_of (by decide +kernel), by and_intros <;> decide +kernel⟩

theorem witness_TriggersSyncsAndAcknowledgements_1 :
    ∃ (r : Req) (w : Word) (s : State), s.Serves 0x50 r false ∧ r.words = [w] ∧ s.running = true ∧ s.tick ≤ r.firstTick ∧ r.firstTick ≤ s.tick + 7200000000 ∧ s.hist.dedup = [] ∧ s.hist.held.length < 16 ∧ s.journalFull = false :=
  ⟨{ req [7#32] with firstTick := 4000000 }, 7, netHub, serves_of (by decide +kernel), by and_intros <;> decide +kernel⟩

theorem witness_TriggersSyncsAndAcknowledgements_2 :
    ∃ (r : Req) (w : Word) (e : Nat) (s : State), s.Serves 0x50 r false ∧ r.words = [w] ∧ s.running = true ∧ r.firstTick ≤ s.tick ∧ s.hist.dedup = [(w.toNat % 256, r.firstTick, e)] ∧ s.tick ≤ e + 2000000 :=
  ⟨{ req [7#32] with firstTick := 4000000 }, 7, 4000000, { netHub with hist := { dedup := [(7, 4000000, 4000000)] } }, serves_of (by decide +kernel), by and_intros <;> decide +kernel⟩

theorem witness_TriggersSyncsAndAcknowledgements_3 :
    ∃ (r : Req) (s : State), s.Serves 0x51 r false ∧ r.words = [] ∧ s.liveMode = true ∧ s.tick + 2 < r.firstTick ∧ s.journalFull = false :=
  ⟨{ req [] with firstTick := 4000003 }, netHub, serves_of (by decide +kernel), by and_intros <;> decide +kernel⟩

theorem witness_TriggersSyncsAndAcknowledgements_4 :
    ∃ (r : Req) (s : State), s.Serves 0x51 r false ∧ r.words = [] ∧ s.liveMode = true ∧ r.firstTick ≤ s.tick + 2 :=
  ⟨{ req [] with firstTick := 4000002 }, netHub, serves_of (by decide +kernel), by and_intros <;> decide +kernel⟩

theorem witness_TriggersSyncsAndAcknowledgements_5 :
    ∃ (r : Req) (m : Nat) (a : Word) (b : Word) (s : State), s.Serves 0x60 r false ∧ m < 16 ∧ r.words = [wd (m + 256), a, b] ∧ s.live = true ∧ s.get (F.NSP_STRm_CFG_KIND m) ≠ 0 ∧ s.net.retx = [] ∧ 1 ≤ b.toNat / 65536 ∧ (s.stream m).oldest ≤ a.toNat + b.toNat % 65536 * 2 ^ 32 ∧ a.toNat + b.toNat % 65536 * 2 ^ 32 + b.toNat / 65536 ≤ (s.stream m).seq :=
  ⟨req [wd (15 + 256), 4#32, 0x10000#32], 15, 4, 0x10000, ({ netHub with net := { upNet with streams := [(15, { ring := [{ seq := 4 }], seq := 5 })] } }).put (F.NSP_STRm_CFG_KIND 15) 1, serves_of (by decide +kernel), by and_intros <;> decide +kernel⟩

theorem witness_TriggersSyncsAndAcknowledgements_6 :
    ∃ (r : Req) (m : Nat) (a : Word) (b : Word) (s : State), s.Serves 0x61 r false ∧ r.svc = false ∧ m < 16 ∧ r.words = [wd m, a, b] ∧ s.live = true ∧ s.get (F.NSP_STRm_CFG_KIND m) = 1 ∧ s.ackSet m = true ∧ a.toNat + b.toNat % 65536 * 2 ^ 32 < (s.stream m).seq :=
  ⟨req [wd 15, 4#32, 0#32], 15, 4, 0, (({ netHub with net := { upNet with streams := [(15, { ring := [{ seq := 4 }], seq := 5 })] } }).put (F.NSP_STRm_CFG_KIND 15) 1).put (F.NSP_STRm_CFG_ACK 15) 1, serves_of (by decide +kernel), by and_intros <;> decide +kernel⟩

theorem witness_StackPortsTrainAndFail_0 :
    ∃ (x : Nat) (p : BitVec 4) (neigh : BitVec 12) (id : BitVec 16) (s : State), s.sys.porst = false ∧ x < 2 ∧ s.stk.deputy = false ∧ s.posFits x p.toNat = true ∧ id.toNat = s.get F.STK_CTRL_TROUPE_ID ∧ s.logRoom 4 :=
  ⟨1, 1, 9, 0, hub .run 4000000, by and_intros <;> decide +kernel⟩

theorem witness_StackPortsTrainAndFail_1 :
    ∃ (x : Nat) (p : BitVec 4) (neigh : BitVec 12) (id : BitVec 16) (s : State), s.sys.porst = false ∧ x < 2 ∧ s.stk.deputy = false ∧ (s.posFits x p.toNat = false ∨ id.toNat ≠ s.get F.STK_CTRL_TROUPE_ID) ∧ s.logRoom 8 :=
  ⟨1, 2, 9, 0, hub .run 4000000, by and_intros <;> decide +kernel⟩

theorem witness_StackPortsTrainAndFail_2 :
    ∃ (x : Nat) (l : Nat) (s : State), s.sys.porst = false ∧ x < 2 ∧ l < 4 ∧ s.badLanes x = [] :=
  ⟨1, 3, hub .run 4000000, by and_intros <;> decide +kernel⟩

theorem witness_StackPortsTrainAndFail_3 :
    ∃ (x : Nat) (l : Nat) (s : State), s.sys.porst = false ∧ x < 2 ∧ l < 5 ∧ s.badLanes x ≠ [] ∧ (s.badLanes x).contains l = false :=
  ⟨1, 4, { hub .run 4000000 with part := { lanes := [(1, 2)] } }, by and_intros <;> decide +kernel⟩

theorem witness_StackPortsTrainAndFail_4 :
    ∃ (x : Nat) (s : State), x < 2 ∧ (s.stkPort x).up = true ∧ s.logRoom 4 :=
  ⟨1, stkHub 0, by and_intros <;> decide +kernel⟩

theorem witness_StackPortsTrainAndFail_5 :
    ∃ (lane : Nat) (w : Nat) (h : Nat) (c : Nat) (a : Bool) (s : State), s.sys.porst = false ∧ lane < 12 ∧ 20 ≤ w ∧ w < 128 ∧ 25 ≤ h ∧ h < 1024 :=
  ⟨11, 127, 1023, 5, true, hub .run 4000000, by and_intros <;> decide +kernel⟩

theorem witness_StackPortsTrainAndFail_6 :
    ∃ (x : Nat) (l : Nat) (b : Nat) (w : Nat) (h : Nat) (c : Nat) (a : Bool) (s : State), s.sys.porst = false ∧ x < 2 ∧ l < 5 ∧ (w < 20 ∨ h < 25) ∧ (s.stkPort x).lowFrom.look l = some b ∧ b + 2000000 ≤ s.tick ∧ (s.badLanes x).contains l = false :=
  ⟨1, 4, 2000000, 19, 25, 5, true, { hub .run 4000000 with stk := { ports := [(1, { lowFrom := [(4, 2000000)] })] } }, by and_intros <;> decide +kernel⟩

theorem witness_StackPortsTrainAndFail_7 :
    ∃ (x : Nat) (ws : List Word) (s : State), s.sys.porst = false ∧ x < 2 ∧ (s.stkPort x).up = true :=
  ⟨1, [], stkHub 0, by and_intros <;> decide +kernel⟩

theorem witness_StackPortsTrainAndFail_8 :
    ∃ (x : Nat) (ws : List Word) (q : BitVec 16) (p : Tx) (s : State), s.sys.porst = false ∧ x < 2 ∧ (s.stkPort x).up = true ∧ (s.stkPort x).replay = [p] ∧ (s.stkPort x).waiting = [] ∧ (s.stkPort x).linkSeq = (q.toNat + 1) % 65536 :=
  ⟨1, [], 5, { words := [9#32] }, nackHub, by and_intros <;> decide +kernel⟩

theorem witness_StackPortsTrainAndFail_9 :
    ∃ (x : Nat) (w0 : Word) (w1 : Word) (payload : List Word) (s : State), s.sys.porst = false ∧ x < 2 ∧ (s.stkPort x).up = true ∧ (s.stkPort x).waiting = [] ∧ w0.toNat % 16 = 0 ∧ w0.toNat < 2 ^ 27 ∧ payload.length ≤ 1024 ∧ w0.toNat / 65536 % 2048 = payload.length ∧ w0.toNat / 4096 % 16 = s.sys.pos ∧ s.sys.pos < 15 ∧ w0.toNat / 256 % 16 < s.get F.STK_STAT_SIZE ∧ w1.toNat % 65536 = ((s.stkPort x).ackSeq + 1) % 65536 :=
  ⟨1, 0x10000#32, 0, [7#32], stkHub 0, by and_intros <;> decide +kernel⟩

theorem witness_StackPortsTrainAndFail_11 :
    ∃ (p : Nat) (s : State), s.sys.porst = false ∧ s.merges = true ∧ s.creditPos = some p :=
  ⟨1, { (((stkHub 0).put F.STK_CTRL_FUNNEL 2).put F.STK_STAT_SIZE 2) with stk := { ports := [(1, { up := true })], drains := [{ cut := 3999000, desc := 0, pos := 1 }] } }, by and_intros <;> decide +kernel⟩

theorem witness_StackPortsTrainAndFail_12 :
    ∃ (pos : Nat) (live : Bool) (again : Bool) (d : Fwd) (s : State), s.sys.porst = false ∧ s.sys.mode ≠ .load ∧ s.leads = true ∧ s.get F.STK_CTRL_FUNNEL ≠ 0 ∧ (s.stkPort 1).up = true ∧ pos < 16 :=
  ⟨1, true, false, aFwd, { (stkHub 0).put F.STK_CTRL_FUNNEL 1 with net := { links := [(0, { up := true })] } }, by and_intros <;> decide +kernel⟩

theorem witness_StackPortsTrainAndFail_13 :
    ∃ (r : Req) (s : State), s.leads = false ∧ s.sys.unchecked = none ∧ s.Serves 0x40 { r with svc := false, port := 3 } true ∧ r.words.length ≠ 3 :=
  ⟨req [], joinedHub, by decide +kernel, by decide +kernel, serves_of (by decide +kernel), by decide +kernel⟩

theorem witness_MembersFollowTheClockBus_0 :
    ∃ (rt : Nat) (s : State), s.sys.porst = false ∧ s.leads = false ∧ (s.stkPort 0).up = true ∧ 0 ≤ s.hopDelay rt ∧ s.hopDelay rt ≤ 5600 * 131072 :=
  ⟨0, joinedHub, by and_intros <;> decide +kernel⟩

theorem witness_MembersFollowTheClockBus_1 :
    ∃ (rt : Nat) (s : State), s.sys.porst = false ∧ s.leads = false ∧ (s.stkPort 0).up = true ∧ (s.hopDelay rt < 0 ∨ 5600 * 131072 < s.hopDelay rt) ∧ s.stk.hop ≠ some false ∧ s.onBus = false ∧ s.logRoom 4 :=
  ⟨2 ^ 31, { joinedHub with stk := { joinedHub.stk with lock := false } }, by and_intros <;> decide +kernel⟩

theorem witness_MembersFollowTheClockBus_2 :
    ∃ (rt : Nat) (s : State), s.sys.porst = false ∧ (s.stkPort 1).up = true ∧ rt < 2 ^ 32 ∧ s.stk.rttFrame ≠ some (s.tick / 2000) :=
  ⟨2 ^ 32 - 1, stkHub 0, by and_intros <;> decide +kernel⟩

theorem witness_MembersFollowTheClockBus_3 :
    ∃ (rt : Nat) (s : State), s.sys.porst = false ∧ (s.stkPort 1).up = true ∧ rt < 2 ^ 32 ∧ s.stk.rttFrame = some (s.tick / 2000) :=
  ⟨2 ^ 32 - 1, { stkHub 0 with stk := { (stkHub 0).stk with rttFrame := some 2000 } }, by and_intros <;> decide +kernel⟩

theorem witness_MembersFollowTheClockBus_4 :
    ∃ (s : State), s.sys.porst = false ∧ s.leads = false ∧ s.stk.hop = some true ∧ s.stk.tapFrame ≠ some (s.tick / 2000) :=
  ⟨{ joinedHub with stk := { joinedHub.stk with hop := some true } }, by and_intros <;> decide +kernel⟩

theorem witness_MembersFollowTheClockBus_5 :
    ∃ (w1 : Word) (w2 : Word) (w3 : Word) (s : State), s.sys.porst = false ∧ s.leads = false ∧ (s.stkPort 0).up = true ∧ (s.stkPort 1).up = false ∧ s.stk.lock = false ∧ s.stk.hop = some true ∧ s.stk.far = false ∧ s.live = true ∧ s.joinable (s.busDiff (w1.toNat + w2.toNat * 2 ^ 32)) = true :=
  ⟨4001000, 0, 0, { stkHub 2 with stk := { ports := [(0, { up := true })], hop := some true } }, by and_intros <;> decide +kernel⟩

theorem witness_MembersFollowTheClockBus_6 :
    ∃ (w1 : Word) (w2 : Word) (w3 : Word) (s : State), s.sys.porst = false ∧ s.leads = false ∧ (s.stkPort 0).up = true ∧ (s.stkPort 1).up = false ∧ s.stk.lock = false ∧ s.stk.hop = some true ∧ s.stk.far = false ∧ s.live = true ∧ s.joinable (s.busDiff (w1.toNat + w2.toNat * 2 ^ 32)) = false ∧ s.logRoom 3 :=
  ⟨0, 0, 0, { stkHub 2 with stk := { ports := [(0, { up := true })], hop := some true } }, by and_intros <;> decide +kernel⟩

theorem witness_MembersFollowTheClockBus_7 :
    ∃ (ws : List Word) (s : State), s.sys.porst = false ∧ s.leads = true ∧ s.stk.deputy = false ∧ s.live = true ∧ s.tick % 2000 = 1000 ∧ s.portQuiet 1 :=
  ⟨[], { stkHub 0 with tick := 4001000 }, by and_intros <;> decide +kernel⟩

theorem witness_MembersFollowTheClockBus_8 :
    ∃ (s : State), s.sys.porst = false ∧ s.onBus = true ∧ s.sys.pos ≠ 1 :=
  ⟨joinedHub, by and_intros <;> decide +kernel⟩

theorem witness_MembersFollowTheClockBus_9 :
    ∃ (s : State), s.sys.porst = false ∧ s.onBus = true ∧ s.sys.pos = 1 ∧ s.on F.STK_CTRL_DEPUTY = true ∧ s.joined = true ∧ s.live = true :=
  ⟨({ joinedHub with sys := { joinedHub.sys with pos := 1 } }).put F.STK_CTRL_DEPUTY 1, by and_intros <;> decide +kernel⟩

theorem witness_MembersFollowTheClockBus_10 :
    ∃ (s : State), s.stk.deputy = true ∧ s.liveMode = true :=
  ⟨{ stkHub 1 with stk := { deputy := true } }, by and_intros <;> decide +kernel⟩

theorem witness_MembersFollowTheClockBus_11 :
    ∃ (f : Nat) (s : State), s.stk.frameTick = some f ∧ s.live = true ∧ s.stk.deputy = true ∧ s.stk.resume = true ∧ s.tick % 2000 = 0 ∧ s.joinable (((s.tick : Int) - (f : Int)) * 500 * 2 ^ 64) = true :=
  ⟨4000000, { stkHub 1 with stk := { deputy := true, resume := true, frameTick := some 4000000 } }, by and_intros <;> decide +kernel⟩

theorem witness_TheTroupeSharesTriggersPoolAndStreams_0 :
    ∃ (T : Nat) (l : BitVec 8) (s : State), s.live = true ∧ s.joined = true ∧ s.stk.busQ = [] :=
  ⟨5, 1, joinedHub, by and_intros <;> decide +kernel⟩

theorem witness_TheTroupeSharesTriggersPoolAndStreams_1 :
    ∃ (T : Nat) (l : BitVec 8) (e : BusEv) (s : State), s.live = true ∧ s.joined = true ∧ s.stk.busQ = [e] ∧ s.tick ≤ e.stamp + 33554431 :=
  ⟨3999999, 1, { stamp := 4000000, lines := 2 }, { joinedHub with stk := { joinedHub.stk with busQ := [{ stamp := 4000000, lines := 2 }] } }, by and_intros <;> decide +kernel⟩

theorem witness_TheTroupeSharesTriggersPoolAndStreams_2 :
    ∃ (T : Nat) (l : BitVec 8) (s : State), s.running = true ∧ s.joined = true ∧ s.leads = false ∧ s.stk.busQ = [] ∧ s.tick < T + s.get F.TRG_CTRL_BUS_LAT ∧ s.core.pos ≤ s.tick ∧ s.get F.TRG_CTRL_MODE ≠ 2 :=
  ⟨3999999, 1, joinedHub.put F.TRG_CTRL_BUS_LAT 8, by and_intros <;> decide +kernel⟩

theorem witness_TheTroupeSharesTriggersPoolAndStreams_3 :
    ∃ (T : Nat) (a : Nat) (l : BitVec 8) (s : State), s.running = true ∧ s.joined = true ∧ s.leads = false ∧ s.stk.busQ = [] ∧ s.tick < T + s.get F.TRG_CTRL_BUS_LAT ∧ s.core.pos ≤ s.tick ∧ s.get F.TRG_CTRL_MODE = 2 ∧ s.stk.armedAny = some a ∧ a ≤ T + s.get F.TRG_CTRL_BUS_LAT :=
  ⟨3999999, 3999000, 1, { joinedHub.put F.TRG_CTRL_MODE 2 with stk := { joinedHub.stk with armedAny := some 3999000 } } |>.put F.TRG_CTRL_BUS_LAT 8, by and_intros <;> decide +kernel⟩

theorem witness_TheTroupeSharesTriggersPoolAndStreams_4 :
    ∃ (T : Nat) (s : State), s.live = true ∧ s.joined = true ∧ s.leads = false ∧ s.tick + 2 ≤ T ∧ T ≤ s.tick + 524287 ∧ s.journalFull = false :=
  ⟨4000009, joinedHub, by and_intros <;> decide +kernel⟩

theorem witness_TheTroupeSharesTriggersPoolAndStreams_5 :
    ∃ (T : Nat) (s : State), s.live = true ∧ s.leads = true ∧ s.stk.merged = none ∧ s.stk.ctrlQ = [(2, T)] ∧ s.tick + 2 ≤ T ∧ T ≤ s.tick + 524287 ∧ s.journalFull = false :=
  ⟨4000009, { stkHub 0 with stk := { (stkHub 0).stk with ctrlQ := [(2, 4000009)] } }, by and_intros <;> decide +kernel⟩

theorem witness_TheTroupeSharesTriggersPoolAndStreams_6 :
    ∃ (s : State), s.live = true ∧ s.leads = true ∧ s.get F.TRG_CTRL_MODE = 2 ∧ s.stk.armedAny = none ∧ s.stk.rearmAt.getD 0 ≤ s.tick + 3 :=
  ⟨(stkHub 0).put F.TRG_CTRL_MODE 2, by and_intros <;> decide +kernel⟩

theorem witness_TheTroupeSharesTriggersPoolAndStreams_7 :
    ∃ (s : State), s.stk.poolOn = true ∧ 500 ≤ s.ownBytes ∧ s.stk.poolBuf.any (fun e => decide (e.2.1 + 64 ≤ s.tick)) = true :=
  ⟨({ hub .run 4000000 with stk := { poolOn := true, poolBuf := [(1, 3999936, 0)] } }).put F.HST_REGIONS_RAW 1, by and_intros <;> decide +kernel⟩

theorem witness_TheTroupeSharesTriggersPoolAndStreams_8 :
    ∃ (p : Nat) (e : Nat) (recs : List (Nat × Nat × List Word)) (fin : Bool) (s : State), s.sys.porst = false ∧ s.leads = true ∧ s.get F.STK_CTRL_FUNNEL = 2 ∧ p < 16 ∧ s.stk.dropped.toNat.testBit p = false ∧ s.sys.pos < p ∧ (s.stkPort 1).up = true ∧ s.stk.delivered.contains (p, e) = false :=
  ⟨1, 5, [], true, (stkHub 0).put F.STK_CTRL_FUNNEL 2, by and_intros <;> decide +kernel⟩

theorem witness_TheTroupeSharesTriggersPoolAndStreams_9 :
    ∃ (p : Nat) (e : Nat) (recs : List (Nat × Nat × List Word)) (fin : Bool) (s : State), s.sys.porst = false ∧ s.leads = true ∧ s.get F.STK_CTRL_FUNNEL = 2 ∧ p < 16 ∧ s.stk.dropped.toNat.testBit p = false ∧ s.sys.pos < p ∧ (s.stkPort 1).up = true ∧ s.stk.delivered.contains (p, e) = true :=
  ⟨1, 5, [], false, { (stkHub 0).put F.STK_CTRL_FUNNEL 2 with stk := { (stkHub 0).stk with delivered := [(1, 5)] } }, by and_intros <;> decide +kernel⟩

theorem witness_TheTroupeSharesTriggersPoolAndStreams_10 :
    ∃ (p : Nat) (s : State), s.sys.porst = false ∧ p < 16 ∧ s.get F.STK_CTRL_FUNNEL = 2 ∧ s.leads = true ∧ p ∈ s.mergePositions ∧ 4250 ≤ s.tick ∧ s.stk.delivered = [] ∧ s.logRoom 3 :=
  ⟨1, (stkHub 0).put F.STK_CTRL_FUNNEL 2, by and_intros <;> decide +kernel⟩

theorem witness_TheTroupeSharesTriggersPoolAndStreams_11 :
    ∃ (p : Nat) (s : State), s.sys.porst = false ∧ p < 16 ∧ s.leads = false ∧ p = s.sys.pos ∧ s.mergeMember = true :=
  ⟨2, ((joinedHub.put F.STK_CTRL_FUNNEL 2).put (F.NSP_UPx_CFG_EN 0) 0).put (F.NSP_UPx_CFG_EN 1) 0, by and_intros <;> decide +kernel⟩

end Sys2Proof.Tests
end

section
/-! SUPPORT. A tick of the hub's clock (log 2): what the work of a tick can change besides the clocks themselves. -/
namespace Sys2Proof.Machine

/-- What the work of a tick can change: registers, the levels of the outputs, the groups' sequencers, the sensors' counters, the records placed on
the streams, and staging; the register file stays canonical. -/
structure TickWork (s t : State) : Prop where
  rest : t = { s with
    regs := t.regs, slow := t.slow, sid := t.sid, net := t.net, log := t.log
    tim := { s.tim with tout := t.tim.tout, pps := t.tim.pps, slewing := t.tim.slewing } }
  canon : Regs.canon s.regs = true → Regs.canon t.regs = true

namespace TickWork

theorem refl (s : State) : TickWork s s := ⟨rfl, id⟩

theorem trans {s t u : State} (h : TickWork s t) (k : TickWork t u) : TickWork s u := by
  refine ⟨?_, fun c => k.canon (h.canon c)⟩
  rw [k.rest, h.rest]

theorem foldl {α : Type} {g : State → α → State} (hg : ∀ s a, TickWork s (g s a)) (l : List α) (s : State) : TickWork s (l.foldl g s) := by
  induction l generalizing s with
  | nil => exact refl s
  | cons a l ih => exact (hg s a).trans (ih _)

theorem ite {c : Prop} [Decidable c] {s t u : State} (ht : TickWork s t) (hu : TickWork s u) : TickWork s (if c then t else u) := by
  split
  · exact ht
  · exact hu

end TickWork

/-! The operations of which a tick's work is made. -/

theorem State.wr_work (s : State) (a : Nat) (v : Word) : TickWork s (s.wr a v) := ⟨rfl, fun h => State.wr_canon h a v⟩

theorem State.put_work (s : State) (f : Fld) (v : Nat) : TickWork s (s.put f v) := s.wr_work _ _

theorem State.flag_work (s : State) (f : Fld) : TickWork s (s.flag f) := s.put_work f 1

theorem State.wr64_work (s : State) (a v : Nat) : TickWork s (s.wr64 a v) := (s.wr_work _ _).trans (State.wr_work _ _ _)

theorem State.event_work (s : State) (code source : Nat) (fs : List LogF) : TickWork s (s.event code source fs) := by
  have h := s.event_only code source fs
  exact ⟨by rw [h.rest], h.canon⟩

theorem State.updSid_work (s : State) (ch : Nat) (f : Sid → Sid) : TickWork s (s.updSid ch f) := ⟨rfl, id⟩

theorem State.updGrp_work (s : State) (g : Nat) (f : Grp → Grp) : TickWork s (s.updGrp g f) := ⟨rfl, id⟩

theorem State.updTout_work (s : State) (t : Nat) (f : Tout → Tout) : TickWork s (s.updTout t f) := ⟨rfl, id⟩

theorem State.updStream_work (s : State) (m : Nat) (f : Stream → Stream) : TickWork s (s.updStream m f) := ⟨rfl, id⟩

theorem State.placeOn_work (s : State) (m : Nat) (key : RecKey) (words : List Word) : TickWork s (s.placeOn m key words) :=
  .ite (.refl s) (.ite (.refl s) (s.updStream_work _ _))

theorem State.placeShared_work (s : State) (rank place first : Nat) (words : Nat → List Word) :
    TickWork s (s.placeShared rank place first words) :=
  .foldl (fun s m => s.placeOn_work m _ _) _ s

theorem State.placeChan_work (s : State) (ch rank place first : Nat) (words : List Word) :
    TickWork s (s.placeChan ch rank place first words) :=
  .ite (s.placeOn_work _ _ _) (.ite (s.flag_work _) (.refl s))

theorem State.placeTime_work (s : State) (reason : Nat) : TickWork s (s.placeTime reason) :=
  .ite (s.placeShared_work _ _ _ _) (.refl s)

/-! The outputs and the status of the timescale (R76, R80, R84, R85). -/

theorem State.toutTick_work (s : State) (n t : Nat) : TickWork s (s.toutTick n t) :=
  .ite (.refl s) ((s.updTout_work t _).trans (State.put_work _ _ _))

theorem State.ppsTick_work (s : State) : TickWork s s.ppsTick := ⟨rfl, id⟩

theorem State.phaseTick_work (s : State) : TickWork s s.phaseTick := .ite (s.put_work _ _) (.refl s)

theorem State.putSlew_work (s : State) (b : Bool) : TickWork s (s.putSlew b) :=
  .trans (t := { s with tim := { s.tim with slewing := b } }) ⟨rfl, id⟩ (State.put_work _ _ _)

theorem State.slewCheck_work (s : State) : TickWork s s.slewCheck :=
  .ite ((s.putSlew_work true).trans (State.placeTime_work _ 2)) (.refl s)

/-! Life accounting and identity slots (R155, R161, R163). -/

theorem State.showSid_work (s : State) (ch : Nat) : TickWork s (s.showSid ch) :=
  (s.put_work _ _).trans <| (State.put_work _ _ _).trans <| (State.put_work _ _ _).trans <| (State.wr64_work _ _ _).trans <|
    (State.wr_work _ _ _).trans <| (State.wr_work _ _ _).trans <| (State.wr_work _ _ _).trans (State.wr_work _ _ _)

/-- An input's life passes a threshold (R162): its state, the alert bit, the event and REC_LIFE. -/
theorem State.lifeMark_work (s : State) (ch : Nat) (g : Sid → Sid) (f : Fld) (code source : Nat) (fs : List LogF) (reason : Nat) :
    TickWork s ((((s.updSid ch g).flag f).event code source fs).placeLife ch reason) :=
  (s.updSid_work ch g).trans <| (State.flag_work _ f).trans <| (State.event_work _ code source fs).trans (State.placeChan_work _ _ _ _ _ _)

theorem State.lifeCheck_work (s : State) (ch : Nat) : TickWork s (s.lifeCheck ch) :=
  .ite (s.showSid_work ch) <|
    (s.updSid_work ch _).trans <| (TickWork.ite (State.lifeMark_work _ ch _ _ _ _ _ 1) (.refl _)).trans <|
      (TickWork.ite (State.lifeMark_work _ ch _ _ _ _ _ 2) (.refl _)).trans (State.showSid_work _ ch)

theorem State.lifeTickFor_work (s : State) (t ch : Nat) : TickWork s (s.lifeTickFor t ch) :=
  .ite (.refl s) (.ite ((s.updSid_work ch _).trans (State.lifeCheck_work _ ch)) (s.updSid_work ch _))

theorem State.lifeTick_work (s : State) (t : Nat) : TickWork s (s.lifeTick t) :=
  .foldl (fun s ch => s.lifeTickFor_work t ch) _ s

theorem State.lifeDue_work (s : State) : TickWork s s.lifeDue := .ite ⟨rfl, id⟩ (.refl s)

theorem State.idGo_work (s : State) (chans : List Nat) (g : Nat) : TickWork s (s.idGo chans g) := by
  unfold State.idGo
  refine .ite (.refl s) ?_
  cases s.idNext g chans with
  | none => exact .refl s
  | some r => exact s.updGrp_work g _

theorem State.idTick_work (s : State) : TickWork s s.idTick :=
  .ite (.refl s) (.foldl (fun t g => t.idGo_work t.idChans g) _ s)

/-! The tick as a whole. -/

/-- The number that the clock bus gives a frame boundary (R312) touches the tick number, AT and the note that one came. -/
theorem State.busNumber_rest (s : State) :
    s.busNumber = { s with
      tick := s.busNumber.tick, stk := { s.stk with frameNew := s.busNumber.stk.frameNew }
      tim := { s.tim with atVal := s.busNumber.tim.atVal } } := by
  unfold State.busNumber
  dsimp only
  split
  · rfl
  · split
    · split <;> rfl
    · rfl

/-- Only a member of a troupe, at a boundary that FRAME marked, takes another tick number: the one FRAME named (R312). -/
theorem State.busNumber_tick (s : State) :
    s.busNumber.tick = s.tick ∨ s.onBus = true ∧ s.stk.frameNew = true ∧ s.stk.frameTick = some s.busNumber.tick := by
  unfold State.busNumber
  dsimp only
  split
  · exact .inl rfl
  case isFalse hb =>
    have new : s.stk.frameNew = true := by simpa using (not_or.mp hb).2
    split
    next f hf =>
      split
      next hc => exact .inr ⟨hc.1, new, hf⟩
      · exact .inl rfl
    · exact .inl rfl

/-- The state of a tick whose clocks have moved on (R5, R32, R312, R431) and whose other work is still to be done. -/
def State.clocked (s : State) : State :=
  let s1 := ({ s.advance s.tickInc with tick := s.tick + 1, sys := { s.sys with wrote := [] } } : State).busNumber
  { s1 with sys := { s1.sys with alert := s.alertNow } }

/-- Out of reset a tick moves the clocks and then does its work. -/
theorem State.tickClock_work (s : State) (h : s.sys.porst = false) : TickWork s.countSupplies.clocked s.tickClock := by
  have released : ¬ s.countSupplies.sys.porst = true := Bool.eq_false_iff.mp h
  unfold State.tickClock
  dsimp only
  rw [if_neg released]
  exact (TickWork.foldl (fun t i => t.toutTick_work _ i) _ _).trans <| (State.ppsTick_work _).trans <| (State.phaseTick_work _).trans <|
    (State.slewCheck_work _).trans <| (State.lifeTick_work _ _).trans <| (State.lifeDue_work _).trans (State.idTick_work _)

/-- The clocks move the tick number, what AT and the counter show, and how far AT is off the clock bus; the level of ALERT_N is kept (R431). -/
theorem State.clocked_rest (s : State) :
    s.clocked = { s with
      tick := s.clocked.tick, stk := s.clocked.stk, sys := { s.sys with wrote := [], alert := s.alertNow }
      tim := { s.tim with
        frc := s.tim.frc + s.tickInc, views := s.clocked.tim.views, atVal := s.clocked.tim.atVal, atRate := s.clocked.tim.atRate } } := by
  unfold State.clocked
  dsimp only
  rw [State.busNumber_rest]
  rfl

theorem State.clocked_tick (s : State) :
    s.clocked.tick = s.tick + 1 ∨ s.onBus = true ∧ s.stk.frameNew = true ∧ s.stk.frameTick = some s.clocked.tick :=
  State.busNumber_tick { s.advance s.tickInc with tick := s.tick + 1, sys := { s.sys with wrote := [] } }

/-- Until AT is set the counter gains 500 ns in a tick (R56). -/
theorem State.tickInc_unset (s : State) (h : s.tim.atSet = false) : s.tickInc = 500 * 2 ^ 16 := by simp [State.tickInc, h]

/-- With no command waiting a step is a tick of the clock, but where the hub's own comparators alone hold it in reset after it (R444). -/
theorem State.step_idle (s : State) (hp : s.pending = []) (h : (s.tickClock.sys.porst && s.tickClock.sys.relHeld) = false) :
    step s = .next s.tickClock := by
  simp [step, hp, State.idleStep, h]

/-- While PORST_N is asserted a tick runs the supply comparators alone (R444). -/
theorem State.tickClock_held (s : State) (h : s.sys.porst = true) : s.tickClock = s.countSupplies := if_pos h

end Sys2Proof.Machine

open Sys2Proof Sys2Proof.Machine

/-- Settles O2: with PORST_N asserted only the supplies are counted; out of reset the clocks move, and the rest of the tick's work touches nothing
that the statement names. -/
theorem emptyQueueLetsATickPass : Obligations.EmptyQueueLetsATickPass := by
  refine ⟨fun s hp hr hh => ?_, fun s hp hr => ?_⟩
  · have ht := s.tickClock_held hr
    exact ⟨s.tickClock, s.step_idle hp (by simp [ht, State.countSupplies, hh]), by rw [ht]; rfl, by rw [ht]; rfl⟩
  · have work := (s.tickClock_work hr).rest
    have clocks := s.countSupplies.clocked_rest
    have released : s.tickClock.sys.porst = false := by rw [work, clocks]; exact hr
    have pending : s.tickClock.pending = [] := by rw [work, clocks]; exact hp
    have tick := s.countSupplies.clocked_tick
    have frc (h : s.tim.atSet = false) : s.tickClock.tim.frc = s.tim.frc + 500 * 2 ^ 16 := by
      rw [work, clocks]
      exact congrArg (s.tim.frc + ·) (s.countSupplies.tickInc_unset h)
    refine ⟨s.tickClock, s.step_idle hp (by simp [released]), pending, by rw [work]; exact tick, ?_, ?_, ?_, ?_, ?_, ?_, ?_, frc⟩
    all_goals rw [work, clocks]; rfl

/-- Settles O9: the laws of the register file and of the byte memories, put together. -/
theorem registersAndMemoriesReadAsWritten : Obligations.RegistersAndMemoriesReadAsWritten := by
  refine ⟨fun s f g v hf => ⟨s.get_put_same f v hf, fun h => ?_, rfl⟩, fun d m a bs =>
    ⟨Mem.read_write_in d m a bs, fun b => Mem.read_write_out d m a bs, fun h => Mem.write_canon h a bs⟩⟩
  by_cases ha : g.addr = f.addr
  · exact s.get_put_beside f g v ha hf (h.resolve_left (not_not_intro ha))
  · exact s.get_put_other f g v ha

end

section
/-! SUPPORT. Writes of CH_SIN_CFG and the enable of a slow channel that R127 forbids. -/
namespace Sys2Proof.Machine

/-! CH_SIN_CFG in the register map (R153, R425). -/

/-- The line of the register tables that CH_SIN_CFG stands in. -/
def sinCfgRow : RegRow := ⟨R.CH_SIN_CFG 256, [(256, 0x800)], 0, 0xFFF, 0, 0, 0⟩

/-- The decoder finds that line at the address of every slow channel's CH_SIN_CFG, in no group of words, owned by AFS. -/
theorem sinCfg_decoded : ∀ k < 256,
    rowAt (R.CH_SIN_CFG (256 + k)) = some sinCfgRow ∧ sinCfgRow.ix (R.CH_SIN_CFG (256 + k)) 0 = k ∧ groupOf (R.CH_SIN_CFG (256 + k)) = none ∧
      ownerBlock (R.CH_SIN_CFG (256 + k)) = 3 := by
  decide +kernel

/-- The fields of CH_SIN_CFG are RW: after a write they hold what was written (R6). -/
theorem sinCfgRow_result (old v : Word) : (sinCfgRow.result old v).toNat % 4096 = v.toNat % 4096 := by
  have fields : (sinCfgRow.result old v).setWidth 12 = v.setWidth 12 := by
    have ones : ∀ i (h : i < 12), (0xFFF#12)[i] = true := by decide
    ext i hi
    simp [RegRow.result, sinCfgRow, wd, ones i hi]
  simpa using congrArg BitVec.toNat fields

theorem sinCfgRow_result_en (old v : Word) (ch : Nat) : (F.CH_SIN_CFG_EN 256).ofWord (sinCfgRow.result old v) = (F.CH_SIN_CFG_EN ch).ofWord v := by
  have := sinCfgRow_result old v
  simp only [Fld.ofWord, F.CH_SIN_CFG_EN]
  omega

theorem sinCfgRow_result_ref (old v : Word) (ch : Nat) : (F.CH_SIN_CFG_REF 256).ofWord (sinCfgRow.result old v) = (F.CH_SIN_CFG_REF ch).ofWord v := by
  have := sinCfgRow_result old v
  simp only [Fld.ofWord, F.CH_SIN_CFG_REF]
  omega

theorem sinCfg_addr (k : Nat) : R.CH_SIN_CFG (256 + k) = 0x180000 + k * 0x800 := by
  unfold R.CH_SIN_CFG
  omega

/-- The registers of commands (R429) lie below the slow channels'. -/
theorem sinCfg_no_command (k : Nat) :
    R.CH_SIN_CFG (256 + k) ≠ R.SYS_CTRL ∧ R.CH_SIN_CFG (256 + k) ≠ R.RED_CMD ∧ R.CH_SIN_CFG (256 + k) ≠ R.UPD_CMD ∧
      R.CH_SIN_CFG (256 + k) ≠ R.UPD_KEY ∧ R.CH_SIN_CFG (256 + k) ≠ R.NSP_KEY := by
  rw [sinCfg_addr]
  simp only [R.SYS_CTRL, R.RED_CMD, R.UPD_CMD, R.UPD_KEY, R.NSP_KEY]
  omega

theorem State.command_sinCfg (s : State) (load svc : Bool) (slot k : Nat) (v : Word) :
    s.command load svc slot (R.CH_SIN_CFG (256 + k)) v = none := by
  simp [State.command, sinCfg_no_command k]

/-! What a write of it ends in. -/

/-- It is no command, no group and not held by a job: it is judged as a write of one register's fields. -/
theorem State.writeReg_sinCfg (s : State) {k : Nat} (h : k < 256) (v : Word) :
    s.writeReg false false 0 (R.CH_SIN_CFG (256 + k)) v = s.writeField false sinCfgRow (R.CH_SIN_CFG (256 + k)) v := by
  obtain ⟨row, -, group, -⟩ := sinCfg_decoded k h
  have idle (i : Nat) (old w : Word) (sc : Nat) : s.jobBusy sinCfgRow.base i old w sc = false := by
    simp [State.jobBusy, sinCfgRow, R.CH_SIN_CFG, R.CMP_JOBj_CTRL]
  have writable (a : Nat) : readOnly sinCfgRow a = false := by
    simp [readOnly, sinCfgRow, R.CH_SIN_CFG, R.TIM_TDd_RATE_LO, R.TIM_TDd_RATE_HI]
  simp only [State.writeReg, row, State.command_sinCfg, idle, writable, group]
  rfl

/-- A write of CH_SIN_CFG that other registers forbid is refused (R127, R129): it sets AFS_ALERT.WR_REFUSED and changes nothing else. -/
theorem State.exec_registerWrite_sinCfg_bad (s : State) {k : Nat} (h : k < 256) (v : Word) (live : s.liveMode = true) (checked : s.sys.unchecked = none)
    (bad : s.badChan (R.CH_SIN_CFG 256) (R.CH_SIN_CFG (256 + k)) k (s.rd (R.CH_SIN_CFG (256 + k)))
      (sinCfgRow.result (s.rd (R.CH_SIN_CFG (256 + k))) v) = true) :
    exec (.registerWrite (R.CH_SIN_CFG (256 + k)) v) s = .next (s.flag F.AFS_ALERT_WR_REFUSED) := by
  obtain ⟨-, index, -, owner⟩ := sinCfg_decoded k h
  have refused : s.writeField false sinCfgRow (R.CH_SIN_CFG (256 + k)) v = s.refuse (R.CH_SIN_CFG (256 + k)) St.ACCESS := by
    have bad' : s.badChan sinCfgRow.base (R.CH_SIN_CFG (256 + k)) k _ _ = true := bad
    unfold State.writeField
    dsimp only
    rw [index, bad']
    simp
  have taken : (s.running ∨ s.sys.mode = .trim) := by simpa [State.liveMode] using live
  have plain : setsPriv (0x180000 + k * 0x800) v = false := by
    rw [← sinCfg_addr]
    simp [setsPriv, privMask, sinCfg_no_command k]
  have runs : exec (.registerWrite (R.CH_SIN_CFG (256 + k)) v) s = (s.writeReg false false 0 (R.CH_SIN_CFG (256 + k)) v).2.finish :=
    if_neg (by simp [taken, sinCfg_addr, plain]; omega)
  rw [runs, s.writeReg_sinCfg h, refused]
  simp only [State.refuse, owner, refusedFlag, State.finish, State.flag, State.put_sys, checked]

/-- What forbids a write of CH_SIN_CFG (R127, R129). -/
theorem State.badChan_sinCfg (s : State) (a i : Nat) (old v : Word) :
    s.badChan (R.CH_SIN_CFG 256) a i old v =
      (((F.CH_SIN_CFG_EN 256).ofWord v == 1 && !s.slowEnOk (256 + i)) ||
        ((F.CH_SIN_CFG_REF 256).ofWord v == 2 && i % 16 != 15 && s.on (F.CH_SIN_CFG_EN (256 + i / 16 * 16 + 15))) || s.slotLong a v (256 + i)) := by
  simp [State.badChan, R.CH_SIN_CFG, R.CH_AFE_CTRL]

/-- R127 forbids the enable of input 15 of a group while another of its inputs has REF 2. -/
theorem State.slowEnOk_ref (s : State) {g i : Nat} (hi : i < 15) (ref : s.get (F.CH_SIN_CFG_REF (256 + 16 * g + i)) = 2) :
    s.slowEnOk (256 + 16 * g + 15) = false := by
  have last : (256 + 16 * g + 15) % 16 = 15 := by omega
  simp only [State.slowEnOk, last, Nat.add_sub_cancel]
  simpa using ⟨i, hi, ref⟩

/-- The enable of a slow channel that R127 forbids is refused, and nothing else changes. -/
theorem State.exec_slowChannelEnable_refused (s : State) {ch : Nat} (low : 256 ≤ ch) (high : ch < 512) (live : s.liveMode = true)
    (off : s.on (F.CH_SIN_CFG_EN ch) = false) (room : s.journalFull = false) (bad : s.slowEnOk ch = false) :
    exec (.slowChannelEnable ch) s = .next (s.flag F.AFS_ALERT_WR_REFUSED) := by
  simp [exec, execSlowChannelEnable, Nat.not_lt.mpr low, Nat.not_le.mpr high, live, off, room, bad]

end Sys2Proof.Machine

open Sys2Proof Sys2Proof.Machine

/-- Settles O42: the command and a register write of either field meet R127's test of the other inputs of the group, and nothing else of
the register map stands before it. -/
theorem referenceInputsAreGuarded : Obligations.ReferenceInputsAreGuarded := by
  refine ⟨fun g i s hg hi live room ref off => ?_, fun g i v s hg hi live checked ref en => ?_, fun g i v s hg hi live checked on ref => ?_⟩
  · exact s.exec_slowChannelEnable_refused (by omega) (by omega) live off room (s.slowEnOk_ref hi ref)
  · rw [Nat.add_assoc]
    refine s.exec_registerWrite_sinCfg_bad (by omega) v live checked ?_
    have forbidden : s.slowEnOk (256 + (16 * g + 15)) = false := Nat.add_assoc 256 _ _ ▸ s.slowEnOk_ref hi ref
    simp [State.badChan_sinCfg, sinCfgRow_result_en _ v (256 + 16 * g + 15), en, forbidden]
  · rw [Nat.add_assoc]
    refine s.exec_registerWrite_sinCfg_bad (by omega) v live checked ?_
    have group : 256 + (16 * g + i) / 16 * 16 + 15 = 256 + 16 * g + 15 := by omega
    have other : i % 16 ≠ 15 := by omega
    simp [State.badChan_sinCfg, sinCfgRow_result_ref _ v (256 + 16 * g + i), ref, group, on, other]
end

section
/-! SUPPORT. States in which a scan start and the end of a slot do not do what O40 and O41 say. -/
namespace Sys2Proof.Machine

/-- A slot of input 2 of group 15 whose converter has failed in it. -/
def brokenSlot : SlotRun := { input := 2, start := 3999000, len := 500, failed := true }

/-- The scan that it is the last slot of. -/
def brokenScan : Scan := { start := 3999000, next := 3999000, slot := some brokenSlot }

/-- A hub in RUN with that slot over, and with no live stream for the channel's records. -/
def streamlessHub : State :=
  { tick := 4000000, sys := { mode := .run, porst := false }, slow := { grp := [(15, { scan := some brokenScan })], en := [(498, { eff := true, ever := true })] } }

/-- A hub in RUN whose group 15 is due for a scan. A disable of its input 3 that was put off takes effect from this tick on, and no enable
waits behind it. -/
def lateOffHub : State :=
  ({ tick := 4000000, sys := { mode := .run, porst := false }
     slow := { grp := [(15, { first := some 4000000 })], en := [(499, { eff := true, notBefore := 4002000, off := some 4000000 })] } } : State).put
    (F.AFS_GRPg_CFG_EN 15) 1

/-- The state that a command leads to, where it leads to one. -/
def stateAfter : Host.Outcome State Fault Refusal → Option State
  | .next t => some t
  | _ => none

theorem scanStart_lateOffHub : (stateAfter (exec (.scanStart 15) lateOffHub)).map (fun t => (t.grp 15).scan) = some none := by decide +kernel

end Sys2Proof.Machine

open Sys2Proof Sys2Proof.Machine

/-- Refutes O40 in its clause on SCAN_START: it asks that nothing waits in `pend`, but a disable put off to a tick that has come takes effect at
the scan start as well (R148), and here it takes the group's only input, so that no scan begins. The clause is about every state; the commands
themselves put a disable off only behind an enable that waits. -/
theorem not_groupsScanAtMultiplesOfTheirPeriod : ¬ Obligations.GroupsScanAtMultiplesOfTheirPeriod := by
  rintro ⟨-, -, starts, -⟩
  obtain ⟨t, ran, scan, -⟩ := starts 15 4000000 lateOffHub (by decide) (by decide) (by decide +kernel) (by decide +kernel) rfl (by decide) rfl rfl
    (by decide +kernel) ⟨3, by decide⟩
  have unbegun := scanStart_lateOffHub
  rw [ran] at unbegun
  simp [stateAfter, scan] at unbegun

/-- Refutes O41 in its clause on a slot whose converter failed: the slot's SLICE_LOST gap (R151) goes to the channel's live stream, and where
that stream is not LIVE the gap is discarded and NSP_ALERT.NO_STREAM set (R278), a register that the clause says is kept. -/
theorem not_slotsConvertAndRelease : ¬ Obligations.SlotsConvertAndRelease := by
  rintro ⟨-, -, lost, -⟩
  obtain ⟨t, ran, -, -, -, -, -, -, -, -, -, regs⟩ := lost 15 brokenScan brokenSlot streamlessHub rfl rfl (by decide) (by decide) rfl
  have ended : streamlessHub.slotDue 15 = t := Host.Outcome.next.inj ran
  have before : streamlessHub.on F.NSP_ALERT_NO_STREAM = false := by decide +kernel
  have after : (streamlessHub.slotDue 15).on F.NSP_ALERT_NO_STREAM = true := by decide +kernel
  have kept : t.on F.NSP_ALERT_NO_STREAM = streamlessHub.on F.NSP_ALERT_NO_STREAM := by
    simp only [State.on, State.get, regs F.NSP_ALERT_NO_STREAM.addr (by decide)]
  rw [← ended, before, after] at kept
  cases kept

end

section
/-! SUPPORT. What a write-back slot does that ends while the hub braces (R51, R163). -/
namespace Sys2Proof.Machine

/-! Identity slots touch no sensor's identity or life by themselves (R155, R158). -/

@[simp] theorem State.idDone_sid (s : State) (ch : Nat) (result : List Byte) : (s.idDone ch result).sid = s.sid := rfl

@[simp] theorem State.idGo_sid (s : State) (chans : List Nat) (g : Nat) : (s.idGo chans g).sid = s.sid := by
  unfold State.idGo
  split
  · rfl
  · cases s.idNext g chans with
    | none => rfl
    | some r => rfl

@[simp] theorem State.idOn_sid (s : State) (ch : Nat) : (s.idOn ch).sid = s.sid := s.idGo_sid _ _

/-- While the hub braces the identity slot of a write-back ends without the page write (R51): whatever the outcome that the command carries,
every sensor's counters, template and due write-back stay as they were. -/
theorem State.exec_lifeWriteback_bracing (s : State) (ch : Nat) (ok : Bool) (braces : s.bracingNow = true) :
    ∃ t, exec (.lifeWriteback ch ok) s = .next t ∧ t.sid = s.sid := by
  change ∃ t, execLifeWriteback ch ok s = .next t ∧ t.sid = s.sid
  unfold execLifeWriteback
  dsimp only
  rw [if_pos braces]
  split
  · exact ⟨s, rfl, rfl⟩
  · exact ⟨_, rfl, by simp⟩

/-- A hub in RUN in which the write-back slot of channel 511 ends 10 ticks after a supply was last seen low, so that it still braces (R51). -/
def bracedWriteHub : State :=
  ({ tick := 4000000, sys := { mode := .run, porst := false }, pwr := { bracing := some 3999980, lastLow := 3999990 }
     sid := [(511, { valid := true, wbDue := true })]
     slow := { grp := [(15, { idRun := some { ch := 511, start := 3976000, kind := 2 } })] } } : State).put (F.CH_SID_CFG_LIFE_EN 511) 1

end Sys2Proof.Machine

open Sys2Proof Sys2Proof.Machine

/-- Refutes O29 in its clause on a LIFE_WRITEBACK whose page write succeeds (its clause on one that fails asks the same of `wbDue`): it asks
that the write-back be no longer due, with no regard to bracing. A slot may begin before a supply dips and end while the hub braces; then the hub
writes no sensor memory (R51), and the write-back waits until bracing ends (R163). -/
theorem not_sensorsAreFoundAndCounted : ¬ Obligations.SensorsAreFoundAndCounted := by
  rintro ⟨-, -, -, -, -, -, -, written, -⟩
  obtain ⟨t, ran, settled, -⟩ := written 511 bracedWriteHub (by decide) (by decide) (by decide +kernel) (by decide +kernel) (by decide +kernel)
  obtain ⟨u, braced, kept⟩ := bracedWriteHub.exec_lifeWriteback_bracing 511 true (by decide +kernel)
  obtain rfl : u = t := Host.Outcome.next.inj (braced.symm.trans ran)
  have due : (bracedWriteHub.sid.val {} 511).wbDue = true := by decide +kernel
  rw [kept, due] at settled
  cases settled

end

section
/-! SUPPORT. What a disarmed SYNC leaves on the troupe bus (R182, R317). -/
namespace Sys2Proof.Machine

/-- FLT_SYNC_CTRL.DISARM withdraws the SYNC that the ringmaster queued for the troupe bus as the command SYNC was armed (R317). -/
theorem State.syncDisarm_ctrlQ {s : State} {ts : Nat} (armed : s.hist.syncs = [(ts, 0)]) : s.syncDisarm.stk.ctrlQ = s.stk.ctrlQ.erase (2, ts) := by
  simp [State.syncDisarm, State.dropSync, State.setSyncs, State.unbusSync, armed]

theorem State.exec_fltSyncDisarm {s : State} (live : s.liveMode = true) : exec .fltSyncDisarm s = .next s.syncDisarm :=
  congrArg Host.Outcome.next (if_pos live)

/-- A ringmaster in RUN that drives its SYNCs on the bus, after FLT_SYNC_CTRL.ARM for tick 4,000,003. -/
def armedRingmaster : State :=
  ((({ tick := 4000000, sys := { mode := .run, porst := false } } : State).put F.STK_CTRL_SYNC_OUT 1).wr R.FLT_SYNC_TICK_LO 4000003#32).syncArm

end Sys2Proof.Machine

open Sys2Proof Sys2Proof.Machine

/-- Refutes O38 in its clause on FLT_SYNC_DISARM: it asks that nothing changes but the SYNCs that wait and the registers, but where SYNC_OUT is
set the disarm also takes the SYNC off the queue of the troupe bus, onto which the arming had put it (R317). -/
theorem not_enablesAndSyncsReachTheChains : ¬ Obligations.EnablesAndSyncsReachTheChains := by
  rintro ⟨-, -, -, -, -, -, -, disarmed, -⟩
  have live : armedRingmaster.liveMode = true := by decide +kernel
  obtain ⟨t, ran, -, -, rest⟩ := disarmed armedRingmaster live
  have onBus : armedRingmaster.stk.ctrlQ = [(2, 4000003)] := by decide +kernel
  have outcome : armedRingmaster.syncDisarm = t := Host.Outcome.next.inj ((State.exec_fltSyncDisarm live).symm.trans ran)
  have withdrawn : t.stk.ctrlQ = [] := by
    rw [← outcome, State.syncDisarm_ctrlQ (ts := 4000003) (by decide +kernel), onBus]
    rfl
  rw [rest, onBus] at withdrawn
  cases withdrawn

end

section
/-! SUPPORT. How a request is answered: what putting a response on a wire changes, and what the asker can take from it (R291, R300, R323). -/
namespace Sys2Proof.Machine

/-! What a response changes. -/

/-- What may differ once a response has gone out and been kept: the output, the kept responses, what the service port shows, and the packets of
the stack ports. -/
def ReplyOnly (s t : State) : Prop :=
  t = { s with
    net := { s.net with out := t.net.out, resps := t.net.resps, svcState := t.net.svcState, svcResp := t.net.svcResp, svcPos := t.net.svcPos }
    stk := { s.stk with ports := t.stk.ports } }

theorem ReplyOnly.refl (s : State) : ReplyOnly s s := rfl

theorem ReplyOnly.trans {s t u : State} (h : ReplyOnly s t) (k : ReplyOnly t u) : ReplyOnly s u := by
  unfold ReplyOnly at h k ⊢
  rw [k, h]

theorem State.stkPut_only (s : State) (x : Nat) (t : Tx) (h : StkHead) : ReplyOnly s (s.stkPut x t h) := by
  unfold State.stkPut
  dsimp only
  split <;> rfl

theorem State.stkPuts_only (x : Nat) (t : Tx) (h : StkHead) (es : List (List Word × Bool)) (s : State) :
    ReplyOnly s (es.foldl (fun (s : State) e => s.stkPut x { t with words := e.1 } { h with src := s.sys.pos, last := e.2 }) s) := by
  induction es generalizing s with
  | nil => exact .refl s
  | cons e es ih => exact (s.stkPut_only x _ _).trans (ih _)

theorem State.stkSend_only (s : State) (x : Nat) (t : Tx) (h : StkHead) (words : List Word) : ReplyOnly s (s.stkSend x t h words) := by
  unfold State.stkSend
  split
  · exact State.stkPuts_only x t h _ s
  · exact .refl s

theorem State.sendResp_only (s : State) (svc : Bool) (k : Resp) : ReplyOnly s (s.sendResp svc k) := by
  unfold State.sendResp
  dsimp only
  split
  · rfl
  · split
    · rfl
    · exact s.stkSend_only _ _ _ _

/-- The state in which an answer goes out: one that is no OK has been counted (R291). -/
def Ans.counted (a : Ans) : State := if a.status = St.OK then a.s else a.s.countUp F.NSP_MGMT_CNT_REFUSED

/-- The response that an answer makes (R291). -/
def Ans.resp (a : Ans) (typ : Nat) (r : Req) : Resp :=
  { src := srcKey r, typ := typ, seq := r.seq, words := a.word0 :: a.words, port := r.port, v6 := r.v6 }

/-- An answer is counted where it is no OK, sent, and kept. -/
theorem Ans.reply_eq (a : Ans) (typ : Nat) (r : Req) :
    a.reply typ r =
      { a.counted.sendResp r.svc (a.resp typ r) with
        net := { (a.counted.sendResp r.svc (a.resp typ r)).net with
          resps := (a.resp typ r :: (a.counted.sendResp r.svc (a.resp typ r)).net.resps).take 64 } } := rfl

theorem Ans.reply_only (a : Ans) (typ : Nat) (r : Req) : ReplyOnly a.counted (a.reply typ r) :=
  (a.counted.sendResp_only r.svc (a.resp typ r)).trans rfl

/-- A response's header and envelope speak of registers and the part alone. -/
theorem ReplyOnly.respTx {s t : State} (h : ReplyOnly s t) (k : Resp) : t.respTx k = s.respTx k := by
  rw [h]
  rfl

theorem ReplyOnly.respHead {s t : State} (h : ReplyOnly s t) (k : Resp) : t.respHead k = s.respHead k := by
  rw [h]
  rfl

/-! What goes out on a stack port. -/

/-- The packets of stack port `x` that are not acknowledged: those sent, then those that wait for room (R308). -/
def State.stkQueue (s : State) (x : Nat) : List Tx := (s.stk.ports.val {} x).replay ++ (s.stk.ports.val {} x).waiting

/-- A packet put on a port is the last of its queue, with the words and the addressing that it was given. -/
theorem State.stkPut_queue (s : State) (x : Nat) (t : Tx) (h : StkHead) :
    ∃ p h', (s.stkPut x t h).stkQueue x = s.stkQueue x ++ [p] ∧ p.words = t.words ∧ p.stk = some h' ∧ h'.kind = h.kind ∧ h'.dest = h.dest := by
  unfold State.stkPut State.stkQueue
  dsimp only
  generalize s.stk.ports.val {} x = port
  refine ⟨{ t with port := 3 + x, kind := .packet, stk := some { h with seq := port.linkSeq, ack := port.ackSeq } }, _, ?_, rfl, rfl, rfl, rfl⟩
  split
  · next now =>
    have drained : port.waiting = [] := by simpa using (Bool.and_eq_true_iff.mp now).1
    simp [drained]
  · simp

/-- The packets of a transfer are the last of the port's queue, in order (R307). -/
theorem State.stkPuts_queue (x : Nat) (t : Tx) (h : StkHead) (es : List (List Word × Bool)) (s : State) :
    ∃ l : List Tx, (es.foldl (fun (s : State) e => s.stkPut x { t with words := e.1 } { h with src := s.sys.pos, last := e.2 }) s).stkQueue x =
        s.stkQueue x ++ l ∧
      l.map (·.words) = es.map (·.1) ∧ ∀ p ∈ l, ∃ h', p.stk = some h' ∧ h'.kind = h.kind ∧ h'.dest = h.dest := by
  induction es generalizing s with
  | nil => exact ⟨[], by simp⟩
  | cons e es ih =>
    obtain ⟨p, h', queue, words, head, kind, dest⟩ := s.stkPut_queue x { t with words := e.1 } { h with src := s.sys.pos, last := e.2 }
    obtain ⟨l, queues, parts, heads⟩ := ih (s.stkPut x { t with words := e.1 } { h with src := s.sys.pos, last := e.2 })
    refine ⟨p :: l, ?_, ?_, ?_⟩
    · rw [List.foldl_cons, queues, queue, List.append_assoc]
      rfl
    · simp [words, parts]
    · exact List.forall_mem_cons.mpr ⟨⟨h', head, kind, dest⟩, heads⟩

theorem cutPayload_ne_nil (k : Nat) (ws : List Word) : cutPayload k ws ≠ [] := by
  cases k with
  | zero => simp [cutPayload]
  | succ k =>
    unfold cutPayload
    split <;> simp

/-- The parts that a payload is cut into make up the payload. -/
theorem cutPayload_flatten (k : Nat) (ws : List Word) : ((cutPayload k ws).map (·.1)).flatten = ws := by
  induction k generalizing ws with
  | zero => simp [cutPayload]
  | succ k ih =>
    unfold cutPayload
    split
    · simp
    · simp [ih]

/-- A transfer out of a port that is up joins the port's queue in packets that make up its words. -/
theorem State.stkSend_queue (s : State) (x : Nat) (t : Tx) (h : StkHead) (words : List Word) (up : (s.stk.ports.val {} x).up = true) :
    ∃ l : List Tx, l ≠ [] ∧ (s.stkSend x t h words).stkQueue x = s.stkQueue x ++ l ∧ (l.map (·.words)).flatten = words ∧
      ∀ p ∈ l, ∃ h', p.stk = some h' ∧ h'.kind = h.kind ∧ h'.dest = h.dest := by
  obtain ⟨l, queue, parts, heads⟩ := State.stkPuts_queue x t h (cutPayload (words.length / 1024) words) s
  refine ⟨l, ?_, ?_, ?_, heads⟩
  · rintro rfl
    exact cutPayload_ne_nil _ _ (List.map_eq_nil_iff.mp parts.symm)
  · unfold State.stkSend
    rw [if_pos up, queue]
  · rw [parts, cutPayload_flatten]

/-- Nothing goes out of a port that is down. -/
theorem State.stkSend_down (s : State) (x : Nat) (t : Tx) (h : StkHead) (words : List Word) (down : (s.stk.ports.val {} x).up ≠ true) :
    s.stkSend x t h words = s := if_neg down

/-! The request is answered. -/

/-- A reply is the answer to its request, wherever that came in. -/
theorem Ans.reply_answered (a : Ans) (typ : Nat) (r : Req) : Answered (a.reply typ r) typ r (a.word0 :: a.words) := by
  have only := a.reply_only typ r
  have heads := only.respHead (a.resp typ r)
  have sent := a.reply_eq typ r
  refine ⟨by rw [sent]; rfl, fun uplink low => ?_, fun uplink high up => ?_, fun service => ?_⟩
  · change (a.reply typ r).net.out.head? = some ((a.reply typ r).respTx (a.resp typ r))
    have out : a.counted.sendResp r.svc (a.resp typ r) = a.counted.send (a.counted.respTx (a.resp typ r)) := by
      simp only [State.sendResp, uplink]
      exact if_pos low
    rw [only.respTx, sent, out]
    rfl
  · have out : a.counted.sendResp r.svc (a.resp typ r) =
        a.counted.stkSend (r.port - 3) { kind := .packet, seq := r.seq } { kind := 8, cls := kindClass 8, dest := 0 }
          (bytesWords ((a.counted.respHead (a.resp typ r)).bytes (a.word0 :: a.words))) := by
      simp only [State.sendResp, uplink]
      exact if_neg (Nat.not_lt.mpr high)
    have ports : (a.reply typ r).stk.ports = (a.counted.sendResp r.svc (a.resp typ r)).stk.ports := by rw [sent]
    rw [ports, out] at up ⊢
    have before : (a.counted.stk.ports.val {} (r.port - 3)).up = true := by
      refine Decidable.byContradiction fun down => ?_
      rw [State.stkSend_down _ _ _ _ _ down] at up
      exact down up
    obtain ⟨l, nonempty, queue, words, parts⟩ := a.counted.stkSend_queue (r.port - 3) { kind := .packet, seq := r.seq }
      { kind := 8, cls := kindClass 8, dest := 0 } (bytesWords ((a.counted.respHead (a.resp typ r)).bytes (a.word0 :: a.words))) before
    exact ⟨l, nonempty, ⟨_, queue.symm⟩, words.trans (congrArg (fun h : NspHead => bytesWords (h.bytes (a.word0 :: a.words))) heads.symm), parts⟩
  · have shown : a.counted.sendResp r.svc (a.resp typ r) =
        { a.counted with net := { a.counted.net with
          svcState := 2, svcResp := (a.counted.respHead (a.resp typ r)).bytes (a.word0 :: a.words), svcPos := 0 } } := by
      simp only [State.sendResp, service]
      rfl
    refine ⟨by rw [sent, shown], ?_, by rw [sent, shown]⟩
    change _ = ((a.reply typ r).respHead (a.resp typ r)).bytes (a.word0 :: a.words)
    rw [heads, sent, shown]

/-- Word 0 of an OK without detail. -/
theorem State.ok_word0 (s : State) (words : List Word) : (s.ok words).word0 = 0#32 := by simp [State.ok, Ans.word0, St.OK, wd]

/-- A command that answers OK with words: the request is answered by a word 0 of zero and those words, and nothing else changes but what the
answer itself changed. -/
theorem State.replied_ok {s u : State} {c : Instr} {a : Ans} {typ : Nat} {r : Req} {words : List Word} (runs : exec c s = .next (a.reply typ r))
    (ok : a = u.ok words) : ∃ t, exec c s = .next t ∧ Answered t typ r (0#32 :: words) ∧ ReplyOnly u t := by
  subst ok
  exact ⟨_, runs, u.ok_word0 words ▸ (u.ok words).reply_answered typ r, (u.ok words).reply_only typ r⟩

/-- A command that answers with a status other than OK: the request is answered by it, and the refusal is counted. -/
theorem State.replied_refused {s u : State} {c : Instr} {a : Ans} {typ status : Nat} {r : Req} (runs : exec c s = .next (a.reply typ r))
    (refused : a = u.ans status) (bad : status ≠ St.OK) :
    ∃ t, exec c s = .next t ∧ Answered t typ r [wd status] ∧ ReplyOnly (u.countUp F.NSP_MGMT_CNT_REFUSED) t := by
  subst refused
  have counted : (u.ans status).counted = u.countUp F.NSP_MGMT_CNT_REFUSED := if_neg bad
  have word : (u.ans status).word0 = wd status := by simp [State.ans, Ans.word0]
  exact ⟨_, runs, word ▸ (u.ans status).reply_answered typ r, counted ▸ (u.ans status).reply_only typ r⟩

/-! Who is served. -/

/-- A request that is served in its modes gets what its operation gives (R291). -/
theorem State.Serves.served {s : State} {typ : Nat} {r : Req} {steward allowed : Bool} (h : s.Serves typ r steward) (mode : allowed = true)
    (f : State → State × Option Ans) : s.serve typ r steward allowed f = (f s).2.elim (f s).1 (fun a => a.reply typ r) := by
  obtain ⟨powered, loaded, port, named, up, new⟩ := h
  have heard : ¬(s.sys.porst = true ∨ ¬r.svc = true ∧ ¬s.portReady r.port = true) := by
    rintro (held | ⟨uplink, down⟩)
    · simp [powered] at held
    · exact port.elim uplink down
  have taken : ¬(s.sys.mode = .load ∨ steward = true ∧ ¬s.sys.steward = true) := by
    rintro (load | ⟨needs, restarts⟩)
    · exact loaded load
    · exact restarts (up needs)
  unfold State.serve
  rw [if_neg heard, if_neg (not_not_intro named), if_neg taken, new]
  cases gives : f s with
  | mk t a => cases a <;> simp [mode]

end Sys2Proof.Machine
end

section
/-! SUPPORT. What TRIGGER, SYNC, NACK and ACK do in the cases of R182, R226, R282, R285 and R295. -/
namespace Sys2Proof.Machine

variable {s : State} {r : Req}

/-! As served: below the steward (R286). -/

theorem State.exec_trigger (h : s.Serves 0x50 r false) : exec (.trigger r) s = .next ((s.triggerAns r).reply 0x50 r) :=
  congrArg Host.Outcome.next (h.served rfl _)

theorem State.exec_sync (h : s.Serves 0x51 r false) (live : s.liveMode = true) : exec (.sync r) s = .next ((s.syncAns r).reply 0x51 r) :=
  congrArg Host.Outcome.next (h.served live _)

theorem State.exec_nack (h : s.Serves 0x60 r false) (live : s.live = true) : exec (.nack r) s = .next ((s.nackAns r).reply 0x60 r) :=
  congrArg Host.Outcome.next (h.served live _)

/-- An ACK whose status is OK is not answered (R292). -/
theorem State.exec_ack_silent (h : s.Serves 0x61 r false) (live : s.live = true) {t : State} (silent : s.ackAns r = (t, none)) :
    exec (.ack r) s = .next t := by
  have served : s.opAck r = (s.ackAns r).2.elim (s.ackAns r).1 (fun a => a.reply 0x61 r) := h.served live _
  rw [silent] at served
  exact congrArg Host.Outcome.next served

/-! TRIGGER (R226, R295). -/

theorem State.liveMode_of_running (run : s.running = true) : s.liveMode = true := by simp [State.liveMode, run]

theorem State.inTrim_of_running (run : s.running = true) (t : Nat) : s.inTrim t = false := by
  obtain mode | mode : s.sys.mode = .run ∨ s.sys.mode = .limp := by simpa [State.running] using run
  all_goals simp [State.inTrim, mode]

/-- In RUN and LIMP a command for a tick that the core has not judged is journaled and does nothing else (R342). -/
theorem State.coreEvent_journals (run : s.running = true) {t : Nat} (ahead : s.core.pos < t) (c : CoreCmd) : s.coreEvent t c = s.journalCmd t c := by
  have begun : ¬¬s.running = true := not_not_intro run
  unfold State.coreEvent State.coreCmd
  rw [if_pos run, if_neg begun, if_neg (Nat.not_le.mpr ahead)]

/-- The first trigger within 1 s is the one that is remembered (R295). -/
theorem State.noteTrigger_first (unseen : s.hist.dedup = []) (ident stamp : Nat) :
    s.noteTrigger ident stamp = { s with hist := { s.hist with dedup := [(ident, stamp, s.tick)] } } := by
  simp [State.noteTrigger, unseen]

/-- A trigger whose stamp is past acts at the next tick. -/
theorem State.triggerAns_past {w : Word} (word : r.words = [w]) (run : s.running = true) (past : r.firstTick < s.tick)
    (room : s.journalFull = false) (unseen : s.hist.dedup = []) (behind : s.core.pos ≤ s.tick) :
    s.triggerAns r = (({ s with
      red := { s.red with journal := s.red.journal ++ [(s.tick + 1, .trigger (w.toNat % 256) r.firstTick)] }
      hist := { s.hist with dedup := [(w.toNat % 256, r.firstTick, s.tick)] } } : State)).ok := by
  have near : ¬s.tick + 7200000000 < r.firstTick := by omega
  have taken : r.firstTick + 1 ≤ s.tick := past
  have journal := State.coreEvent_journals run (Nat.lt_succ_of_le behind) (.trigger (w.toNat % 256) r.firstTick)
  simp [State.triggerAns, word, State.liveMode_of_running run, near, unseen, taken, State.inTrim_of_running run, room, journal,
    State.noteTrigger_first, State.journalCmd]

/-- A trigger whose stamp is to come is held. -/
theorem State.triggerAns_held {w : Word} (word : r.words = [w]) (run : s.running = true) (ahead : s.tick ≤ r.firstTick)
    (near : r.firstTick ≤ s.tick + 7200000000) (unseen : s.hist.dedup = []) (space : s.hist.held.length < 16) (room : s.journalFull = false) :
    s.triggerAns r = (({ s with hist := { s.hist with
      held := s.hist.held ++ [(w.toNat % 256, r.firstTick)], dedup := [(w.toNat % 256, r.firstTick, s.tick)] } } : State)).ok := by
  have notPast : ¬r.firstTick + 1 ≤ s.tick := by omega
  simp [State.triggerAns, word, State.liveMode_of_running run, Nat.not_lt.mpr near, unseen, notPast, State.inTrim_of_running run,
    Nat.not_le.mpr space, room, State.noteTrigger_first]

/-- A copy of a trigger within 1 s is answered OK and not acted on. -/
theorem State.triggerAns_copy {w : Word} {e : Nat} (word : r.words = [w]) (run : s.running = true) (past : r.firstTick ≤ s.tick)
    (seen : s.hist.dedup = [(w.toNat % 256, r.firstTick, e)]) (recent : s.tick ≤ e + 2000000) : s.triggerAns r = s.ok := by
  have near : ¬s.tick + 7200000000 < r.firstTick := by omega
  simp [State.triggerAns, word, State.liveMode_of_running run, near, seen, recent]

/-! SYNC (R182, R295). -/

/-- Queueing a SYNC for the troupe bus touches its queue alone (R317). -/
theorem State.busSync_eq (s : State) (ts : Nat) :
    s.busSync ts = { s with stk := { s.stk with
      ctrlQ := s.stk.ctrlQ ++ (if s.leads && s.on F.STK_CTRL_SYNC_OUT then [(2, ts)] else []) } } := by
  unfold State.busSync
  split
  · rfl
  · simp

/-- A SYNC that is early enough waits for its tick. -/
theorem State.syncAns_early (empty : r.words = []) (early : s.tick + 2 < r.firstTick) (room : s.journalFull = false) :
    s.syncAns r = ((s.setSyncs (s.hist.syncs ++ [(r.firstTick, 18)])).busSync r.firstTick).ok := by
  simp [State.syncAns, empty, Nat.not_le.mpr early, room]

/-- A late one is refused. -/
theorem State.syncAns_late (empty : r.words = []) (late : r.firstTick ≤ s.tick + 2) :
    s.syncAns r = ((s.put F.FLT_SYNC_STAT_ERR_LATE 1).flag F.FLT_ALERT_SYNC_LATE).ans St.RANGE := by
  simp [State.syncAns, empty, late]

/-! NACK (R285). -/

/-- A range that has been formed, and of which the ring holds every datagram, is queued whole behind no other. -/
theorem NackSum.take_whole (k : NackSum) (st : Stream) (m first count : Nat) (idle : k.retx = []) (asked : 1 ≤ count) (kept : st.oldest ≤ first)
    (formed : first + count ≤ st.seq) :
    k.take st m (first, count) =
      { k with retx := [{ stream := m, next := first, last := first + count - 1, next1 := first }], accepted := k.accepted + 1 } := by
  have counted : ¬(count = 0 ∨ st.seq ≤ first + count - 1) := by omega
  have rest : first ≤ first + count - 1 := by omega
  simp [NackSum.take, idle, counted, Nat.max_eq_left kept, Nat.not_lt.mpr kept, rest, addRange]

/-- A NACK of one range that the ring holds whole is accepted, and nothing is listed as gone. -/
theorem State.nackAns_whole {m : Nat} {a b : Word} (stream : m < 16) (words : r.words = [wd (m + 256), a, b])
    (used : s.get (F.NSP_STRm_CFG_KIND m) ≠ 0) (idle : s.net.retx = []) (asked : 1 ≤ b.toNat / 65536)
    (kept : (s.stream m).oldest ≤ a.toNat + b.toNat % 65536 * 2 ^ 32)
    (formed : a.toNat + b.toNat % 65536 * 2 ^ 32 + b.toNat / 65536 ≤ (s.stream m).seq) :
    s.nackAns r = (({ s with net := { s.net with retx :=
      [{ stream := m, next := a.toNat + b.toNat % 65536 * 2 ^ 32, last := a.toNat + b.toNat % 65536 * 2 ^ 32 + b.toNat / 65536 - 1,
         next1 := a.toNat + b.toNat % 65536 * 2 ^ 32 }] } } : State)).ok [1#32] := by
  have named : (wd (m + 256)).toNat % 16 = m := by
    rw [wd, BitVec.toNat_ofNat]
    omega
  have ranges : (wd (m + 256)).toNat / 256 % 256 = 1 := by
    rw [wd, BitVec.toNat_ofNat]
    omega
  have taken := NackSum.take_whole { retx := s.net.retx } (s.stream m) m _ _ idle asked kept formed
  simp only [State.nackAns, words, named, ranges, if_neg used, nackRanges, List.foldl_cons, List.foldl_nil, taken]
  rfl

/-! ACK (R282). -/

theorem State.stream_updStream_same (s : State) (m : Nat) (f : Stream → Stream) : (s.updStream m f).stream m = f (s.stream m) :=
  Tab.val_upd_same s.net.streams {} m f

theorem State.stream_updStream_other (s : State) {k m : Nat} (f : Stream → Stream) (other : k ≠ m) : (s.updStream m f).stream k = s.stream k :=
  Tab.val_upd_other s.net.streams {} f other

/-- An ACK on a live stream with ACK set moves the release point, and is not answered. -/
theorem State.ackAns_live {m : Nat} {a b : Word} (uplink : r.svc = false) (stream : m < 16) (words : r.words = [wd m, a, b])
    (live : s.get (F.NSP_STRm_CFG_KIND m) = 1) (acked : s.ackSet m = true) (formed : a.toNat + b.toNat % 65536 * 2 ^ 32 < (s.stream m).seq) :
    s.ackAns r = (s.updStream m fun st => { st with rel := max st.rel (a.toNat + b.toNat % 65536 * 2 ^ 32 + 1) }, none) := by
  have named : (wd m).toNat % 16 = m := by
    rw [wd, BitVec.toNat_ofNat]
    omega
  have sent : ¬(s.get (F.NSP_STRm_CFG_KIND m) = 0 ∨ (s.stream m).seq ≤ a.toNat + b.toNat % 65536 * 2 ^ 32) := by omega
  have pumps : ¬s.get (F.NSP_STRm_CFG_KIND m) = 2 := by omega
  simp only [State.ackAns, words, named, if_neg sent, acked, if_neg pumps, uplink]
  rfl

end Sys2Proof.Machine

open Sys2Proof Sys2Proof.Machine

/-- Settles O57: each request is served as its operation answers, and a reply changes nothing but what carries it. -/
theorem triggersSyncsAndAcknowledgements : Obligations.TriggersSyncsAndAcknowledgements := by
  refine ⟨fun r w s served word run past room unseen behind => ?_, fun r w s served word run ahead near unseen space room => ?_,
    fun r w e s served word run past seen recent => ?_, fun r s served empty live early room => ?_, fun r s served empty live late => ?_,
    fun r m a b s served stream words live used idle asked kept formed => ?_,
    fun r m a b s served uplink stream words live kind acked formed => ?_⟩
  · obtain ⟨t, ran, answered, only⟩ := State.replied_ok (State.exec_trigger served) (State.triggerAns_past word run past room unseen behind)
    refine ⟨t, ran, answered, ?_, ?_, ?_⟩ <;> rw [only]
  · obtain ⟨t, ran, answered, only⟩ := State.replied_ok (State.exec_trigger served) (State.triggerAns_held word run ahead near unseen space room)
    refine ⟨t, ran, answered, ?_, ?_⟩ <;> rw [only]
  · obtain ⟨t, ran, answered, only⟩ := State.replied_ok (State.exec_trigger served) (State.triggerAns_copy word run past seen recent)
    refine ⟨t, ran, answered, ?_⟩
    rw [only]
  · obtain ⟨t, ran, answered, only⟩ := State.replied_ok (State.exec_sync served live) (State.syncAns_early empty early room)
    rw [State.busSync_eq] at only
    refine ⟨t, ran, answered, ?_, ?_, ?_⟩ <;> rw [only] <;> rfl
  · obtain ⟨t, ran, answered, only⟩ := State.replied_refused (State.exec_sync served live) (State.syncAns_late empty late) (by decide)
    refine ⟨t, ran, answered, ?_, by rw [only]; rfl⟩
    have regs : t.regs = (((s.put F.FLT_SYNC_STAT_ERR_LATE 1).flag F.FLT_ALERT_SYNC_LATE).countUp F.NSP_MGMT_CNT_REFUSED).regs := by rw [only]
    rw [State.on, State.get_of_regs regs, State.countUp, State.get_put_other _ _ _ _ (by decide)]
    exact State.on_flag _ F.FLT_ALERT_SYNC_LATE (by decide) rfl
  · obtain ⟨t, ran, answered, only⟩ := State.replied_ok (State.exec_nack served live) (State.nackAns_whole stream words used idle asked kept formed)
    refine ⟨t, ran, answered, ?_, ?_⟩ <;> rw [only]
  · exact ⟨_, State.exec_ack_silent served live (State.ackAns_live uplink stream words kind acked formed), s.stream_updStream_same m _,
      fun k other => s.stream_updStream_other _ other, rfl, rfl⟩
end

section
/-! SUPPORT. The parts that a window command touches: windows, jobs, and the queue of the jobs (R239, R265, R266). -/
namespace Sys2Proof.Machine

/-! Windows. -/

theorem State.win_updWin_same (s : State) (d : Nat) (f : Window → Window) : (s.updWin d f).win d = f (s.win d) :=
  Tab.val_upd_same s.hist.wins {} d f

theorem State.win_updWin_other (s : State) {k d : Nat} (f : Window → Window) (other : k ≠ d) : (s.updWin d f).win k = s.win k :=
  Tab.val_upd_other s.hist.wins {} f other

theorem State.win_of_hist {s t : State} (h : t.hist = s.hist) (d : Nat) : t.win d = s.win d := by simp [State.win, h]

/-- A released window's pins and readiness are gone, and the tick of its release stands in it (R234, R239). -/
theorem State.win_releaseWin_same (s : State) (d t state : Nat) :
    (s.releaseWin d t state).win d = { s.win d with state := state, relAt := some t, ready := false } :=
  s.win_updWin_same d _

theorem State.win_releaseWin_other (s : State) {k d : Nat} (t state : Nat) (other : k ≠ d) : (s.releaseWin d t state).win k = s.win k :=
  s.win_updWin_other _ other

/-! Jobs. -/

theorem State.job_updJob_same (s : State) (j : Nat) (f : Job → Job) : (s.updJob j f).job j = f (s.job j) :=
  Tab.val_upd_same s.jobs {} j f

theorem State.job_updJob_other (s : State) {k j : Nat} (f : Job → Job) (other : k ≠ j) : (s.updJob j f).job k = s.job k :=
  Tab.val_upd_other s.jobs {} f other

theorem State.job_of_jobs {s t : State} (h : t.jobs = s.jobs) (j : Nat) : t.job j = s.job j := by simp [State.job, h]

theorem State.job_releaseWin (s : State) (j d t state : Nat) : (s.releaseWin d t state).job j = s.job j := rfl

/-- What a table lists after an entry was set, it listed before, but for that entry. -/
theorem mem_tabSet {α : Type} {t : Tab α} {i : Nat} {v : α} {e : Nat × α} (h : e ∈ t.set i v) : e = (i, v) ∨ e ∈ t := by
  induction t with
  | nil => simpa [Tab.set] using h
  | cons a t ih =>
    unfold Tab.set at h
    split at h
    · simpa using h
    · split at h
      · exact (List.mem_cons.mp h).imp_right (List.mem_cons_of_mem _)
      · obtain rfl | later := List.mem_cons.mp h
        · exact .inr List.mem_cons_self
        · exact (ih later).imp_right (List.mem_cons_of_mem _)

theorem mem_insertJob (s : State) (i j : Nat) (l : List Nat) : i ∈ insertJob s j l ↔ i = j ∨ i ∈ l := by
  induction l with
  | nil => simp [insertJob]
  | cons a l ih =>
    unfold insertJob
    split
    · simp only [List.mem_cons, ih]
      exact or_left_comm
    · simp

theorem mem_insertJobs (s : State) (i : Nat) (js l : List Nat) : i ∈ js.foldl (fun l j => insertJob s j l) l ↔ i ∈ js ∨ i ∈ l := by
  induction js generalizing l with
  | nil => simp
  | cons j js ih =>
    rw [List.foldl_cons, ih, mem_insertJob, List.mem_cons]
    exact or_left_comm.trans or_assoc.symm

/-- The queue holds the jobs that are listed with STATE QUEUED. -/
theorem State.mem_queued (s : State) (i : Nat) : i ∈ s.queued ↔ ∃ k : Job, (i, k) ∈ s.jobs ∧ k.state = 1 := by
  rw [State.queued, mem_insertJobs]
  simp

theorem State.queued_of_jobs {s t : State} (h : t.jobs = s.jobs) {i : Nat} (queued : i ∈ t.queued) : i ∈ s.queued := by
  rw [State.mem_queued] at queued ⊢
  rwa [← h]

/-- A change of one job can queue that job alone. -/
theorem State.queued_updJob {s : State} {i j : Nat} {f : Job → Job} (h : i ∈ (s.updJob j f).queued) : i = j ∨ i ∈ s.queued := by
  obtain ⟨k, listed, state⟩ := (State.mem_queued _ i).mp h
  obtain new | old := mem_tabSet listed
  · exact .inl (congrArg Prod.fst new)
  · exact .inr ((s.mem_queued i).mpr ⟨k, old, state⟩)

/-- Where no job waits but one that belongs to no window, none takes an extent of the pool (R265). -/
theorem State.placeJobs_alone {s : State} {d : Nat} (alone : ∀ i ∈ s.queued, i = d) (own : (s.job d).win = none) : s.placeJobs = s := by
  have stays : s.placeJob d = s := by simp [State.placeJob, own]
  have all (l : List Nat) (h : ∀ i ∈ l, i = d) : l.foldl (fun s j => s.placeJob j) s = s := by
    induction l with
    | nil => rfl
    | cons i l ih =>
      obtain ⟨rfl, rest⟩ := List.forall_mem_cons.mp h
      rw [List.foldl_cons, stays, ih rest]
  exact all _ alone

/-! A job that fails (R267). -/

/-- What a failed job shows. -/
def Job.failed (k : Job) (r : JobRun) : Job :=
  { k with
    state := 4, err := r.err, blocks := r.done.length, failCh := r.failCh, commit := 0, result := 0, ext := none
    kseen := (r.done.map (·.k)).foldl max k.kseen, merged := r.done.any (·.merged), recs := [] }

/-- A failed job touches the table of the jobs, the registers and the log alone. -/
theorem State.jobFailed_rest (s : State) (j : Nat) (r : JobRun) :
    s.jobFailed j r = { s with jobs := s.jobs.upd {} j (·.failed r), regs := (s.jobFailed j r).regs, log := (s.jobFailed j r).log } := by
  unfold State.jobFailed
  dsimp only
  rw [(State.event_only _ _ _ _).rest]
  rfl

theorem State.on_event (s : State) (code source : Nat) (fs : List LogF) (f : Fld) (h : f.addr ∉ eventRegs) :
    (s.event code source fs).on f = s.on f := congrArg (· != 0) (s.event_get code source fs f h)

theorem State.on_updJob (s : State) (j : Nat) (f : Job → Job) (g : Fld) : (s.updJob j f).on g = s.on g := rfl

theorem State.on_jobFailed (s : State) (j : Nat) (r : JobRun) : (s.jobFailed j r).on F.CMP_ALERT_FAIL = true :=
  (State.on_event _ _ _ _ _ (by decide)).trans (State.on_flag _ F.CMP_ALERT_FAIL (by decide) rfl)

theorem State.on_winJobFail (s : State) (d : Nat) : (s.winJobFail d).on F.HST_ALERT_JOB_FAIL = true :=
  (State.on_event _ _ _ _ _ (by decide)).trans (State.on_flag _ F.HST_ALERT_JOB_FAIL (by decide) rfl)

theorem State.on_winJobFail_other (s : State) (d : Nat) (f : Fld) (event : f.addr ∉ eventRegs) (other : f.addr ≠ F.HST_ALERT_JOB_FAIL.addr) :
    (s.winJobFail d).on f = s.on f :=
  (State.on_event _ _ _ _ f event).trans (congrArg (· != 0) (State.get_put_other (s.releaseWin d s.tick 4) F.HST_ALERT_JOB_FAIL f 1 other))

/-- Job `d` of window `d` has failed, and its window goes with it (R239, R267). -/
def State.winJobGone (s : State) (d : Nat) (r : JobRun) : State := ((s.jobFailed d r).updJob d fun k => { k with win := none }).winJobFail d

theorem State.winJobFail_rest (s : State) (d : Nat) :
    s.winJobFail d = { s.releaseWin d s.tick 4 with regs := (s.winJobFail d).regs, log := (s.winJobFail d).log } := by
  unfold State.winJobFail
  dsimp only
  rw [(State.event_only _ _ _ _).rest]
  rfl

/-- The registers, the log, the window and the windows to be drained are all that changes beside the job. -/
theorem State.winJobGone_rest (s : State) (d : Nat) (r : JobRun) :
    s.winJobGone d r = { s with
      jobs := (s.jobs.upd {} d (·.failed r)).upd {} d fun k => { k with win := none }
      hist := (s.releaseWin d s.tick 4).hist, stk := (s.releaseWin d s.tick 4).stk
      regs := (s.winJobGone d r).regs, log := (s.winJobGone d r).log } := by
  unfold State.winJobGone
  rw [State.winJobFail_rest, State.jobFailed_rest]
  rfl

theorem State.win_winJobGone (s : State) (d : Nat) (r : JobRun) :
    (s.winJobGone d r).win d = { s.win d with state := 4, relAt := some s.tick, ready := false } := by
  rw [← s.win_releaseWin_same d s.tick 4]
  exact State.win_of_hist (by rw [State.winJobGone_rest]) d

theorem State.winJobGone_jobs (s : State) (d : Nat) (r : JobRun) :
    (s.winJobGone d r).jobs = ((s.updJob d (·.failed r)).updJob d fun k => { k with win := none }).jobs := by
  rw [State.winJobGone_rest]
  rfl

theorem State.job_winJobGone (s : State) (d : Nat) (r : JobRun) : (s.winJobGone d r).job d = { (s.job d).failed r with win := none } := by
  rw [State.job_of_jobs (s.winJobGone_jobs d r), State.job_updJob_same, State.job_updJob_same]

theorem State.queued_winJobGone {s : State} {d i : Nat} {r : JobRun} (h : i ∈ (s.winJobGone d r).queued) : i = d ∨ i ∈ s.queued :=
  (State.queued_updJob (State.queued_of_jobs (s.winJobGone_jobs d r) h)).elim .inl State.queued_updJob

theorem State.on_winJobGone_cmp (s : State) (d : Nat) (r : JobRun) : (s.winJobGone d r).on F.CMP_ALERT_FAIL = true := by
  rw [State.winJobGone, State.on_winJobFail_other _ d _ (by decide) (by decide), State.on_updJob, State.on_jobFailed]

theorem State.on_winJobGone_hst (s : State) (d : Nat) (r : JobRun) : (s.winJobGone d r).on F.HST_ALERT_JOB_FAIL = true :=
  State.on_winJobFail _ d

/-- The queued job of a window, stopped before its first block while no other job waits: it fails, the window goes, and nothing takes the
space that they leave. -/
theorem State.stopJob_queuedWindow {s : State} {d err : Nat} (win : (s.job d).win = some d) (state : (s.job d).state = 1)
    (waiting : (s.job d).waiting = false) (alone : ∀ i ∈ s.queued, i = d) : s.stopJob d err = s.winJobGone d { err := err } := by
  have stopped : s.stopJob d err = (s.winJobGone d { err := err }).afterJob d := by
    simp only [State.stopJob, state, State.failJob, win]
    rfl
  have own := s.job_winJobGone d { err := err }
  have wanted : ((s.winJobGone d { err := err }).job d).waiting = false := by rw [own]; exact waiting
  have idle := State.placeJobs_alone (s := s.winJobGone d { err := err }) (d := d)
    (fun i h => (State.queued_winJobGone h).elim id (alone i)) (by rw [own])
  rw [stopped]
  simp [State.afterJob, wanted, idle]

end Sys2Proof.Machine
end

section
/-! SUPPORT. A window cancelled or released (R239, R265). -/
namespace Sys2Proof.Machine

variable {s : State} {d : Nat}

/-- A window without a job leaves the descriptor's job as it is, but for the note that it waits. -/
theorem State.freeWinJob_none (win : (s.job d).win = none) : s.freeWinJob d = s.updJob d fun k => { k with waiting := false } := by
  simp [State.freeWinJob, win]

/-- A window's finished job gives its extent back; with no other job waiting, nothing takes it. -/
theorem State.freeWinJob_own (win : (s.job d).win = some d) (idle : s.queued = []) :
    s.freeWinJob d = s.updJob d fun k => { k with win := none, ext := none, recs := [] } := by
  have freed : s.freeWinJob d = (s.updJob d fun k => { k with win := none, ext := none, recs := [] }).placeJobs := if_pos win
  rw [freed]
  refine State.placeJobs_alone (d := d) (fun i h => (State.queued_updJob h).resolve_right (by simp [idle])) ?_
  rw [State.job_updJob_same]

/-- What a cancel does to a window before its job ends: its records that wait on the stream go, its pins stay for the tick. -/
def State.dropWindow (s : State) (d : Nat) : State :=
  let w := s.win d
  let own (p : Placed) : Bool := p.key.rank == d && p.key.pos == s.sys.pos && p.key.place == w.cut && s.streamReadout w.stream
  (s.updStream w.stream fun st => { st with placed := st.placed.filter fun p => !own p }).updWin d fun w => { w with keepTo := s.tick + 1 }

theorem State.dropWindow_rest (s : State) (d : Nat) :
    s.dropWindow d = { s with hist := { s.hist with wins := (s.dropWindow d).hist.wins }, net := (s.dropWindow d).net } := rfl

theorem State.win_dropWindow_same (s : State) (d : Nat) : (s.dropWindow d).win d = { s.win d with keepTo := s.tick + 1 } :=
  State.win_updWin_same _ d _

theorem State.win_dropWindow_other (s : State) {k d : Nat} (other : k ≠ d) : (s.dropWindow d).win k = s.win k :=
  State.win_updWin_other _ _ other

theorem State.exec_windowCancel (live : s.liveMode = true) (cut : 1 ≤ (s.win d).state) (held : (s.win d).state ≤ 3) :
    exec (.windowCancel d) s = .next
      (if (s.job d).win = some d ∧ ((s.job d).state = 1 ∨ (s.job d).state = 2) then (s.dropWindow d).stopJob d 7
        else ((s.dropWindow d).freeWinJob d).releaseWin d s.tick 0) := by
  have runs : exec (.windowCancel d) s = .next (s.cancelWindow d) := congrArg Host.Outcome.next (if_pos live)
  have taken : ¬((s.win d).state = 0 ∨ (s.win d).state = 4) := by omega
  rw [runs]
  exact congrArg Host.Outcome.next (if_neg taken)

/-- A window without a job, cancelled: it is released in the tick of its cancel. -/
def State.cancelled (s : State) (d : Nat) : State := ((s.dropWindow d).updJob d fun k => { k with waiting := false }).releaseWin d s.tick 0

theorem State.win_cancelled_same (s : State) (d : Nat) :
    (s.cancelled d).win d = { s.win d with state := 0, relAt := some s.tick, ready := false, keepTo := s.tick + 1 } := by
  have dropped : ((s.dropWindow d).updJob d fun k => { k with waiting := false }).win d = { s.win d with keepTo := s.tick + 1 } :=
    s.win_dropWindow_same d
  rw [State.cancelled, State.win_releaseWin_same, dropped]

theorem State.win_cancelled_other (s : State) {k d : Nat} (other : k ≠ d) : (s.cancelled d).win k = s.win k :=
  (State.win_releaseWin_other _ _ _ other).trans (s.win_dropWindow_other other)

theorem State.cancelled_rest (s : State) (d : Nat) :
    s.cancelled d = { s with
      hist := { s.hist with wins := (s.cancelled d).hist.wins }, net := (s.cancelled d).net, jobs := (s.cancelled d).jobs
      stk := { s.stk with drains := (s.cancelled d).stk.drains } } := by
  unfold State.cancelled
  rw [s.dropWindow_rest d]
  rfl

theorem State.exec_windowCancel_jobless (live : s.liveMode = true) (cut : 1 ≤ (s.win d).state) (held : (s.win d).state ≤ 3)
    (job : (s.job d).win = none) : exec (.windowCancel d) s = .next (s.cancelled d) := by
  have other : ¬((s.job d).win = some d ∧ ((s.job d).state = 1 ∨ (s.job d).state = 2)) := by simp [job]
  have own : ((s.dropWindow d).job d).win = none := job
  rw [State.exec_windowCancel live cut held, if_neg other, State.freeWinJob_none own]
  rfl

/-- A cancelled window whose job still waits goes with it (R267). -/
theorem State.exec_windowCancel_queued (live : s.liveMode = true) (reading : (s.win d).state = 3) (job : (s.job d).win = some d)
    (state : (s.job d).state = 1) (waiting : (s.job d).waiting = false) (alone : ∀ i ∈ s.queued, i = d) :
    exec (.windowCancel d) s = .next ((s.dropWindow d).winJobGone d { err := 7 }) := by
  have stopped : (s.dropWindow d).stopJob d 7 = (s.dropWindow d).winJobGone d { err := 7 } :=
    State.stopJob_queuedWindow (s := s.dropWindow d) job state waiting fun i h => alone i (State.queued_of_jobs (s := s) (t := s.dropWindow d) rfl h)
  rw [State.exec_windowCancel live (by omega) (by omega), if_pos ⟨job, .inl state⟩, stopped]

/-- A window that nothing holds any more is released in the tick after its last record reached STREAM. -/
theorem State.exec_windowRelease {w : Nat} (written : (s.win d).written = some w) (reading : (s.win d).state = 3) (past : w < s.tick)
    {u : State} (freed : s.freeWinJob d = u) : exec (.windowRelease d) s = .next (u.releaseWin d s.tick 0) := by
  change execWindowRelease d s = _
  simp [execWindowRelease, written, reading, past, freed]

/-- In the tick of its cancel a window holds its pins and its descriptor, and from the next tick on neither. -/
theorem State.descFree_released {w : Window} {t : Nat} (now : s.win d = { w with state := 0, relAt := some t, ready := false, keepTo := t + 1 }) :
    s.descFree d t = false ∧ s.descFree d (t + 1) = true ∧ (s.win d).holds t = decide (w.first < w.lastP) ∧ (s.win d).holds (t + 1) = false := by
  simp [State.descFree, Window.holds, now]

end Sys2Proof.Machine
end

section
/-! SUPPORT. Windows on their streams: what a readout changes of them (R239, R279, R284, R325). -/
namespace Sys2Proof.Machine

/-- What a stream's readout can change: the network side, the stack, and of each window only when its last record was written. -/
structure ReadoutWork (s t : State) : Prop where
  rest : t = { s with hist := { s.hist with wins := t.hist.wins }, net := t.net, stk := t.stk }
  wins : ∀ k, t.win k = { s.win k with written := (t.win k).written }

namespace ReadoutWork

/-- Work on the network side and the stack touches no window. -/
theorem of_rest {s t : State} (h : t = { s with net := t.net, stk := t.stk }) : ReadoutWork s t := by
  have hist : t.hist = s.hist := by rw [h]
  refine ⟨?_, fun k => by rw [State.win_of_hist hist k]⟩
  rw [hist]
  exact h

theorem of_reply {s t : State} (h : ReplyOnly s t) : ReadoutWork s t := by
  refine of_rest ?_
  rw [h]

theorem refl (s : State) : ReadoutWork s s := of_rest rfl

theorem trans {s t u : State} (h : ReadoutWork s t) (k : ReadoutWork t u) : ReadoutWork s u := by
  refine ⟨?_, fun i => ?_⟩
  · rw [k.rest, h.rest]
  · rw [k.wins, h.wins]

theorem foldl {α : Type} {g : State → α → State} (hg : ∀ s a, ReadoutWork s (g s a)) (l : List α) (s : State) :
    ReadoutWork s (l.foldl g s) := by
  induction l generalizing s with
  | nil => exact refl s
  | cons a l ih => exact (hg s a).trans (ih _)

end ReadoutWork

theorem State.updStream_readoutWork (s : State) (m : Nat) (f : Stream → Stream) : ReadoutWork s (s.updStream m f) := .of_rest rfl

theorem State.storeDgram_readoutWork (s : State) (m : Nat) (g : Dgram) : ReadoutWork s (s.storeDgram m g) := .of_rest rfl

theorem State.formDgram_readoutWork (s : State) (m first : Nat) (recs : List Placed) : ReadoutWork s (s.formDgram m first recs) := by
  cases recs with
  | nil => exact .refl s
  | cons r recs => exact (s.updStream_readoutWork m _).trans (State.storeDgram_readoutWork _ m _)

theorem State.fillReadout_readoutWork (m n : Nat) (s : State) : ReadoutWork s (s.fillReadout m n) := by
  induction n generalizing s with
  | zero => exact .refl s
  | succ n ih =>
    unfold State.fillReadout
    split
    · exact .refl s
    · dsimp only
      split
      · exact .refl s
      · split
        · split
          · refine .trans ?_ (ih _)
            exact (ReadoutWork.of_rest rfl).trans (.of_reply (State.stkSend_only _ _ _ _ _))
          · exact .refl s
        · split
          · exact ((s.updStream_readoutWork m _).trans (State.formDgram_readoutWork _ _ _ _)).trans (ih _)
          · exact .refl s

/-- A window whose last record is in STREAM has the tick of it noted. -/
theorem State.windowWritten_readoutWork (s : State) (d t : Nat) : ReadoutWork s (s.updWin d fun w => { w with written := some t }) := by
  refine ⟨rfl, fun k => ?_⟩
  by_cases same : k = d
  · subst same
    rw [State.win_updWin_same]
  · rw [State.win_updWin_other _ _ same]

theorem State.noteWritten_readoutWork (s : State) (m : Nat) : ReadoutWork s (s.noteWritten m) :=
  .foldl (fun s (e : Nat × Window) => (s.windowWritten_readoutWork e.1 s.tick).trans (.of_rest rfl)) _ s

theorem State.pumpReadout_readoutWork (s : State) (m : Nat) : ReadoutWork s (s.pumpReadout m) := by
  have pass (s : State) (n : Nat) : ReadoutWork s ((s.fillReadout m n).noteWritten m) :=
    (State.fillReadout_readoutWork m n s).trans (State.noteWritten_readoutWork _ m)
  have first := (ReadoutWork.of_rest (s := s) (t := s.dropDrained) rfl).trans (pass _ (s.stream m).placed.length)
  unfold State.pumpReadout
  dsimp only
  split
  · exact first
  · exact first.trans (pass _ _)

/-- A window put on its readout stream is being read, whatever of it the stream takes now. -/
theorem State.sendWindow_readout {s : State} {d : Nat} (recs : List (List Word)) (readout : s.streamReadout (s.win d).stream = true) :
    ReadoutWork (s.updWin d fun w => { w with state := 3, ready := false }) (s.sendWindow d recs) := by
  unfold State.sendWindow
  dsimp only
  rw [if_pos readout]
  exact (State.updStream_readoutWork _ _ _).trans (State.pumpReadout_readoutWork _ _)

/-- With its stream not READOUT its records are discarded (R278). -/
theorem State.sendWindow_discard {s : State} {d : Nat} (recs : List (List Word)) (other : s.streamReadout (s.win d).stream = false) :
    s.sendWindow d recs = (((s.updWin d fun w => { w with state := 3, ready := false }).updWin d fun w =>
      { w with written := some s.tick }).flag F.NSP_ALERT_NO_STREAM) := by
  unfold State.sendWindow
  dsimp only
  rw [if_neg (by simp [other])]

/-! Borrowed slots (R319). -/

/-- The slots of the ring, oldest first, in borrowed memory that hold ticks of window `d`. -/
def State.borrowedSlots (s : State) (d : Nat) : List (Nat × Nat) :=
  (s.hist.ring.filter (fun e => s.slotBorrowed e.1 && decide ((s.win d).first ≤ e.2) && decide (e.2 < (s.win d).lastP))).reverse

theorem ReplyOnly.foldl {α : Type} {g : State → α → State} (hg : ∀ s a, ReplyOnly s (g s a)) (l : List α) (s : State) :
    ReplyOnly s (l.foldl g s) := by
  induction l generalizing s with
  | nil => exact .refl s
  | cons a l ih => exact (hg s a).trans (ih _)

/-- The reads go out on the stack; beside them the window is marked, and the reads are expected. -/
theorem State.askBorrowed_asks (s : State) (d : Nat) : ∃ u, ReplyOnly s u ∧
    s.askBorrowed d = (u.updWin d fun w => { w with asked := true }).expectReads ((s.borrowedSlots d).map fun e => (d, e.1)) := by
  unfold State.askBorrowed
  dsimp only
  refine ⟨_, ?_, congrArg (State.expectReads _) List.map_map⟩
  exact .foldl (fun s i => s.stkSend_only _ _ _ _) _ s

end Sys2Proof.Machine
end

section
/-! SUPPORT. The cases of WINDOW_READOUT (R215, R238, R319). -/
namespace Sys2Proof.Machine

variable {s : State} {d : Nat}

/-- The readout of a window whose borrowed slots, where there are any, have been asked for. -/
def State.readOut (s : State) (d : Nat) : Host.Outcome State Fault Refusal :=
  if ¬(s.win d).ready ∨ s.sys.mode = .load ∨ s.sys.mode = .dormant ∨ s.readsWait d then .next s
  else if (s.win d).form = 2 then
    if (s.win d).state = 2 then
      if s.sys.mode = .hold then .next s else .next ((s.updWin d fun w => { w with state := 3 }).wantWinJob d)
    else if (s.job d).win = some d ∧ (s.job d).state = 3 ∧ s.nextOnStream d then .next (s.sendWindow d (s.windowHead d ++ (s.job d).recs))
    else .next s
  else if (s.win d).state = 2 ∧ s.nextOnStream d then .next (s.sendWindow d (s.windowHead d ++ s.dataRecords (s.win d)))
  else .next s

theorem State.exec_windowReadout_ask (ready : (s.win d).ready = true) (closed : (s.win d).state = 2) (unasked : (s.win d).asked = false)
    (pool : s.stk.poolOn = true) (live : s.live = true) : exec (.windowReadout d) s = (s.askBorrowed d).readOut d := by
  have asks : (if (s.win d).ready ∧ (s.win d).state = 2 ∧ ¬(s.win d).asked ∧ s.stk.poolOn ∧ s.live then s.askBorrowed d else s) =
      s.askBorrowed d :=
    if_pos ⟨ready, closed, by simp [unasked], pool, live⟩
  exact congrArg (State.readOut · d) asks

theorem State.exec_windowReadout_asked (asked : (s.win d).ready = false ∨ (s.win d).asked = true ∨ s.stk.poolOn = false) :
    exec (.windowReadout d) s = s.readOut d := by
  have quiet : (if (s.win d).ready ∧ (s.win d).state = 2 ∧ ¬(s.win d).asked ∧ s.stk.poolOn ∧ s.live then s.askBorrowed d else s) = s := by
    refine if_neg ?_
    rintro ⟨ready, -, unasked, pool, -⟩
    simp [ready, unasked, pool] at asked
  exact congrArg (State.readOut · d) quiet

/-- A window that is not ready stays. -/
theorem State.readOut_unready (unready : (s.win d).ready = false) : s.readOut d = .next s := if_pos (.inl (by simp [unready]))

/-- A window that waits for borrowed slots stays. -/
theorem State.readOut_waits (waits : s.readsWait d = true) : s.readOut d = .next s := if_pos (.inr (.inr (.inr waits)))

/-- None goes before its turn. -/
theorem State.readOut_later (form : (s.win d).form ≠ 2) (later : s.nextOnStream d = false) : s.readOut d = .next s := by
  simp [State.readOut, form, later]

/-- A window whose turn it is goes to its stream. -/
theorem State.readOut_turn (ready : (s.win d).ready = true) (loaded : s.sys.mode ≠ .load) (awake : s.sys.mode ≠ .dormant)
    (here : s.readsWait d = false) (form : (s.win d).form ≠ 2) (closed : (s.win d).state = 2) (turn : s.nextOnStream d = true) :
    s.readOut d = .next (s.sendWindow d (s.windowHead d ++ s.dataRecords (s.win d))) := by
  simp [State.readOut, ready, loaded, awake, here, form, closed, turn]

/-- In RUN and LIMP a window of FORM 2 wants its job first, and while a job of the register's own holds the descriptor, the window's job
waits (R265). -/
theorem State.readOut_job (ready : (s.win d).ready = true) (run : s.running = true) (here : s.readsWait d = false)
    (form : (s.win d).form = 2) (closed : (s.win d).state = 2) (held : (s.job d).state = 1 ∨ (s.job d).state = 2) :
    s.readOut d = .next ((s.updWin d fun w => { w with state := 3 }).updJob d fun k => { k with waiting := true }) := by
  have waits : (s.updWin d fun w => { w with state := 3 }).wantWinJob d =
      (s.updWin d fun w => { w with state := 3 }).updJob d fun k => { k with waiting := true } := if_pos held
  obtain mode | mode : s.sys.mode = .run ∨ s.sys.mode = .limp := by simpa [State.running] using run
  all_goals simp [State.readOut, ready, mode, here, form, closed, waits]

/-- A window with a tick in borrowed memory waits once its slots have been asked for. -/
theorem State.readsWait_askBorrowed (lent : s.hist.ring.any (fun e =>
      s.slotBorrowed e.1 && decide ((s.win d).first ≤ e.2) && decide (e.2 < (s.win d).lastP)) = true) :
    (s.askBorrowed d).readsWait d = true := by
  obtain ⟨e, listed, borrowed⟩ := List.any_eq_true.mp lent
  obtain ⟨u, -, asks⟩ := s.askBorrowed_asks d
  have slot : e ∈ s.borrowedSlots d := List.mem_reverse.mpr (List.mem_filter.mpr ⟨listed, borrowed⟩)
  rw [asks]
  exact List.any_eq_true.mpr ⟨(d, e.1), List.mem_append_right _ (List.mem_map_of_mem slot), beq_self_eq_true d⟩

end Sys2Proof.Machine

open Sys2Proof Sys2Proof.Machine

/-- Settles O49: each command is one change of the window, with what its job, its stream and the stack get; of a window that goes to its
stream, the readout notes at most when its last record was written. -/
theorem windowsCloseAndAreReadOut : Obligations.WindowsCloseAndAreReadOut := by
  refine ⟨fun d s opened full => ?_, fun d s live request opened => ?_, fun d s live request closed unready => ?_, fun d s live cut held job => ?_,
    fun d s live reading job state waiting others => ?_, fun d w s written reading past job => ?_,
    fun d w s written reading past job done idle => ?_, fun d s ready loaded awake form closed asked here turn discard => ?_,
    fun d s ready loaded awake form closed asked here turn readout => ?_, fun d s ready run form closed asked here held => ?_,
    fun d s ready closed unasked pool live borrowed => ?_, fun d s stays => ?_⟩
  · have runs : exec (.windowClose d) s = .next (s.updWin d fun w => { w with state := 2, ready := w.readReq || !w.request }) :=
      if_pos ⟨opened, full⟩
    exact ⟨_, runs, s.win_updWin_same d _, fun k other => s.win_updWin_other _ other, rfl⟩
  · have read : s.readWindow d = s.updWin d fun w => { w with readReq := true } := by simp [State.readWindow, request, opened]
    have runs : exec (.windowRead d) s = .next (s.readWindow d) := congrArg Host.Outcome.next (if_pos live)
    exact ⟨_, runs.trans (congrArg Host.Outcome.next read), s.win_updWin_same d _, rfl⟩
  · have read : s.readWindow d = s.updWin d fun w => { w with ready := true } := by simp [State.readWindow, request, closed, unready]
    have runs : exec (.windowRead d) s = .next (s.readWindow d) := congrArg Host.Outcome.next (if_pos live)
    exact ⟨_, runs.trans (congrArg Host.Outcome.next read), s.win_updWin_same d _, rfl⟩
  · obtain ⟨busy, free, pins, gone⟩ := State.descFree_released (s.win_cancelled_same d)
    exact ⟨_, State.exec_windowCancel_jobless live cut held job, s.win_cancelled_same d, fun k other => s.win_cancelled_other other,
      busy, free, pins, gone, s.cancelled_rest d⟩
  · have alone (i : Nat) (queued : i ∈ s.queued) : i = d := by
      obtain ⟨k, listed, waits⟩ := (s.mem_queued i).mp queued
      simpa [waits] using List.all_eq_true.mp others (i, k) listed
    have window := (s.dropWindow d).win_winJobGone d { err := 7 }
    have failed := (s.dropWindow d).job_winJobGone d { err := 7 }
    have rest := (s.dropWindow d).winJobGone_rest d { err := 7 }
    refine ⟨_, State.exec_windowCancel_queued live reading job state waiting alone, by rw [window], by rw [window]; rfl, by rw [failed]; rfl,
      by rw [failed]; rfl, by rw [failed], State.on_winJobGone_cmp _ d _, State.on_winJobGone_hst _ d _, ?_, ?_, ?_⟩
    all_goals rw [rest]; rfl
  · exact ⟨_, State.exec_windowRelease written reading past (State.freeWinJob_none job), State.win_releaseWin_same _ d _ _,
      fun k other => State.win_releaseWin_other _ _ _ other, rfl⟩
  · exact ⟨_, State.exec_windowRelease written reading past (State.freeWinJob_own job idle), State.win_releaseWin_same _ d _ _,
      by rw [State.job_releaseWin, State.job_updJob_same], fun k other => by rw [State.job_releaseWin, State.job_updJob_other _ _ other], rfl⟩
  · have runs := (State.exec_windowReadout_asked (.inr asked)).trans (State.readOut_turn ready loaded awake here form closed turn)
    rw [State.sendWindow_discard _ discard] at runs
    refine ⟨_, runs, ?_, State.on_flag _ F.NSP_ALERT_NO_STREAM (by decide) rfl, rfl⟩
    exact (State.win_updWin_same _ d _).trans (by rw [State.win_updWin_same])
  · have runs := (State.exec_windowReadout_asked (.inr asked)).trans (State.readOut_turn ready loaded awake here form closed turn)
    obtain ⟨rest, wins⟩ := State.sendWindow_readout (s.windowHead d ++ s.dataRecords (s.win d)) readout
    have window := wins d
    rw [State.win_updWin_same] at window
    refine ⟨_, runs, by rw [window], by rw [window], ?_, ?_, ?_, ?_⟩
    all_goals rw [rest]; rfl
  · have runs := (State.exec_windowReadout_asked (.inr asked)).trans (State.readOut_job ready run here form closed held)
    exact ⟨_, runs, s.win_updWin_same d _, State.job_updJob_same _ d _, rfl⟩
  · have runs := (State.exec_windowReadout_ask ready closed unasked pool live).trans (State.readOut_waits (State.readsWait_askBorrowed borrowed))
    obtain ⟨u, sent, asks⟩ := s.askBorrowed_asks d
    have kept (k : Nat) : u.win k = s.win k := State.win_of_hist (by rw [sent]) k
    refine ⟨_, runs, ?_, ?_, fun k other => ?_, ?_⟩
    · rw [asks, ← kept d]
      exact u.win_updWin_same d _
    · rw [asks, sent]
      rfl
    · rw [asks, ← kept k]
      exact u.win_updWin_other _ other
    · rw [asks, sent]
      rfl
  · obtain unready | ⟨asked, form, later⟩ := stays
    · exact (State.exec_windowReadout_asked (.inl unready)).trans (State.readOut_unready unready)
    · exact (State.exec_windowReadout_asked (.inr (.inl asked))).trans (State.readOut_later form later)
end
